-- ==== Sys2Proof/Word.lean ====
section
/-! DEFINITION. Word types and the plainest containers of the model: bit fields of a word, and the sparse
map in canonical form (rising keys, no entry equal to the default) that holds memory and every bank. -/
namespace Sys2Proof

abbrev Byte := BitVec 8
abbrev Word32 := BitVec 32
abbrev Word64 := BitVec 64
/-- A 72-bit virtual address (R11). -/
abbrev Addr := BitVec 72

/-- A sparse map: key and value pairs; a key without an entry holds the map's default. -/
abbrev SMap (α : Type) := List (Nat × α)

/-- The value held at key `k`, `d` when `k` is not listed. -/
def mget {α : Type} : SMap α → α → Nat → α
  | [], d, _ => d
  | (j, x) :: r, d, k => if j = k then x else mget r d k

/-- Insertion of an entry in rising key order. -/
def minsert {α : Type} : SMap α → Nat → α → SMap α
  | [], k, v => [(k, v)]
  | (j, x) :: r, k, v =>
    if k < j then (k, v) :: (j, x) :: r
    else if k = j then (k, v) :: r
    else (j, x) :: minsert r k v

/-- The map with key `k` unlisted. -/
def merase {α : Type} : SMap α → Nat → SMap α
  | [], _ => []
  | (j, x) :: r, k => if j = k then merase r k else (j, x) :: merase r k

/-- The map with `v` at key `k`; writing the default unlists the key. -/
def mset {α : Type} [DecidableEq α] (m : SMap α) (d : α) (k : Nat) (v : α) : SMap α :=
  if v = d then merase m k else minsert m k v

/-- The entries of `f` on keys `lo` to `lo + n - 1` that differ from the default. -/
def mtabFrom {α : Type} [DecidableEq α] (d : α) (f : Nat → α) : Nat → Nat → SMap α
  | _, 0 => []
  | lo, n + 1 =>
    let v := f lo
    if v = d then mtabFrom d f (lo + 1) n else (lo, v) :: mtabFrom d f (lo + 1) n

/-- The map that holds `f k` at every key below `n`. -/
def mtab {α : Type} [DecidableEq α] (n : Nat) (d : α) (f : Nat → α) : SMap α := mtabFrom d f 0 n

/-- Keys strictly rising, starting at `lo` or above, and no entry equal to the default. -/
def mwfFrom {α : Type} [DecidableEq α] (d : α) : Nat → SMap α → Bool
  | _, [] => true
  | lo, (j, x) :: r => decide (lo ≤ j) && decide (x ≠ d) && mwfFrom d (j + 1) r

/-- The canonical form of a sparse map. -/
def mwf {α : Type} [DecidableEq α] (d : α) (m : SMap α) : Bool := mwfFrom d 0 m

end Sys2Proof
end

