-- ==== Sys2Proof/Config.lean ====
section
/-! DEFINITION. What the spec leaves to the implementation and the free values: constants without a body, so that no
proof can rest on their value. -/
namespace Sys2Proof

/-- A value the spec leaves open, drawn fresh for each count (log entry 3). -/
opaque freeValue : Nat → Word64

/-- The SHAKE256 digest of 64 bytes of what a measurement block takes (R399): a function of the measured words (log entry 19). -/
opaque digest : List Word64 → BitVec 512

/-- What the boot ROM holds, as measurement block 1 takes it (R399). -/
opaque bootRom : List Word64

/-- The device's fused unique secret (R398). -/
opaque uniqueSecret : BitVec 512

/-- The maker's signing key, Kwelar's (R397, R398). -/
opaque makerKey : BitVec 512

/-- The identity key that the boot ROM derives from the unique secret (R398, log entry 79). -/
opaque identityKey : BitVec 512 → BitVec 512

/-- The alias key that it derives from the identity secret and the firmware's digest (R398, log entry 79). -/
opaque aliasKey : BitVec 512 → BitVec 512 → BitVec 512

/-- The public half of a key pair (log entry 79). -/
opaque publicKey : BitVec 512 → List Word64

/-- The ML-DSA-65 signature by a key of a message, with the signer's random value (R388, log entry 79). -/
opaque signature : BitVec 512 → List Word64 → Word64 → List Word64

/-- The free value of a draw as a lane. -/
def freeLane (n : Nat) : Word32 := (freeValue n).setWidth 32

end Sys2Proof
end

