-- ==== Sys2Proof/Syntax.lean ====
section
/-! DEFINITION. The steps of the machine: one constructor for each row of spec/opcode_table.json. Instruction
constructors carry the operand fields of their encoding by the table's field names; what the outside world or an
event's own rule supplies to an event stands in the state's `input`. The constructors without fields stand last. -/
namespace Sys2Proof

/-- The steps of the machine. -/
inductive Instr where
  /-- ADD, R209. gD := gA + gB, wrapping modulo 2^64. -/
  | add (d : BitVec 5) (a : BitVec 5) (b : BitVec 5)
  /-- SUB, R209. gD := gA - gB, wrapping. -/
  | sub (d : BitVec 5) (a : BitVec 5) (b : BitVec 5)
  /-- AND, R209. gD := gA AND gB. -/
  | and (d : BitVec 5) (a : BitVec 5) (b : BitVec 5)
  /-- OR, R209. gD := gA OR gB. -/
  | or (d : BitVec 5) (a : BitVec 5) (b : BitVec 5)
  /-- XOR, R209. gD := gA XOR gB. -/
  | xor (d : BitVec 5) (a : BitVec 5) (b : BitVec 5)
  /-- ANDN, R209. gD := gA AND NOT gB. -/
  | andn (d : BitVec 5) (a : BitVec 5) (b : BitVec 5)
  /-- SHL, R209. gD := gA shifted left by gB[5:0]. -/
  | shl (d : BitVec 5) (a : BitVec 5) (b : BitVec 5)
  /-- SHR, R209. gD := gA shifted right by gB[5:0], zeros in. -/
  | shr (d : BitVec 5) (a : BitVec 5) (b : BitVec 5)
  /-- SRA, R209. gD := gA shifted right arithmetically by gB[5:0]. -/
  | sra (d : BitVec 5) (a : BitVec 5) (b : BitVec 5)
  /-- ROL, R209. gD := gA rotated left by gB[5:0]. -/
  | rol (d : BitVec 5) (a : BitVec 5) (b : BitVec 5)
  /-- MUL, R209. gD := low 64 bits of gA × gB. -/
  | mul (d : BitVec 5) (a : BitVec 5) (b : BitVec 5)
  /-- MULH, R209. gD := high 64 bits of the signed 128-bit product. -/
  | mulh (d : BitVec 5) (a : BitVec 5) (b : BitVec 5)
  /-- MULHU, R209. gD := high 64 bits of the unsigned 128-bit product. -/
  | mulhu (d : BitVec 5) (a : BitVec 5) (b : BitVec 5)
  /-- DIV, R210. Signed quotient truncated toward zero, with defined results for zero divisor and overflow. -/
  | div (d : BitVec 5) (a : BitVec 5) (b : BitVec 5)
  /-- DIVU, R210. Unsigned quotient. -/
  | divu (d : BitVec 5) (a : BitVec 5) (b : BitVec 5)
  /-- REM, R210. Signed remainder with the sign of the dividend. -/
  | rem (d : BitVec 5) (a : BitVec 5) (b : BitVec 5)
  /-- REMU, R210. Unsigned remainder. -/
  | remu (d : BitVec 5) (a : BitVec 5) (b : BitVec 5)
  /-- MIN, R209. gD := signed minimum of gA and gB. -/
  | min (d : BitVec 5) (a : BitVec 5) (b : BitVec 5)
  /-- MAX, R209. gD := signed maximum. -/
  | max (d : BitVec 5) (a : BitVec 5) (b : BitVec 5)
  /-- MINU, R209. gD := unsigned minimum. -/
  | minu (d : BitVec 5) (a : BitVec 5) (b : BitVec 5)
  /-- MAXU, R209. gD := unsigned maximum. -/
  | maxu (d : BitVec 5) (a : BitVec 5) (b : BitVec 5)
  /-- ADDS, R209. gD := signed saturating sum. -/
  | adds (d : BitVec 5) (a : BitVec 5) (b : BitVec 5)
  /-- SUBS, R209. gD := signed saturating difference. -/
  | subs (d : BitVec 5) (a : BitVec 5) (b : BitVec 5)
  /-- CLZ, R209. gD := count of leading zero bits of gA. -/
  | clz (d : BitVec 5) (a : BitVec 5)
  /-- CTZ, R209. gD := count of trailing zero bits of gA. -/
  | ctz (d : BitVec 5) (a : BitVec 5)
  /-- POPC, R209. gD := count of one bits of gA. -/
  | popc (d : BitVec 5) (a : BitVec 5)
  /-- SEXTB, R209. gD := sign extension of gA[7:0]. -/
  | sextb (d : BitVec 5) (a : BitVec 5)
  /-- SEXTH, R209. gD := sign extension of gA[15:0]. -/
  | sexth (d : BitVec 5) (a : BitVec 5)
  /-- SEXTW, R209. gD := sign extension of gA[31:0]. -/
  | sextw (d : BitVec 5) (a : BitVec 5)
  /-- ZEXTW, R209. gD := zero extension of gA[31:0]. -/
  | zextw (d : BitVec 5) (a : BitVec 5)
  /-- ADDI, R211. gD := gA + sign-extended immediate. -/
  | addi (d : BitVec 5) (a : BitVec 5) (i : BitVec 16)
  /-- ANDI, R211. gD := gA AND zero-extended immediate. -/
  | andi (d : BitVec 5) (a : BitVec 5) (i : BitVec 16)
  /-- ORI, R211. gD := gA OR zero-extended immediate. -/
  | ori (d : BitVec 5) (a : BitVec 5) (i : BitVec 16)
  /-- XORI, R211. gD := gA XOR zero-extended immediate. -/
  | xori (d : BitVec 5) (a : BitVec 5) (i : BitVec 16)
  /-- SHLI, R211. gD := gA shifted left by a constant. -/
  | shli (d : BitVec 5) (a : BitVec 5) (n : BitVec 6)
  /-- SHRI, R211. gD := gA shifted right logically by a constant. -/
  | shri (d : BitVec 5) (a : BitVec 5) (n : BitVec 6)
  /-- SRAI, R211. gD := gA shifted right arithmetically by a constant. -/
  | srai (d : BitVec 5) (a : BitVec 5) (n : BitVec 6)
  /-- ROLI, R211. gD := gA rotated left by a constant. -/
  | roli (d : BitVec 5) (a : BitVec 5) (n : BitVec 6)
  /-- MOVI, R212. gD := sign-extended 21-bit immediate. -/
  | movi (d : BitVec 5) (i : BitVec 21)
  /-- MOVK, R212. Replaces one 16-bit quarter of gD with a constant. -/
  | movk (d : BitVec 5) (h : BitVec 2) (c : BitVec 16)
  /-- ASET, R213. aD := the 72-bit value gB[7:0]:gA. -/
  | aset (d : BitVec 5) (a : BitVec 5) (b : BitVec 5)
  /-- AADD, R213. aD := aA + sign-extended gB, wrapping at 72 bits. -/
  | aadd (d : BitVec 5) (a : BitVec 5) (b : BitVec 5)
  /-- ASUB, R213. gD := low 64 bits of aA - aB. -/
  | asub (d : BitVec 5) (a : BitVec 5) (b : BitVec 5)
  /-- ALO, R213. gD := aA[63:0]. -/
  | alo (d : BitVec 5) (a : BitVec 5)
  /-- AHI, R213. gD := aA[71:64] zero-extended. -/
  | ahi (d : BitVec 5) (a : BitVec 5)
  /-- AAND, R213. aD := aA AND sign-extended gB. -/
  | aand (d : BitVec 5) (a : BitVec 5) (b : BitVec 5)
  /-- AMOV, R213. aD := aA. -/
  | amov (d : BitVec 5) (a : BitVec 5)
  /-- AADDI, R213. aD := aA + sign-extended immediate. -/
  | aaddi (d : BitVec 5) (a : BitVec 5) (i : BitVec 16)
  /-- CMP_EQ, R214. pD := 1 when gA equals gB. -/
  | cmpEq (p : BitVec 4) (a : BitVec 5) (b : BitVec 5)
  /-- CMP_NE, R214. pD := 1 when gA differs from gB. -/
  | cmpNe (p : BitVec 4) (a : BitVec 5) (b : BitVec 5)
  /-- CMP_LT, R214. pD := 1 when gA < gB, signed. -/
  | cmpLt (p : BitVec 4) (a : BitVec 5) (b : BitVec 5)
  /-- CMP_GE, R214. pD := 1 when gA >= gB, signed. -/
  | cmpGe (p : BitVec 4) (a : BitVec 5) (b : BitVec 5)
  /-- CMP_LTU, R214. pD := 1 when gA < gB, unsigned. -/
  | cmpLtu (p : BitVec 4) (a : BitVec 5) (b : BitVec 5)
  /-- CMP_GEU, R214. pD := 1 when gA >= gB, unsigned. -/
  | cmpGeu (p : BitVec 4) (a : BitVec 5) (b : BitVec 5)
  /-- ACMP_EQ, R214. pD := 1 when the 72-bit address registers are equal. -/
  | acmpEq (p : BitVec 4) (a : BitVec 5) (b : BitVec 5)
  /-- ACMP_LTU, R214. pD := 1 when aA < aB, unsigned. -/
  | acmpLtu (p : BitVec 4) (a : BitVec 5) (b : BitVec 5)
  /-- TST, R214. pD := 1 when gA AND gB is not zero. -/
  | tst (p : BitVec 4) (a : BitVec 5) (b : BitVec 5)
  /-- PAND, R214. pD := pA AND pB. -/
  | pand (d : BitVec 4) (a : BitVec 4) (b : BitVec 4)
  /-- POR, R214. pD := pA OR pB. -/
  | por (d : BitVec 4) (a : BitVec 4) (b : BitVec 4)
  /-- PXOR, R214. pD := pA XOR pB. -/
  | pxor (d : BitVec 4) (a : BitVec 4) (b : BitVec 4)
  /-- PANDN, R214. pD := pA AND NOT pB. -/
  | pandn (d : BitVec 4) (a : BitVec 4) (b : BitVec 4)
  /-- PRD, R214. gD := the sixteen predicates as a bit vector. -/
  | prd (d : BitVec 5)
  /-- PWR, R214. Writes p1 to p15 from gA[15:1]. -/
  | pwr (a : BitVec 5)
  /-- CMPI_EQ, R215. pD := 1 when gA equals the sign-extended constant. -/
  | cmpiEq (p : BitVec 4) (a : BitVec 5) (c : BitVec 13)
  /-- CMPI_NE, R215. pD := 1 when gA differs from the constant. -/
  | cmpiNe (p : BitVec 4) (a : BitVec 5) (c : BitVec 13)
  /-- CMPI_LT, R215. pD := 1 when gA < constant, signed. -/
  | cmpiLt (p : BitVec 4) (a : BitVec 5) (c : BitVec 13)
  /-- CMPI_GE, R215. pD := 1 when gA >= constant, signed. -/
  | cmpiGe (p : BitVec 4) (a : BitVec 5) (c : BitVec 13)
  /-- CMPI_LTU, R215. pD := 1 when gA < constant, unsigned. -/
  | cmpiLtu (p : BitVec 4) (a : BitVec 5) (c : BitVec 13)
  /-- CMPI_GEU, R215. pD := 1 when gA >= constant, unsigned. -/
  | cmpiGeu (p : BitVec 4) (a : BitVec 5) (c : BitVec 13)
  /-- SEL, R216. gD := gA or gB as the predicate selects. -/
  | sel (d : BitVec 5) (a : BitVec 5) (b : BitVec 5) (n : BitVec 1) (p : BitVec 4)
  /-- ASEL, R216. aD := aA or aB as the predicate selects. -/
  | asel (d : BitVec 5) (a : BitVec 5) (b : BitVec 5) (n : BitVec 1) (p : BitVec 4)
  /-- BR, R217. Control-sequencer branch on a predicate, PC-relative in words. -/
  | br (n : BitVec 1) (p : BitVec 4) (o : BitVec 21)
  /-- CALL, R217. Conditional call: a15 := PC + 4 and branch when taken. -/
  | call (n : BitVec 1) (p : BitVec 4) (o : BitVec 21)
  /-- JMP, R218. PC := aA; ret is jmp a15. -/
  | jmp (a : BitVec 5)
  /-- CALLR, R218. Jumps through aA and leaves the return address in a15. -/
  | callr (a : BitVec 5)
  /-- LOOP, R219. Loop close: counts down REM then DRAIN, optionally rotates the stage window p8-p15, and branches while counting. -/
  | loop (r : BitVec 1) (c : BitVec 2) (o : BitVec 21)
  /-- LCSET, R220. Sets a loop counter from gA and a drain count, optionally initialising the stage window. -/
  | lcset (i : BitVec 1) (c : BitVec 2) (a : BitVec 5) (d : BitVec 3)
  /-- LCSETI, R220. Sets a loop counter from an immediate count and drain. -/
  | lcseti (i : BitVec 1) (c : BitVec 2) (d : BitVec 3) (n : BitVec 13)
  /-- MSET, R222. Sets a modulo register's BASE and LEN, checking their range. -/
  | mset (m : BitVec 3) (a : BitVec 5) (b : BitVec 5)
  /-- MRD, R221. gD := LEN × 2^32 + BASE of a modulo register. -/
  | mrd (d : BitVec 5) (m : BitVec 3)
  /-- LCRD, R221. gD := DRAIN × 2^32 + REM of a loop counter. -/
  | lcrd (d : BitVec 5) (c : BitVec 2)
  /-- LCWR, R221. Writes REM and DRAIN of a loop counter from gA. -/
  | lcwr (c : BitVec 2) (a : BitVec 5)
  /-- LD, R231. Load from the virtual byte space, zero-extended, with translation, claims and address update. -/
  | ld (d : BitVec 5) (a : BitVec 5) (m : BitVec 1) (s : BitVec 2) (o : BitVec 9)
  /-- LDX, R231. Load from the virtual byte space, sign-extended. -/
  | ldx (d : BitVec 5) (a : BitVec 5) (m : BitVec 1) (s : BitVec 2) (o : BitVec 9)
  /-- ST, R231. Store to the virtual byte space through the store queue. -/
  | st (d : BitVec 5) (a : BitVec 5) (m : BitVec 1) (s : BitVec 2) (o : BitVec 9)
  /-- SLD, R232. Scratchpad load through wheel slot 7, zero-extended. -/
  | sld (d : BitVec 5) (a : BitVec 5) (m : BitVec 2) (s : BitVec 2) (r : BitVec 3) (o : BitVec 9)
  /-- SLDX, R232. Scratchpad load, sign-extended. -/
  | sldx (d : BitVec 5) (a : BitVec 5) (m : BitVec 2) (s : BitVec 2) (r : BitVec 3) (o : BitVec 9)
  /-- SST, R232. Scratchpad store through wheel slot 7. -/
  | sst (d : BitVec 5) (a : BitVec 5) (m : BitVec 2) (s : BitVec 2) (r : BitVec 3) (o : BitVec 9)
  /-- ST_DUE, R235. Timed store: checked at issue, sent as a release, performed at home no earlier than its due time. -/
  | stDue (d : BitVec 5) (a : BitVec 5) (c : BitVec 2) (s : BitVec 2) (l : BitVec 1) (t : BitVec 5) (g : BitVec 6)
  /-- LD_NB, R235. Not-before load: an acquire performed at home once the home clock reaches n. -/
  | ldNb (d : BitVec 5) (a : BitVec 5) (c : BitVec 2) (s : BitVec 2) (x : BitVec 1) (t : BitVec 5)
  /-- AMO_ADD, R237. Atomic add at the home, returning the old value. -/
  | amoAdd (d : BitVec 5) (a : BitVec 5) (b : BitVec 5) (o : BitVec 2) (c : BitVec 2) (w : BitVec 1)
  /-- AMO_AND, R237. Atomic AND at the home. -/
  | amoAnd (d : BitVec 5) (a : BitVec 5) (b : BitVec 5) (o : BitVec 2) (c : BitVec 2) (w : BitVec 1)
  /-- AMO_OR, R237. Atomic OR at the home. -/
  | amoOr (d : BitVec 5) (a : BitVec 5) (b : BitVec 5) (o : BitVec 2) (c : BitVec 2) (w : BitVec 1)
  /-- AMO_XOR, R237. Atomic XOR at the home. -/
  | amoXor (d : BitVec 5) (a : BitVec 5) (b : BitVec 5) (o : BitVec 2) (c : BitVec 2) (w : BitVec 1)
  /-- AMO_MIN, R237. Atomic signed minimum. -/
  | amoMin (d : BitVec 5) (a : BitVec 5) (b : BitVec 5) (o : BitVec 2) (c : BitVec 2) (w : BitVec 1)
  /-- AMO_MAX, R237. Atomic signed maximum. -/
  | amoMax (d : BitVec 5) (a : BitVec 5) (b : BitVec 5) (o : BitVec 2) (c : BitVec 2) (w : BitVec 1)
  /-- AMO_MINU, R237. Atomic unsigned minimum. -/
  | amoMinu (d : BitVec 5) (a : BitVec 5) (b : BitVec 5) (o : BitVec 2) (c : BitVec 2) (w : BitVec 1)
  /-- AMO_MAXU, R237. Atomic unsigned maximum. -/
  | amoMaxu (d : BitVec 5) (a : BitVec 5) (b : BitVec 5) (o : BitVec 2) (c : BitVec 2) (w : BitVec 1)
  /-- AMO_SWAP, R237. Atomic swap. -/
  | amoSwap (d : BitVec 5) (a : BitVec 5) (b : BitVec 5) (o : BitVec 2) (c : BitVec 2) (w : BitVec 1)
  /-- AMO_CAS, R237. Atomic compare-and-swap against gD. -/
  | amoCas (d : BitVec 5) (a : BitVec 5) (b : BitVec 5) (o : BitVec 2) (c : BitVec 2) (w : BitVec 1)
  /-- SEAL, R239. Seals a 128 KiB page after claim checks and sets SEAL in its leaf. -/
  | sealPage (a : BitVec 5)
  /-- UNSEAL, R239. Invalidates every replica and clears SEAL in the leaf. -/
  | unsealPage (a : BitVec 5)
  /-- CLMQ, R240. Asks the home for the claim state of a granule. -/
  | clmq (d : BitVec 5) (a : BitVec 5)
  /-- FOP_CAS2, R242. Issues a 16-byte compare-and-swap factor operation with its operand block in scratchpad. -/
  | fopCas2 (a : BitVec 5) (b : BitVec 5)
  /-- FOP_CAS4, R242. Issues a 32-byte compare-and-swap factor operation. -/
  | fopCas4 (a : BitVec 5) (b : BitVec 5)
  /-- FOP_ENQ, R242. Issues a queue-append factor operation. -/
  | fopEnq (a : BitVec 5) (b : BitVec 5)
  /-- FOP_CHASE, R242. Issues a pointer-chase factor operation of up to 16 hops. -/
  | fopChase (c : BitVec 5) (a : BitVec 5) (b : BitVec 5)
  /-- FOP_PROG, R242. Issues a factor operation that runs loaded micro-program j at the home. -/
  | fopProg (c : BitVec 5) (a : BitVec 5) (b : BitVec 5) (j : BitVec 3)
  /-- FOP_REL, R40. Issues the tensor-release factor operation naming a handle and a copy tag. -/
  | fopRel (b : BitVec 5) (t : BitVec 6)
  /-- FPOP, R244. Takes the oldest fq entry, waiting while an operation is outstanding. -/
  | fpop (d : BitVec 5) (s : BitVec 5)
  /-- FPOP_NR, R244. Takes the oldest fq entry if any, setting a predicate, never waiting. -/
  | fpopNr (d : BitVec 5) (p : BitVec 4) (s : BitVec 5)
  /-- FSTAT, R244. Reads the fq entry count and outstanding count. -/
  | fstat (d : BitVec 5)
  /-- TOK_PUT, R163. Control-sequencer token put: adds N to a token queue, a release of die scope. -/
  | tokPut (q : BitVec 3) (n : BitVec 8)
  /-- TOK_GET, R163. Control-sequencer token get: waits for N tokens and removes them. -/
  | tokGet (q : BitVec 3) (n : BitVec 8)
  /-- VQPUSH, R343. Pushes gA onto vq0 or vq1. -/
  | vqpush (n : BitVec 1) (a : BitVec 5)
  /-- JOIN, R344. Joins a group at its home and returns the epoch of entry. -/
  | join (d : BitVec 5) (a : BitVec 5)
  /-- LEAVE, R344. Leaves a group, counting as an arrival if owed. -/
  | leave (a : BitVec 5)
  /-- BAR_ARRIVE, R344. Arrives in the group's open epoch, opening the next when all have arrived. -/
  | barArrive (d : BitVec 5) (a : BitVec 5)
  /-- BAR_WAIT, R344. Waits until the group's EPOCH differs from gB. -/
  | barWait (a : BitVec 5) (b : BitVec 5)
  /-- DISSOLVE, R344. Sets a group with no members to free. -/
  | dissolve (a : BitVec 5)
  /-- LAUNCH, R345. Checks a launch descriptor and enters it in a launch queue, returning its number. -/
  | launch (d : BitVec 5) (a : BitVec 5) (b : BitVec 5)
  /-- WAIT, R346. Waits until the named dependences are released. -/
  | wait (a : BitVec 5)
  /-- SETPRIO, R346. Sets the priority of a launch, effective at the next round. -/
  | setprio (a : BitVec 5) (b : BitVec 5)
  /-- TAG_ANY, R306. Waits until any tag of a mask is complete, optionally clearing those found. -/
  | tagAny (d : BitVec 5) (a : BitVec 5) (c : BitVec 1)
  /-- TAG_ALL, R306. Waits until every tag of a mask is complete. -/
  | tagAll (d : BitVec 5) (a : BitVec 5) (c : BitVec 1)
  /-- TAG_FIRST, R306. Returns the lowest complete tag of a mask without waiting. -/
  | tagFirst (d : BitVec 5) (a : BitVec 5)
  /-- RPOP, R348. Takes a record from the stage's input queue into eight g registers after reserving output room. -/
  | rpop (d : BitVec 5) (p : BitVec 4)
  /-- RPUSH, R348. Pushes eight g registers as a record to the stage's output queue. -/
  | rpush (a : BitVec 5)
  /-- CSRR, R223. Reads a control register into gD. -/
  | csrr (d : BitVec 5) (c : BitVec 12)
  /-- CSRW, R223. Writes gA to a control register under its map's checks. -/
  | csrw (a : BitVec 5) (c : BitVec 12)
  /-- CSRS, R223. Reads a control register and sets the bits of gA. -/
  | csrs (d : BitVec 5) (a : BitVec 5) (c : BitVec 12)
  /-- CSRC, R223. Reads a control register and clears the bits of gA. -/
  | csrc (d : BitVec 5) (a : BitVec 5) (c : BitVec 12)
  /-- CSRRW, R223. Reads a control register and writes gA to it. -/
  | csrrw (d : BitVec 5) (a : BitVec 5) (c : BitVec 12)
  /-- RDCLK, R226. gD := CLK of the issuing die. -/
  | rdclk (d : BitVec 5)
  /-- CLKADD, R226. gD := CLK + gA. -/
  | clkadd (d : BitVec 5) (a : BitVec 5)
  /-- LOCQ, R228. Locality query of a virtual address, waiting for the answer. -/
  | locq (d : BitVec 5) (a : BitVec 5)
  /-- LOCQ_T, R228. Locality query of a tensor element. -/
  | locqT (d : BitVec 5) (a : BitVec 5)
  /-- TMPL_LD, R199. Loads 64 bytes into a template slot, holding the control sequencer until written. -/
  | tmplLd (t : BitVec 2) (s : BitVec 6) (a : BitVec 4) (o : BitVec 14)
  /-- TRAP, R357. Raises TRAP_CALL with TVALUE := gA. -/
  | trap (a : BitVec 5)
  /-- HCALL, R357. Raises HOST_CALL with TVALUE := gA. -/
  | hcall (a : BitVec 5)
  /-- CONTAIN, R362. Contains the bound task with a given cause and aborts its launch. -/
  | contain (a : BitVec 5)
  /-- WSW, R357. Raises WORLD_SWITCH to the secure handler. -/
  | wsw (a : BitVec 5)
  /-- INVAL_VA, R31. Package-wide invalidation of one ASID's translations covering an address, waiting for completion. -/
  | invalVa (a : BitVec 5) (b : BitVec 5)
  /-- INVAL_ASID, R31. Invalidates all cached entries of one ASID. -/
  | invalAsid (b : BitVec 5)
  /-- MWCLR, R357. Retires every memory-wharf slot of an ASID on every die. -/
  | mwclr (b : BitVec 5)
  /-- V_FADD, R263. FP32 lane-wise add with one rounding by FMODE. -/
  | vFadd (d : BitVec 6) (a : BitVec 6) (b : BitVec 6) (m : BitVec 1) (k : BitVec 3) (x : BitVec 1) (y : BitVec 1)
  /-- V_FSUB, R263. FP32 lane-wise subtract. -/
  | vFsub (d : BitVec 6) (a : BitVec 6) (b : BitVec 6) (m : BitVec 1) (k : BitVec 3) (x : BitVec 1) (y : BitVec 1)
  /-- V_FMUL, R263. FP32 lane-wise multiply. -/
  | vFmul (d : BitVec 6) (a : BitVec 6) (b : BitVec 6) (m : BitVec 1) (k : BitVec 3) (x : BitVec 1) (y : BitVec 1)
  /-- V_FMA, R263. FP32 fused A × B + D. -/
  | vFma (d : BitVec 6) (a : BitVec 6) (b : BitVec 6) (m : BitVec 1) (k : BitVec 3) (x : BitVec 1) (y : BitVec 1) (z : BitVec 1)
  /-- V_FMS, R263. FP32 fused D - A × B. -/
  | vFms (d : BitVec 6) (a : BitVec 6) (b : BitVec 6) (m : BitVec 1) (k : BitVec 3) (x : BitVec 1) (y : BitVec 1) (z : BitVec 1)
  /-- V_FMIN, R263. FP32 lane-wise minimum. -/
  | vFmin (d : BitVec 6) (a : BitVec 6) (b : BitVec 6) (m : BitVec 1) (k : BitVec 3) (x : BitVec 1) (y : BitVec 1)
  /-- V_FMAX, R263. FP32 lane-wise maximum. -/
  | vFmax (d : BitVec 6) (a : BitVec 6) (b : BitVec 6) (m : BitVec 1) (k : BitVec 3) (x : BitVec 1) (y : BitVec 1)
  /-- V_FABS, R263. Clears the sign bit of each lane. -/
  | vFabs (d : BitVec 6) (a : BitVec 6) (m : BitVec 1) (k : BitVec 3) (x : BitVec 1)
  /-- V_FNEG, R263. Inverts the sign bit of each lane. -/
  | vFneg (d : BitVec 6) (a : BitVec 6) (m : BitVec 1) (k : BitVec 3) (x : BitVec 1)
  /-- V_FCMP_EQ, R264. Mask bit := FP32 equality. -/
  | vFcmpEq (d : BitVec 6) (a : BitVec 6) (b : BitVec 6) (m : BitVec 1) (k : BitVec 3) (x : BitVec 1) (y : BitVec 1)
  /-- V_FCMP_LT, R264. Mask bit := FP32 less-than. -/
  | vFcmpLt (d : BitVec 6) (a : BitVec 6) (b : BitVec 6) (m : BitVec 1) (k : BitVec 3) (x : BitVec 1) (y : BitVec 1)
  /-- V_FCMP_LE, R264. Mask bit := FP32 less-or-equal. -/
  | vFcmpLe (d : BitVec 6) (a : BitVec 6) (b : BitVec 6) (m : BitVec 1) (k : BitVec 3) (x : BitVec 1) (y : BitVec 1)
  /-- V_FCMP_UN, R264. Mask bit := either operand is NaN. -/
  | vFcmpUn (d : BitVec 6) (a : BitVec 6) (b : BitVec 6) (m : BitVec 1) (k : BitVec 3) (x : BitVec 1) (y : BitVec 1)
  /-- V_ADD, R265. INT32 lane-wise wrapping add. -/
  | vAdd (d : BitVec 6) (a : BitVec 6) (b : BitVec 6) (m : BitVec 1) (k : BitVec 3) (x : BitVec 1) (y : BitVec 1)
  /-- V_SUB, R265. INT32 wrapping subtract. -/
  | vSub (d : BitVec 6) (a : BitVec 6) (b : BitVec 6) (m : BitVec 1) (k : BitVec 3) (x : BitVec 1) (y : BitVec 1)
  /-- V_MUL, R265. INT32 wrapping multiply. -/
  | vMul (d : BitVec 6) (a : BitVec 6) (b : BitVec 6) (m : BitVec 1) (k : BitVec 3) (x : BitVec 1) (y : BitVec 1)
  /-- V_MULH, R265. High half of the signed INT32 product. -/
  | vMulh (d : BitVec 6) (a : BitVec 6) (b : BitVec 6) (m : BitVec 1) (k : BitVec 3) (x : BitVec 1) (y : BitVec 1)
  /-- V_ADDS, R265. INT32 saturating add, logging clamps. -/
  | vAdds (d : BitVec 6) (a : BitVec 6) (b : BitVec 6) (m : BitVec 1) (k : BitVec 3) (x : BitVec 1) (y : BitVec 1)
  /-- V_SUBS, R265. INT32 saturating subtract. -/
  | vSubs (d : BitVec 6) (a : BitVec 6) (b : BitVec 6) (m : BitVec 1) (k : BitVec 3) (x : BitVec 1) (y : BitVec 1)
  /-- V_AND, R265. INT32 bitwise AND. -/
  | vAnd (d : BitVec 6) (a : BitVec 6) (b : BitVec 6) (m : BitVec 1) (k : BitVec 3) (x : BitVec 1) (y : BitVec 1)
  /-- V_OR, R265. INT32 bitwise OR. -/
  | vOr (d : BitVec 6) (a : BitVec 6) (b : BitVec 6) (m : BitVec 1) (k : BitVec 3) (x : BitVec 1) (y : BitVec 1)
  /-- V_XOR, R265. INT32 bitwise XOR. -/
  | vXor (d : BitVec 6) (a : BitVec 6) (b : BitVec 6) (m : BitVec 1) (k : BitVec 3) (x : BitVec 1) (y : BitVec 1)
  /-- V_SHL, R265. INT32 shift left by B[4:0]. -/
  | vShl (d : BitVec 6) (a : BitVec 6) (b : BitVec 6) (m : BitVec 1) (k : BitVec 3) (x : BitVec 1) (y : BitVec 1)
  /-- V_SHR, R265. INT32 logical shift right. -/
  | vShr (d : BitVec 6) (a : BitVec 6) (b : BitVec 6) (m : BitVec 1) (k : BitVec 3) (x : BitVec 1) (y : BitVec 1)
  /-- V_SRA, R265. INT32 arithmetic shift right. -/
  | vSra (d : BitVec 6) (a : BitVec 6) (b : BitVec 6) (m : BitVec 1) (k : BitVec 3) (x : BitVec 1) (y : BitVec 1)
  /-- V_MIN, R265. INT32 signed minimum. -/
  | vMin (d : BitVec 6) (a : BitVec 6) (b : BitVec 6) (m : BitVec 1) (k : BitVec 3) (x : BitVec 1) (y : BitVec 1)
  /-- V_MAX, R265. INT32 signed maximum. -/
  | vMax (d : BitVec 6) (a : BitVec 6) (b : BitVec 6) (m : BitVec 1) (k : BitVec 3) (x : BitVec 1) (y : BitVec 1)
  /-- V_MINU, R265. INT32 unsigned minimum. -/
  | vMinu (d : BitVec 6) (a : BitVec 6) (b : BitVec 6) (m : BitVec 1) (k : BitVec 3) (x : BitVec 1) (y : BitVec 1)
  /-- V_MAXU, R265. INT32 unsigned maximum. -/
  | vMaxu (d : BitVec 6) (a : BitVec 6) (b : BitVec 6) (m : BitVec 1) (k : BitVec 3) (x : BitVec 1) (y : BitVec 1)
  /-- V_DIV, R265. INT32 signed division by the rules of R210. -/
  | vDiv (d : BitVec 6) (a : BitVec 6) (b : BitVec 6) (m : BitVec 1) (k : BitVec 3) (x : BitVec 1) (y : BitVec 1)
  /-- V_DIVU, R265. INT32 unsigned division. -/
  | vDivu (d : BitVec 6) (a : BitVec 6) (b : BitVec 6) (m : BitVec 1) (k : BitVec 3) (x : BitVec 1) (y : BitVec 1)
  /-- V_REM, R265. INT32 signed remainder. -/
  | vRem (d : BitVec 6) (a : BitVec 6) (b : BitVec 6) (m : BitVec 1) (k : BitVec 3) (x : BitVec 1) (y : BitVec 1)
  /-- V_REMU, R265. INT32 unsigned remainder. -/
  | vRemu (d : BitVec 6) (a : BitVec 6) (b : BitVec 6) (m : BitVec 1) (k : BitVec 3) (x : BitVec 1) (y : BitVec 1)
  /-- V_ICMP_EQ, R264. Mask bit := INT32 equality. -/
  | vIcmpEq (d : BitVec 6) (a : BitVec 6) (b : BitVec 6) (m : BitVec 1) (k : BitVec 3) (x : BitVec 1) (y : BitVec 1)
  /-- V_ICMP_LT, R264. Mask bit := INT32 signed less-than. -/
  | vIcmpLt (d : BitVec 6) (a : BitVec 6) (b : BitVec 6) (m : BitVec 1) (k : BitVec 3) (x : BitVec 1) (y : BitVec 1)
  /-- V_ICMP_LTU, R264. Mask bit := INT32 unsigned less-than. -/
  | vIcmpLtu (d : BitVec 6) (a : BitVec 6) (b : BitVec 6) (m : BitVec 1) (k : BitVec 3) (x : BitVec 1) (y : BitVec 1)
  /-- V_SHLI, R265. INT32 shift left by an immediate. -/
  | vShli (d : BitVec 6) (a : BitVec 6) (i : BitVec 6) (m : BitVec 1) (k : BitVec 3) (x : BitVec 1)
  /-- V_SHRI, R265. INT32 logical shift right by an immediate. -/
  | vShri (d : BitVec 6) (a : BitVec 6) (i : BitVec 6) (m : BitVec 1) (k : BitVec 3) (x : BitVec 1)
  /-- V_SRAI, R265. INT32 arithmetic shift right by an immediate. -/
  | vSrai (d : BitVec 6) (a : BitVec 6) (i : BitVec 6) (m : BitVec 1) (k : BitVec 3) (x : BitVec 1)
  /-- V_WMAC_S8, R266. Adds the signed 8-bit dot product of A and B lanes to D, wrapping. -/
  | vWmacS8 (d : BitVec 6) (a : BitVec 6) (b : BitVec 6) (m : BitVec 1) (k : BitVec 3) (x : BitVec 1) (y : BitVec 1) (z : BitVec 1)
  /-- V_WMAC_U8, R266. Unsigned 8-bit widening multiply-accumulate. -/
  | vWmacU8 (d : BitVec 6) (a : BitVec 6) (b : BitVec 6) (m : BitVec 1) (k : BitVec 3) (x : BitVec 1) (y : BitVec 1) (z : BitVec 1)
  /-- V_WMAC_S16, R266. Signed 16-bit widening multiply-accumulate. -/
  | vWmacS16 (d : BitVec 6) (a : BitVec 6) (b : BitVec 6) (m : BitVec 1) (k : BitVec 3) (x : BitVec 1) (y : BitVec 1) (z : BitVec 1)
  /-- V_WMAC_U16, R266. Unsigned 16-bit widening multiply-accumulate. -/
  | vWmacU16 (d : BitVec 6) (a : BitVec 6) (b : BitVec 6) (m : BitVec 1) (k : BitVec 3) (x : BitVec 1) (y : BitVec 1) (z : BitVec 1)
  /-- V_WMAC_S8_SAT, R266. Signed 8-bit multiply-accumulate, saturating. -/
  | vWmacS8Sat (d : BitVec 6) (a : BitVec 6) (b : BitVec 6) (m : BitVec 1) (k : BitVec 3) (x : BitVec 1) (y : BitVec 1) (z : BitVec 1)
  /-- V_WMAC_U8_SAT, R266. Unsigned 8-bit multiply-accumulate, saturating. -/
  | vWmacU8Sat (d : BitVec 6) (a : BitVec 6) (b : BitVec 6) (m : BitVec 1) (k : BitVec 3) (x : BitVec 1) (y : BitVec 1) (z : BitVec 1)
  /-- V_WMAC_S16_SAT, R266. Signed 16-bit multiply-accumulate, saturating. -/
  | vWmacS16Sat (d : BitVec 6) (a : BitVec 6) (b : BitVec 6) (m : BitVec 1) (k : BitVec 3) (x : BitVec 1) (y : BitVec 1) (z : BitVec 1)
  /-- V_WMAC_U16_SAT, R266. Unsigned 16-bit multiply-accumulate, saturating. -/
  | vWmacU16Sat (d : BitVec 6) (a : BitVec 6) (b : BitVec 6) (m : BitVec 1) (k : BitVec 3) (x : BitVec 1) (y : BitVec 1) (z : BitVec 1)
  /-- VSEL, R264. Selects each lane from A or B by mask kK. -/
  | vsel (d : BitVec 6) (a : BitVec 6) (b : BitVec 6) (k : BitVec 3) (x : BitVec 1) (y : BitVec 1)
  /-- VPTST, R264. Mask bit := lane of A is poison. -/
  | vptst (d : BitVec 6) (a : BitVec 6) (m : BitVec 1) (k : BitVec 3) (x : BitVec 1)
  /-- VMOV, R267. Copies lanes and side bits, including port-to-port moves. -/
  | vmov (d : BitVec 6) (a : BitVec 6) (m : BitVec 1) (k : BitVec 3) (x : BitVec 1)
  /-- CVT_TO, R267. Converts FP32 lanes into format F. -/
  | cvtTo (d : BitVec 6) (a : BitVec 6) (f : BitVec 6) (m : BitVec 1) (k : BitVec 3) (x : BitVec 1)
  /-- CVT_FROM, R267. Converts lanes of format F into FP32. -/
  | cvtFrom (d : BitVec 6) (a : BitVec 6) (f : BitVec 6) (m : BitVec 1) (k : BitVec 3) (x : BitVec 1)
  /-- CVT_ITO, R267. Clamps INT32 lanes into an integer format's range. -/
  | cvtIto (d : BitVec 6) (a : BitVec 6) (f : BitVec 6) (m : BitVec 1) (k : BitVec 3) (x : BitVec 1)
  /-- VROT_R, R268. Rotates lanes along each row. -/
  | vrotR (d : BitVec 6) (a : BitVec 6) (i : BitVec 6) (m : BitVec 1) (k : BitVec 3) (x : BitVec 1)
  /-- VROT_C, R268. Rotates lanes along each column. -/
  | vrotC (d : BitVec 6) (a : BitVec 6) (i : BitVec 6) (m : BitVec 1) (k : BitVec 3) (x : BitVec 1)
  /-- VBCC, R268. Broadcasts column n across each row. -/
  | vbcc (d : BitVec 6) (a : BitVec 6) (i : BitVec 6) (m : BitVec 1) (k : BitVec 3) (x : BitVec 1)
  /-- VBCR, R268. Broadcasts row n down each column. -/
  | vbcr (d : BitVec 6) (a : BitVec 6) (i : BitVec 6) (m : BitVec 1) (k : BitVec 3) (x : BitVec 1)
  /-- VRED_R, R269. Tree reduction along each row. -/
  | vredR (d : BitVec 6) (a : BitVec 6) (i : BitVec 6) (m : BitVec 1) (k : BitVec 3) (x : BitVec 1)
  /-- VRED_C, R269. Tree reduction along each column. -/
  | vredC (d : BitVec 6) (a : BitVec 6) (i : BitVec 6) (m : BitVec 1) (k : BitVec 3) (x : BitVec 1)
  /-- VSCAN_R, R269. Inclusive scan along each row. -/
  | vscanR (d : BitVec 6) (a : BitVec 6) (i : BitVec 6) (m : BitVec 1) (k : BitVec 3) (x : BitVec 1)
  /-- VSCAN_C, R269. Inclusive scan along each column. -/
  | vscanC (d : BitVec 6) (a : BitVec 6) (i : BitVec 6) (m : BitVec 1) (k : BitVec 3) (x : BitVec 1)
  /-- DNORM, R279. Writes a directional pair from FP32 rows through Renorm. -/
  | dnorm (d : BitVec 6) (a : BitVec 6) (x : BitVec 1)
  /-- DEXP, R280. Expands a directional pair into FP32 lanes. -/
  | dexp (d : BitVec 6) (a : BitVec 6) (m : BitVec 1) (k : BitVec 3)
  /-- DDOT, R281. Writes the cosine of two directional rows. -/
  | ddot (d : BitVec 6) (a : BitVec 6) (b : BitVec 6) (m : BitVec 1) (k : BitVec 3)
  /-- DDOTN, R281. Writes the dot product of two directional rows including norms. -/
  | ddotn (d : BitVec 6) (a : BitVec 6) (b : BitVec 6) (m : BitVec 1) (k : BitVec 3)
  /-- DADD, R282. Adds two directional rows and renormalises. -/
  | dadd (d : BitVec 6) (a : BitVec 6) (b : BitVec 6)
  /-- DSUB, R282. Subtracts two directional rows and renormalises. -/
  | dsub (d : BitVec 6) (a : BitVec 6) (b : BitVec 6)
  /-- DSCL, R283. Scales each directional row by an L32 lane. -/
  | dscl (d : BitVec 6) (a : BitVec 6) (b : BitVec 6) (y : BitVec 1)
  /-- DSCLI, R283. Scales every directional row by 2^k. -/
  | dscli (d : BitVec 6) (a : BitVec 6) (i : BitVec 6)
  /-- DTST, R284. Writes a mask row by the class of each directional row. -/
  | dtst (d : BitVec 6) (a : BitVec 6) (i : BitVec 6)
  /-- DCOMP, R280. Reads directional components as INT32 lanes. -/
  | dcomp (d : BitVec 6) (a : BitVec 6) (m : BitVec 1) (k : BitVec 3)
  /-- DNGET, R280. Reads each row's norm into its lanes. -/
  | dnget (d : BitVec 6) (a : BitVec 6) (m : BitVec 1) (k : BitVec 3)
  /-- LCVT, R286. Converts FP32 to L32 or L32 to FP32. -/
  | lcvt (d : BitVec 6) (a : BitVec 6) (i : BitVec 6) (m : BitVec 1) (k : BitVec 3) (x : BitVec 1)
  /-- LMUL, R287. Log-domain multiply of L32 lanes. -/
  | lmul (d : BitVec 6) (a : BitVec 6) (b : BitVec 6) (m : BitVec 1) (k : BitVec 3) (x : BitVec 1) (y : BitVec 1)
  /-- LDIV, R287. Log-domain divide of L32 lanes. -/
  | ldiv (d : BitVec 6) (a : BitVec 6) (b : BitVec 6) (m : BitVec 1) (k : BitVec 3) (x : BitVec 1) (y : BitVec 1)
  /-- LSH, R287. Log-domain power or root by 2^k. -/
  | lsh (d : BitVec 6) (a : BitVec 6) (r : BitVec 1) (s : BitVec 3) (m : BitVec 1) (k : BitVec 3) (x : BitVec 1)
  /-- LFN, R288. Computes exp, log, sigmoid, tanh or reciprocal square root of FP32 lanes. -/
  | lfn (d : BitVec 6) (a : BitVec 6) (i : BitVec 6) (m : BitVec 1) (k : BitVec 3) (x : BitVec 1)
  /-- VQPOP, R256. Pops a value-queue entry into every lane of vD, trapping when empty. -/
  | vqpop (d : BitVec 6) (n : BitVec 1) (h : BitVec 1)
  /-- VQPOP_PEEK, R256. Peeks at a value-queue entry, waiting when empty. -/
  | vqpopPeek (d : BitVec 6) (n : BitVec 1) (h : BitVec 1)
  /-- VQPOP_NR, R256. Not-ready pop of a value queue setting a predicate. -/
  | vqpopNr (d : BitVec 6) (n : BitVec 1) (h : BitVec 1) (p : BitVec 4)
  /-- RQPOP, R256. Pops the oldest mq, fq or cq entry into lanes 0-2. -/
  | rqpop (d : BitVec 6) (q : BitVec 2)
  /-- RQPOP_NR, R256. Not-ready pop of a result queue setting a predicate. -/
  | rqpopNr (d : BitVec 6) (q : BitVec 2) (p : BitVec 4)
  /-- KAND, R256. kD := kA AND kB. -/
  | kand (d : BitVec 3) (a : BitVec 3) (b : BitVec 3)
  /-- KOR, R256. kD := kA OR kB. -/
  | kor (d : BitVec 3) (a : BitVec 3) (b : BitVec 3)
  /-- KXOR, R256. kD := kA XOR kB. -/
  | kxor (d : BitVec 3) (a : BitVec 3) (b : BitVec 3)
  /-- KANDN, R256. kD := kA AND NOT kB. -/
  | kandn (d : BitVec 3) (a : BitVec 3) (b : BitVec 3)
  /-- KNOT, R256. kD := NOT kA. -/
  | knot (d : BitVec 3) (a : BitVec 3)
  /-- KSET, R256. Sets every bit of kD. -/
  | kset (d : BitVec 3)
  /-- KCLR, R256. Clears every bit of kD. -/
  | kclr (d : BitVec 3)
  /-- KANY, R256. pP := 1 when any bit of kA is set. -/
  | kany (p : BitVec 4) (a : BitVec 3)
  /-- KALL, R256. pP := 1 when every bit of kA is set. -/
  | kall (p : BitVec 4) (a : BitVec 3)
  /-- SSET, R256. Pops a value queue into one word of a stream record. -/
  | sset (r : BitVec 4) (w : BitVec 2) (v : BitVec 1)
  /-- SBIND, R257. Binds an input or output port to a checked copy of a stream record and FMODE. -/
  | sbind (d : BitVec 1) (p : BitVec 3) (r : BitVec 4)
  /-- SUNBIND, R257. Unbinds a port, discarding input images or draining output images. -/
  | sunbind (d : BitVec 1) (p : BitVec 3)
  /-- QRDY, R256. pP := 1 when an input port holds a ready, non-faulty image. -/
  | qrdy (p : BitVec 4) (q : BitVec 3)
  /-- X_BR, R217. Compute-sequencer branch on a predicate, in group units. -/
  | xBr (n : BitVec 1) (p : BitVec 4) (o : BitVec 21)
  /-- X_LOOP, R219. Compute-sequencer loop close. -/
  | xLoop (r : BitVec 1) (c : BitVec 2) (o : BitVec 21)
  /-- X_LCSETI, R220. Compute-sequencer loop counter set from an immediate. -/
  | xLcseti (i : BitVec 1) (c : BitVec 2) (d : BitVec 3) (n : BitVec 13)
  /-- X_TOK_PUT, R163. Compute-sequencer token put. -/
  | xTokPut (q : BitVec 3) (n : BitVec 8)
  /-- X_TOK_GET, R163. Compute-sequencer token get. -/
  | xTokGet (q : BitVec 3) (n : BitVec 8)
  /-- PHASE_BEGIN, R174. Names the phase record of the phase it begins. -/
  | phaseBegin (i : BitVec 8)
  /-- E_LOOP, R304. Load/store-sequencer loop close. -/
  | eLoop (r : BitVec 1) (c : BitVec 2) (o : BitVec 21)
  /-- E_LCSETI, R304. Load/store-sequencer loop counter set. -/
  | eLcseti (i : BitVec 1) (c : BitVec 2) (d : BitVec 3) (n : BitVec 13)
  /-- E_BR, R304. Load/store-sequencer branch on a predicate. -/
  | eBr (n : BitVec 1) (p : BitVec 4) (o : BitVec 21)
  /-- E_TOK_PUT, R163. Load/store-sequencer token put. -/
  | eTokPut (q : BitVec 3) (n : BitVec 8)
  /-- E_TOK_GET, R163. Load/store-sequencer token get. -/
  | eTokGet (q : BitVec 3) (n : BitVec 8)
  /-- TAGW_ANY, R306. Engine wait until any tag of a range is complete. -/
  | tagwAny (c : BitVec 1) (h : BitVec 6) (l : BitVec 6)
  /-- TAGW_ALL, R306. Engine wait until every tag of a range is complete. -/
  | tagwAll (c : BitVec 1) (h : BitVec 6) (l : BitVec 6)
  /-- TAGW_TST, R306. Sets a predicate when any tag of a range is complete. -/
  | tagwTst (c : BitVec 1) (p : BitVec 4) (h : BitVec 6) (l : BitVec 6)
  /-- PATCH, R200. Engine patch word: amends a staging-copy field and optionally issues the operation into its queue. -/
  | patch (s : BitVec 6) (f : BitVec 5) (v : BitVec 16) (h : BitVec 1) (q : BitVec 1) (g : BitVec 1) (c : BitVec 1)
  /-- PATCH_M, R200. M-slot patch word against the matrix template table, optionally from a value queue. -/
  | patchM (s : BitVec 6) (f : BitVec 5) (v : BitVec 16) (h : BitVec 1) (q : BitVec 1) (g : BitVec 1) (c : BitVec 1)
  /-- ACC_CLR, R300. Clears an accumulator and its flags. -/
  | accClr (a : BitVec 2)
  /-- ACC_LD, R300. Loads an accumulator from scratchpad banks through wheel slot 2. -/
  | accLd (a : BitVec 2) (f : BitVec 6) (n : BitVec 3) (o : BitVec 8)
  /-- ACC_ST, R300. Stores an accumulator to scratchpad banks, encoding by each bank's format. -/
  | accSt (a : BitVec 2) (f : BitVec 6) (n : BitVec 3) (o : BitVec 8)
  /-- ACC_MOV, R300. Copies one accumulator and its flags to another. -/
  | accMov (d : BitVec 2) (a : BitVec 2)
  /-- ACC_TOV, R300. Copies a quarter of an accumulator into a vector register. -/
  | accTov (d : BitVec 6) (a : BitVec 2) (q : BitVec 2)
  /-- ACC_FROMV, R300. Writes a quarter of an accumulator from a vector register or port. -/
  | accFromv (a : BitVec 2) (q : BitVec 2) (s : BitVec 6)
  /-- MPUSH, R302. Queues one accumulator element and its flags to mq. -/
  | mpush (a : BitVec 2) (r : BitVec 6) (c : BitVec 6) (l : BitVec 1)
  /-- MWAIT, R300. Waits until an accumulator is no longer busy. -/
  | mwait (a : BitVec 2)
  /-- NOP, R189. Scalar no-operation: advances the control sequencer's program counter and does nothing else. -/
  | nop
  /-- FENCE_CORE, R141. Fence of core scope (acknowledged as die), draining logs and closing the region. -/
  | fenceCore
  /-- FENCE_DIE, R141. Fence of die scope. -/
  | fenceDie
  /-- FENCE_PKG, R141. Fence of package scope. -/
  | fencePkg
  /-- FENCE_POD, R141. Fence of pod scope. -/
  | fencePod
  /-- FFENCE, R245. Waits for all earlier factor results and their writes, then acquires them at pod scope. -/
  | ffence
  /-- TRIGGER, R346. Releases every dependence on the issuer's launch. -/
  | trigger
  /-- YIELD, R347. Marks the task's next rendezvous as a yield. -/
  | yield
  /-- EXIT, R347. Ends the task after its work drains, unbinding it and possibly completing its launch. -/
  | exit
  /-- BRK, R357. Raises BREAKPOINT. -/
  | brk
  /-- TRET, R356. Returns from a handler, exchanging the supervisor bank and restoring mode, world and program counters. -/
  | tret
  /-- WDSVC, R357. Clears WDCNT. -/
  | wdsvc
  /-- INVAL_ALL, R31. Invalidates all cached translation entries. -/
  | invalAll
  /-- V_NOP, R193. V-slot no-operation. -/
  | vNop
  /-- X_NOP, R194. X-slot no-operation. -/
  | xNop
  /-- SWAP, R171. Compute sequencer reaches its swap after retirement waits. -/
  | swap
  /-- X_YIELD, R181. Compute-sequencer swap that also offers the core. -/
  | xYield
  /-- E_NOP, R196. Engine-word no-operation. -/
  | eNop
  /-- E_SWAP, R171. Load or store sequencer reaches its swap. -/
  | eSwap
  /-- E_YIELD, R181. Load or store sequencer swap that offers the core. -/
  | eYield
  /-- M_NOP, R194. M-slot no-operation. -/
  | mNop
  /-- MWAIT_ALL, R300. Waits until every accumulator is no longer busy. -/
  | mwaitAll
  /-- ARRIVE, R311. Queued arrive operation starts: reads tensor tiles and sends packets to the own core wharf. -/
  | arrive
  /-- GATHER, R311. Queued gather starts: reads indexed tensor rows and sends them to the own core wharf. -/
  | gather
  /-- DEPART, R311. Queued depart starts: reads a source bank region and sends packets to a named wharf. -/
  | depart
  /-- MCAST, R311. Queued multicast starts: reads a region once and sends it to the masked cores' wharves. -/
  | mcast
  /-- RELAY, R311. Queued relay starts: sends a region's packets to the own wharf by loopback. -/
  | relay
  /-- FILL, R311. Queued fill starts: sends packets whose every element is VAL. -/
  | fill
  /-- MAP_INSTALL, R315. Map install operation reads its record and is scheduled to make a free slot LIVE at a wharf boundary. -/
  | mapInstall
  /-- MAP_SWAP, R315. Map swap operation retires one slot and installs a record in another at one boundary. -/
  | mapSwap
  /-- MAP_RETIRE, R315. Map retire operation makes a LIVE slot RETIRING at a boundary. -/
  | mapRetire
  /-- MAP_QUERY, R315. Map query reads a slot's state, BOUND and SHADOW and pushes them to cq. -/
  | mapQuery
  /-- RING_INIT, R316. Ring initialisation checks and writes a ring descriptor when its wait ends. -/
  | ringInit
  /-- ALLGATHER, R319. Collective go: registers and arrives in the group epoch for an all-gather. -/
  | allgather
  /-- REDSCAT, R319. Collective go for a reduce-scatter. -/
  | redscat
  /-- ALLRED, R319. Collective go for an all-reduce. -/
  | allred
  /-- BCAST, R319. Collective go for a broadcast. -/
  | bcast
  /-- PERMUTE, R319. Collective go for a permute. -/
  | permute
  /-- MMA, R293. Matrix operation starts on the engine in go order. -/
  | mma
  /-- MMA_K_STEP, R295. One K step begins once both tiles are ready and adds one rounded product into the accumulator. -/
  | mmaKStep
  /-- MMA_RETIRE, R293. Matrix operation retires 16 cycles after its last step, popping ring tiles. -/
  | mmaRetire
  /-- PACKET_HEADER, R97. A packet header is taken into matching at a wharf and binds maps or enters the hold. -/
  | packetHeader
  /-- PACKET_BEAT, R99. A data beat is accepted and landed by each bound map. -/
  | packetBeat
  /-- PACKET_ANSWER, R92. A packet's LANDED or DISCARDED answer reaches its sender. -/
  | packetAnswer
  /-- COPY_COMPLETE, R313. A copy's tag completes once every packet is answered, pushing a record when asked. -/
  | copyComplete
  /-- HOLD_TIMEOUT, R102. A held packet's hold time expires; it is dropped or refused with an unlanded record. -/
  | holdTimeout
  /-- MAP_BOUNDARY, R106. At a wharf cycle boundary pending map operations take effect and held packets are rematched. -/
  | mapBoundary
  /-- PORT_ROW_READ, R258. Input-port run-ahead reads one row access through wheel slot 3. -/
  | portRowRead
  /-- PORT_ROW_WRITE, R259. Output-port writes one image row through wheel slot 4. -/
  | portRowWrite
  /-- OVERFLOW_LOG_DRAIN, R69. One overflow record drains to the log page in a cycle with no control issue. -/
  | overflowLogDrain
  /-- UNLANDED_LOG_DRAIN, R105. One unlanded record drains to the ULOG page. -/
  | unlandedLogDrain
  /-- MWULOG_DRAIN, R105. One memory-wharf unlanded record drains to the MWULOG page. -/
  | mwulogDrain
  /-- TRANSLATION_WALK, R23. A translation miss walks the page table and fills the cache or faults. -/
  | translationWalk
  /-- HOME_ACCESS, R138. A load, store or atomic request arrives at its home and is checked and performed. -/
  | homeAccess
  /-- LOAD_RETURN, R233. A load's value returns and is written to its register. -/
  | loadReturn
  /-- STORE_QUEUE_DEPART, R140. A store leaves the store queue once earlier loads have values and earlier stores are acknowledged. -/
  | storeQueueDepart
  /-- STORE_ACK, R118. A store's acknowledgement reaches its requester. -/
  | storeAck
  /-- TIMED_STORE_ARRIVAL, R128. A timed store arrives at its home and is judged on time or late. -/
  | timedStoreArrival
  /-- TIMED_STORE_DUE, R128. A buffered timed store is performed when the home clock reaches its due time. -/
  | timedStoreDue
  /-- NOT_BEFORE_PERFORM, R129. A waiting not-before load is performed once the home clock reaches n. -/
  | notBeforePerform
  /-- PIN_AT_HOME, R38. A tensor pin is performed at the entry's home, answering BOUND or STALE. -/
  | pinAtHome
  /-- UNPIN_AT_HOME, R40. An unpin decrements PIN and finishes a pending release at zero. -/
  | unpinAtHome
  /-- FACTOR_AT_HOME, R243. A factor operation packet is performed indivisibly at its home. -/
  | factorAtHome
  /-- FACTOR_RESULT, R244. A factor result enters fq in issue order. -/
  | factorResult
  /-- SWAP_RENDEZVOUS, R171. The last of the three sequencers reaches its swap: phase check, then commit or cancellation. -/
  | swapRendezvous
  /-- TASK_SAVE, R364. After engines and timed accesses settle, saves the task's context to a frame and parks it. -/
  | taskSave
  /-- SELECTION_ROUND, R336. Every 16 ticks the arbiter admits launches and selects work for free cores. -/
  | selectionRound
  /-- BIND_TASK, R338. The dispatcher takes a record, writes context and zeroes the scratchpad of a selected core. -/
  | bindTask
  /-- TASK_START, R162. After binding, the four sequencers begin in the same cycle. -/
  | taskStart
  /-- ASYNC_CAUSE, R350. An asynchronous cause is raised at a sequencer's issue boundary. -/
  | asyncCause
  /-- WATCHDOG_EXPIRY, R182. WDCNT exceeds 1,048,576 and raises WATCHDOG. -/
  | watchdogExpiry
  /-- CORRECTABLE_FREEZE, R87. A corrected error in a core store freezes the core for 24 cycles. -/
  | correctableFreeze
  /-- FREEZE_END, R87. A freeze's 24 cycles end and the core resumes. -/
  | freezeEnd
  /-- UNCORRECTABLE_ERROR, R361. An uncorrectable error is detected and poisoned, dropped or escalated. -/
  | uncorrectableError
  /-- CONTAINED_STOP, R365. Every core stops and all work in flight is discarded. -/
  | containedStop
  /-- LEAVE_GRANT, R405. The die governor grants a waiting phase its power leave. -/
  | leaveGrant
  /-- LEAVE_TIMEOUT, R405. A leave request not granted within 10 ms raises LEAVE_TIMEOUT. -/
  | leaveTimeout
  /-- THROTTLE_STEP, R406. The governor lowers or raises a die's arithmetic clock by 100 MHz. -/
  | throttleStep
  /-- THERMAL_STOP, R406. A die above its temperature limit at 1.0 GHz for 4,000,000 ticks causes a contained stop. -/
  | thermalStop
  /-- CLOCK_TICK, R124. The architected tick counter advances by one. -/
  | clockTick
  /-- SYNC_MESSAGE, R126. An IEEE 1588 synchronisation message updates the offset bound and lock state. -/
  | syncMessage
  /-- LOCK_LOSS, R126. Sixteen intervals pass without a valid synchronisation message and the chip loses lock. -/
  | lockLoss
  /-- RESET, R400. Power-on or PCIe fundamental reset runs the bring-up steps. -/
  | reset
  /-- PKGRST_WRITE, R403. A PKGRST write with the code starts a package reset. -/
  | pkgrstWrite
  /-- CLKINIT_WRITE, R402. The first CLKINIT write starts every die's tick counter. -/
  | clkinitWrite
  /-- LINK_LOST, R365. A die-to-die or hub link is lost, bringing a contained stop. -/
  | linkLost
  /-- DIE_LOST, R365. A die is lost, bringing a contained stop. -/
  | dieLost
  /-- REPLAY_EXHAUSTED, R365. A die-to-die or hub link exhausts its replays, bringing a contained stop. -/
  | replayExhausted
  /-- CFGDATA_READ, R13. Reading CFGDATA performs an 8-byte configuration read at CFGADDR. -/
  | cfgdataRead
  /-- CFGDATA_WRITE, R13. Writing CFGDATA performs an 8-byte configuration write at CFGADDR. -/
  | cfgdataWrite
  /-- BANKFMT_WRITE, R64. A BANKFMT write becomes pending and stalls the control sequencer. -/
  | bankfmtWrite
  /-- BANKFMT_EFFECT, R64. A pending BANKFMT write takes effect once no operation references the bank. -/
  | bankfmtEffect
  /-- RINGDESC_WRITE, R77. A supervisor write replaces a ring descriptor whole after checks. -/
  | ringdescWrite
  /-- DBUF_WRITE, R172. A DBUF write declares a double buffer after alignment, overlap and in-flight checks. -/
  | dbufWrite
  /-- BOEXP_WRITE, R108. A BOEXP write arms a barrier object and makes its tag pending. -/
  | boexpWrite
  /-- TAGS_WRITE, R81. A TAGS write clears complete tags whose bits are 1. -/
  | tagsWrite
  /-- REGISTER_WRITE, R10. A write to a register with no behaviour of its own, under its access and reserved-field rules. -/
  | registerWrite
  /-- ILV_FLIP, R119. Writing FLIP makes the other interleave version current. -/
  | ilvFlip
  /-- ILV_DRAINED, R120. OLDCNT reaches zero and BUSY falls, freeing the old version. -/
  | ilvDrained
  /-- TDM_SWITCH, R113. Staged time-division table writes take effect at a revolution boundary. -/
  | tdmSwitch
  /-- LQCMD_GO, R333. The host submits a launch descriptor to a launch queue. -/
  | lqcmdGo
  /-- RESUME_WRITE, R340. A RESUME write makes a parked task ready to resume. -/
  | resumeWrite
  /-- PREQ_WRITE, R364. Requests pre-emption of the named cores' tasks. -/
  | preqWrite
  /-- DHALT_WRITE, R367. Requests debug halts of the named cores' tasks. -/
  | dhaltWrite
  /-- SGCTL_GO, R373. Starts a personality change: quiesce then drain of a SerDes group. -/
  | sgctlGo
  /-- GROUP_DRAIN_END, R373. A group's drain ends when PEND is zero or 400,000 ticks pass. -/
  | groupDrainEnd
  /-- GROUP_RETRAIN_END, R372. A group's lane training ends at some rate and width or fails. -/
  | groupRetrainEnd
  /-- GROUP_REKEY_END, R373. A group's link keys come into force and it goes up. -/
  | groupRekeyEnd
  /-- GROUP_RATE_FALL, R372. Excess replays make an up group retrain at half rate. -/
  | groupRateFall
  /-- WINDOW_STALL_TIMEOUT, R374. A pool access stalled 400,000 ticks without a window is refused WINDOW_CLOSED. -/
  | windowStallTimeout
  /-- FABRIC_TIMEOUT, R378. A peer or pool request unanswered after FABTO ticks is refused. -/
  | fabricTimeout
  /-- PEER_WINDOW_PACKET, R379. A packet arrives at the peer landing window and is admitted, discarded or refused. -/
  | peerWindowPacket
  /-- MIGCMD_GO, R381. Starts a page migration move. -/
  | migcmdGo
  /-- MIGRATION_RETIRE, R382. A move ends once old leaves are dropped and bound accesses performed. -/
  | migrationRetire
  /-- CKCTL_GO, R384. Starts a checkpoint of marked regions to a safe tier. -/
  | ckctlGo
  /-- CHECKPOINT_END, R384. A checkpoint finishes or ends short. -/
  | checkpointEnd
  /-- RWCMD_GO, R393. Starts changing a region's world, stopping admission. -/
  | rwcmdGo
  /-- REGION_WORLD_APPLY, R393. After admitted accesses drain, scrubs if needed and sets the region's world. -/
  | regionWorldApply
  /-- KEY_LOAD, R394. KSCMD load: loads a key slot from KSKEY after draining its accesses. -/
  | keyLoad
  /-- KEY_ERASE, R394. KSCMD erase: clears a key slot after draining its accesses. -/
  | keyErase
  /-- KEY_SWITCH_SCHEDULE, R383. A write of SGKT schedules a link key switch at time t. -/
  | keySwitchSchedule
  /-- KEY_PHASE_SWITCH, R383. At local CLK t, transmitted flits take the new key phase. -/
  | keyPhaseSwitch
  /-- OLD_KEY_ERASE, R383. At t + A the receiver erases the old key and flips KPH. -/
  | oldKeyErase
  /-- SPDM_MESSAGE, R388. An SPDM request over DOE is answered, signed by the  key. -/
  | spdmMessage
  /-- LOCK_INTERFACE, R391. TDISP LOCK_INTERFACE locks a TDI's configuration and binds its IDE stream. -/
  | lockInterface
  /-- STOP_INTERFACE, R391. TDISP STOP_INTERFACE takes a TDI out of RUN, unlocking its registers. -/
  | stopInterface
  /-- HOST_REQUEST, R392. A host request arrives and is accepted only in the bound IDE stream. -/
  | hostRequest
  /-- COLLECTIVE_COMPLETE, R325. A collective completes when every landing of every party has been performed; each party's tag is set and its record pushed. -/
  | collectiveComplete
  /-- START_INTERFACE, R391. The TDISP START_INTERFACE request moves a locked TDI from CONFIG_LOCKED to RUN. -/
  | startInterface
  /-- FIRST_FLIT_UNDER_NEW_SET, R383. The first received flit under a CXL group's new IDE key set ends acceptance of the old set. -/
  | firstFlitUnderNewSet
  /-- POWER_REMOVED, R407. Removal of module power loses every state but fuses and flash. -/
  | powerRemoved
deriving DecidableEq, Repr

end Sys2Proof
end

