-- ==== Sys2Proof/Decode.lean ====
section
/-! DEFINITION. The decoder of every opcode space (R188 to R200), total on any word and rejecting by the causes of
R187, and the encoder written from the same encoding tables. -/
namespace Sys2Proof

/-- The four sequencers of a core, numbered 0 to 3 in this order (R161). -/
inductive Seq where
  | load
  | compute
  | store
  | control
deriving DecidableEq, Repr

/-- An opcode space: the sequencer or slot a word is fetched for (R188 to R196). -/
inductive Space where
  | control
  | load
  | store
  | v0
  | v1
  | m
  | x
deriving DecidableEq, Repr

/-- The decode causes of R187, orders 1 to 3. -/
inductive DecodeFault where
  | illegal
  | reservedBits
  | badRegister
deriving DecidableEq, Repr

/-- What a V-slot word's fields name (R192, R261, R275). -/
inductive DKind where
  | reg
  | regRead
  | selReg
  | mask
  | dir
deriving DecidableEq, Repr

/-- What a source field of a V-slot word names. -/
inductive SKind where
  | vec
  | dir
  | imm
  | none
deriving DecidableEq, Repr

/-- The operand fields of a V-slot word. -/
structure VForm where
  dk : DKind
  ak : SKind
  bk : SKind
  d : BitVec 6
  a : BitVec 6
  b : BitVec 6
  men : Bool
  k : BitVec 3
  ha : Bool
  hb : Bool
  hc : Bool
deriving DecidableEq, Repr

/-- The operand form of a V-slot instruction. -/
def vform : Instr → Option VForm
  | .vFadd d a b m k x y => some ⟨.reg, .vec, .vec, d, a, b, m == 1#1, k, x == 1#1, y == 1#1, false⟩
  | .vFsub d a b m k x y => some ⟨.reg, .vec, .vec, d, a, b, m == 1#1, k, x == 1#1, y == 1#1, false⟩
  | .vFmul d a b m k x y => some ⟨.reg, .vec, .vec, d, a, b, m == 1#1, k, x == 1#1, y == 1#1, false⟩
  | .vFma d a b m k x y z => some ⟨.regRead, .vec, .vec, d, a, b, m == 1#1, k, x == 1#1, y == 1#1, z == 1#1⟩
  | .vFms d a b m k x y z => some ⟨.regRead, .vec, .vec, d, a, b, m == 1#1, k, x == 1#1, y == 1#1, z == 1#1⟩
  | .vFmin d a b m k x y => some ⟨.reg, .vec, .vec, d, a, b, m == 1#1, k, x == 1#1, y == 1#1, false⟩
  | .vFmax d a b m k x y => some ⟨.reg, .vec, .vec, d, a, b, m == 1#1, k, x == 1#1, y == 1#1, false⟩
  | .vFabs d a m k x => some ⟨.reg, .vec, .none, d, a, 0, m == 1#1, k, x == 1#1, false, false⟩
  | .vFneg d a m k x => some ⟨.reg, .vec, .none, d, a, 0, m == 1#1, k, x == 1#1, false, false⟩
  | .vFcmpEq d a b m k x y => some ⟨.mask, .vec, .vec, d, a, b, m == 1#1, k, x == 1#1, y == 1#1, false⟩
  | .vFcmpLt d a b m k x y => some ⟨.mask, .vec, .vec, d, a, b, m == 1#1, k, x == 1#1, y == 1#1, false⟩
  | .vFcmpLe d a b m k x y => some ⟨.mask, .vec, .vec, d, a, b, m == 1#1, k, x == 1#1, y == 1#1, false⟩
  | .vFcmpUn d a b m k x y => some ⟨.mask, .vec, .vec, d, a, b, m == 1#1, k, x == 1#1, y == 1#1, false⟩
  | .vAdd d a b m k x y => some ⟨.reg, .vec, .vec, d, a, b, m == 1#1, k, x == 1#1, y == 1#1, false⟩
  | .vSub d a b m k x y => some ⟨.reg, .vec, .vec, d, a, b, m == 1#1, k, x == 1#1, y == 1#1, false⟩
  | .vMul d a b m k x y => some ⟨.reg, .vec, .vec, d, a, b, m == 1#1, k, x == 1#1, y == 1#1, false⟩
  | .vMulh d a b m k x y => some ⟨.reg, .vec, .vec, d, a, b, m == 1#1, k, x == 1#1, y == 1#1, false⟩
  | .vAdds d a b m k x y => some ⟨.reg, .vec, .vec, d, a, b, m == 1#1, k, x == 1#1, y == 1#1, false⟩
  | .vSubs d a b m k x y => some ⟨.reg, .vec, .vec, d, a, b, m == 1#1, k, x == 1#1, y == 1#1, false⟩
  | .vAnd d a b m k x y => some ⟨.reg, .vec, .vec, d, a, b, m == 1#1, k, x == 1#1, y == 1#1, false⟩
  | .vOr d a b m k x y => some ⟨.reg, .vec, .vec, d, a, b, m == 1#1, k, x == 1#1, y == 1#1, false⟩
  | .vXor d a b m k x y => some ⟨.reg, .vec, .vec, d, a, b, m == 1#1, k, x == 1#1, y == 1#1, false⟩
  | .vShl d a b m k x y => some ⟨.reg, .vec, .vec, d, a, b, m == 1#1, k, x == 1#1, y == 1#1, false⟩
  | .vShr d a b m k x y => some ⟨.reg, .vec, .vec, d, a, b, m == 1#1, k, x == 1#1, y == 1#1, false⟩
  | .vSra d a b m k x y => some ⟨.reg, .vec, .vec, d, a, b, m == 1#1, k, x == 1#1, y == 1#1, false⟩
  | .vMin d a b m k x y => some ⟨.reg, .vec, .vec, d, a, b, m == 1#1, k, x == 1#1, y == 1#1, false⟩
  | .vMax d a b m k x y => some ⟨.reg, .vec, .vec, d, a, b, m == 1#1, k, x == 1#1, y == 1#1, false⟩
  | .vMinu d a b m k x y => some ⟨.reg, .vec, .vec, d, a, b, m == 1#1, k, x == 1#1, y == 1#1, false⟩
  | .vMaxu d a b m k x y => some ⟨.reg, .vec, .vec, d, a, b, m == 1#1, k, x == 1#1, y == 1#1, false⟩
  | .vDiv d a b m k x y => some ⟨.reg, .vec, .vec, d, a, b, m == 1#1, k, x == 1#1, y == 1#1, false⟩
  | .vDivu d a b m k x y => some ⟨.reg, .vec, .vec, d, a, b, m == 1#1, k, x == 1#1, y == 1#1, false⟩
  | .vRem d a b m k x y => some ⟨.reg, .vec, .vec, d, a, b, m == 1#1, k, x == 1#1, y == 1#1, false⟩
  | .vRemu d a b m k x y => some ⟨.reg, .vec, .vec, d, a, b, m == 1#1, k, x == 1#1, y == 1#1, false⟩
  | .vIcmpEq d a b m k x y => some ⟨.mask, .vec, .vec, d, a, b, m == 1#1, k, x == 1#1, y == 1#1, false⟩
  | .vIcmpLt d a b m k x y => some ⟨.mask, .vec, .vec, d, a, b, m == 1#1, k, x == 1#1, y == 1#1, false⟩
  | .vIcmpLtu d a b m k x y => some ⟨.mask, .vec, .vec, d, a, b, m == 1#1, k, x == 1#1, y == 1#1, false⟩
  | .vShli d a i m k x => some ⟨.reg, .vec, .imm, d, a, i, m == 1#1, k, x == 1#1, false, false⟩
  | .vShri d a i m k x => some ⟨.reg, .vec, .imm, d, a, i, m == 1#1, k, x == 1#1, false, false⟩
  | .vSrai d a i m k x => some ⟨.reg, .vec, .imm, d, a, i, m == 1#1, k, x == 1#1, false, false⟩
  | .vWmacS8 d a b m k x y z => some ⟨.regRead, .vec, .vec, d, a, b, m == 1#1, k, x == 1#1, y == 1#1, z == 1#1⟩
  | .vWmacU8 d a b m k x y z => some ⟨.regRead, .vec, .vec, d, a, b, m == 1#1, k, x == 1#1, y == 1#1, z == 1#1⟩
  | .vWmacS16 d a b m k x y z => some ⟨.regRead, .vec, .vec, d, a, b, m == 1#1, k, x == 1#1, y == 1#1, z == 1#1⟩
  | .vWmacU16 d a b m k x y z => some ⟨.regRead, .vec, .vec, d, a, b, m == 1#1, k, x == 1#1, y == 1#1, z == 1#1⟩
  | .vWmacS8Sat d a b m k x y z => some ⟨.regRead, .vec, .vec, d, a, b, m == 1#1, k, x == 1#1, y == 1#1, z == 1#1⟩
  | .vWmacU8Sat d a b m k x y z => some ⟨.regRead, .vec, .vec, d, a, b, m == 1#1, k, x == 1#1, y == 1#1, z == 1#1⟩
  | .vWmacS16Sat d a b m k x y z => some ⟨.regRead, .vec, .vec, d, a, b, m == 1#1, k, x == 1#1, y == 1#1, z == 1#1⟩
  | .vWmacU16Sat d a b m k x y z => some ⟨.regRead, .vec, .vec, d, a, b, m == 1#1, k, x == 1#1, y == 1#1, z == 1#1⟩
  | .vsel d a b k x y => some ⟨.selReg, .vec, .vec, d, a, b, true, k, x == 1#1, y == 1#1, false⟩
  | .vptst d a m k x => some ⟨.mask, .vec, .none, d, a, 0, m == 1#1, k, x == 1#1, false, false⟩
  | .vmov d a m k x => some ⟨.reg, .vec, .none, d, a, 0, m == 1#1, k, x == 1#1, false, false⟩
  | .cvtTo d a f m k x => some ⟨.reg, .vec, .imm, d, a, f, m == 1#1, k, x == 1#1, false, false⟩
  | .cvtFrom d a f m k x => some ⟨.reg, .vec, .imm, d, a, f, m == 1#1, k, x == 1#1, false, false⟩
  | .cvtIto d a f m k x => some ⟨.reg, .vec, .imm, d, a, f, m == 1#1, k, x == 1#1, false, false⟩
  | .vrotR d a i m k x => some ⟨.reg, .vec, .imm, d, a, i, m == 1#1, k, x == 1#1, false, false⟩
  | .vrotC d a i m k x => some ⟨.reg, .vec, .imm, d, a, i, m == 1#1, k, x == 1#1, false, false⟩
  | .vbcc d a i m k x => some ⟨.reg, .vec, .imm, d, a, i, m == 1#1, k, x == 1#1, false, false⟩
  | .vbcr d a i m k x => some ⟨.reg, .vec, .imm, d, a, i, m == 1#1, k, x == 1#1, false, false⟩
  | .vredR d a i m k x => some ⟨.reg, .vec, .imm, d, a, i, m == 1#1, k, x == 1#1, false, false⟩
  | .vredC d a i m k x => some ⟨.reg, .vec, .imm, d, a, i, m == 1#1, k, x == 1#1, false, false⟩
  | .vscanR d a i m k x => some ⟨.reg, .vec, .imm, d, a, i, m == 1#1, k, x == 1#1, false, false⟩
  | .vscanC d a i m k x => some ⟨.reg, .vec, .imm, d, a, i, m == 1#1, k, x == 1#1, false, false⟩
  | .dnorm d a x => some ⟨.dir, .vec, .none, d, a, 0, false, 0, x == 1#1, false, false⟩
  | .dexp d a m k => some ⟨.reg, .dir, .none, d, a, 0, m == 1#1, k, false, false, false⟩
  | .ddot d a b m k => some ⟨.reg, .dir, .dir, d, a, b, m == 1#1, k, false, false, false⟩
  | .ddotn d a b m k => some ⟨.reg, .dir, .dir, d, a, b, m == 1#1, k, false, false, false⟩
  | .dadd d a b => some ⟨.dir, .dir, .dir, d, a, b, false, 0, false, false, false⟩
  | .dsub d a b => some ⟨.dir, .dir, .dir, d, a, b, false, 0, false, false, false⟩
  | .dscl d a b y => some ⟨.dir, .dir, .vec, d, a, b, false, 0, false, y == 1#1, false⟩
  | .dscli d a i => some ⟨.dir, .dir, .imm, d, a, i, false, 0, false, false, false⟩
  | .dtst d a i => some ⟨.mask, .dir, .imm, d, a, i, false, 0, false, false, false⟩
  | .dcomp d a m k => some ⟨.reg, .dir, .none, d, a, 0, m == 1#1, k, false, false, false⟩
  | .dnget d a m k => some ⟨.reg, .dir, .none, d, a, 0, m == 1#1, k, false, false, false⟩
  | .lcvt d a i m k x => some ⟨.reg, .vec, .imm, d, a, i, m == 1#1, k, x == 1#1, false, false⟩
  | .lmul d a b m k x y => some ⟨.reg, .vec, .vec, d, a, b, m == 1#1, k, x == 1#1, y == 1#1, false⟩
  | .ldiv d a b m k x y => some ⟨.reg, .vec, .vec, d, a, b, m == 1#1, k, x == 1#1, y == 1#1, false⟩
  | .lsh d a r s m k x => some ⟨.reg, .vec, .imm, d, a, r ++ 0#2 ++ s, m == 1#1, k, x == 1#1, false, false⟩
  | .lfn d a i m k x => some ⟨.reg, .vec, .imm, d, a, i, m == 1#1, k, x == 1#1, false, false⟩
  | _ => none

/-- A CSR number that R224 assigns. -/
def csrAssigned (n : BitVec 12) : Bool :=
  let k := n.toNat
  k ≤ 0x1E || (0x40 ≤ k && k ≤ 0x97) || (0xA0 ≤ k && k ≤ 0xCF)

/-- Format codes that cvt.to and cvt.from accept (R267). -/
def cvtFormat (f : BitVec 6) : Bool := f.toNat ≤ 9 || (19 ≤ f.toNat && f.toNat ≤ 21)

/-- A mode, selector, immediate or number that the encoding table marks illegal (R187 order 1). A word with MEN = 1 whose D is an output port
is illegal by R249; where D is also read, or is that of vsel (fma, fms, wmac, vsel), R261 gives BAD_REGISTER for the port: there it raises
that, by the model's choice (log entry 78). -/
def Instr.illegalField (i : Instr) : Bool :=
  (match vform i with
    | some f => f.men && f.dk == .reg && (48 ≤ f.d.toNat && f.d.toNat ≤ 51)
    | none => false) ||
  match i with
  | .ldx _ _ _ s _ => s == 3#2
  | .sld _ _ m _ _ _ => m == 3#2
  | .sldx _ _ m s _ _ => m == 3#2 || s == 3#2
  | .sst _ _ m _ _ _ => m == 3#2
  | .stDue _ _ c _ _ _ _ => c == 3#2
  | .ldNb _ _ c s x _ => c == 3#2 || (x == 1#1 && s == 3#2)
  | .amoAdd _ _ _ _ c _ => c == 3#2
  | .amoAnd _ _ _ _ c _ => c == 3#2
  | .amoOr _ _ _ _ c _ => c == 3#2
  | .amoXor _ _ _ _ c _ => c == 3#2
  | .amoMin _ _ _ _ c _ => c == 3#2
  | .amoMax _ _ _ _ c _ => c == 3#2
  | .amoMinu _ _ _ _ c _ => c == 3#2
  | .amoMaxu _ _ _ _ c _ => c == 3#2
  | .amoSwap _ _ _ _ c _ => c == 3#2
  | .amoCas _ _ _ _ c _ => c == 3#2
  | .csrr _ c => !csrAssigned c
  | .csrw _ c => !csrAssigned c
  | .csrs _ _ c => !csrAssigned c
  | .csrc _ _ c => !csrAssigned c
  | .csrrw _ _ c => !csrAssigned c
  | .tmplLd t _ _ _ => t == 3#2
  | .vShli _ _ i _ _ _ => 31 < i.toNat
  | .vShri _ _ i _ _ _ => 31 < i.toNat
  | .vSrai _ _ i _ _ _ => 31 < i.toNat
  | .cvtTo _ _ f _ _ _ => !cvtFormat f
  | .cvtFrom _ _ f _ _ _ => !cvtFormat f
  | .cvtIto _ _ f _ _ _ => !(f == 8 || f == 9 || f == 19 || f == 20 || f == 21)
  | .vrotC _ _ i _ _ _ => 15 < i.toNat
  | .vbcr _ _ i _ _ _ => 15 < i.toNat
  | .vredR _ _ i _ _ _ => 5 < i.toNat
  | .vredC _ _ i _ _ _ => 5 < i.toNat
  | .vscanR _ _ i _ _ _ => 5 < i.toNat
  | .vscanC _ _ i _ _ _ => 5 < i.toNat
  | .dtst _ _ i => 3 < i.toNat
  | .lcvt _ _ i _ _ _ => 1 < i.toNat
  | .lfn _ _ i _ _ _ => 4 < i.toNat
  | .sset _ w _ => w == 3#2
  | _ => false

/-- A field whose use makes it reserved and that is not zero (R187 order 2). -/
def Instr.reservedField (i : Instr) : Bool :=
  (match vform i with
    | some f => !f.men && f.k != 0
    | none => false) ||
  match i with
  | .sld _ _ m _ r _ => m != 2#2 && r != 0
  | .sldx _ _ m _ r _ => m != 2#2 && r != 0
  | .sst _ _ m _ r _ => m != 2#2 && r != 0
  | .stDue _ _ _ _ l _ g => l == 0#1 && g != 0
  | .patch _ _ v _ q g c => (c == 1#1 && g == 0#1) || (q == 1#1 && v.extractLsb' 2 14 != 0)
  | .patchM _ _ v _ q g c => (c == 1#1 && g == 0#1) || (q == 1#1 && v.extractLsb' 2 14 != 0)
  | _ => false

/-- The sequencer that issues the words of an opcode space. -/
def Space.seq : Space → Seq
  | .control => .control
  | .load => .load
  | .store => .store
  | _ => .compute

/-- The producer of token queue `q` (R163). -/
def tokProducer (q : BitVec 3) : Seq :=
  match q.toNat with
  | 0 => .load
  | 1 => .compute
  | 2 => .compute
  | 3 => .store
  | 4 => .control
  | 5 => .control
  | 6 => .compute
  | _ => .store

/-- The consumer of token queue `q` (R163). -/
def tokConsumer (q : BitVec 3) : Seq :=
  match q.toNat with
  | 0 => .compute
  | 1 => .load
  | 2 => .store
  | 3 => .compute
  | 4 => .load
  | 5 => .store
  | 6 => .control
  | _ => .control

/-- An address register code beyond a15 (R190). -/
def badA (a : BitVec 5) : Bool := 15 < a.toNat

/-- A destination code of a V-slot word that names nothing (R192, R261, R275). -/
def badDest (k : DKind) (d : BitVec 6) : Bool :=
  match k with
  | .reg => !(d.toNat ≤ 51 || d.toNat == 63)
  | .regRead => 47 < d.toNat
  | .selReg => 47 < d.toNat
  | .mask => 7 < d.toNat
  | .dir => 15 < d.toNat

/-- A source code of a V-slot word that names nothing. -/
def badSource (k : SKind) (a : BitVec 6) : Bool :=
  match k with
  | .vec => 55 < a.toNat
  | .dir => 15 < a.toNat
  | .imm => false
  | .none => false

/-- A register field that names a number its class does not have, or a queue or port that the sequencer may not use
(R187 order 3, R190). -/
def Instr.badRegister (sp : Space) (i : Instr) : Bool :=
  (match vform i with
    | some f => badDest f.dk f.d || badSource f.ak f.a || badSource f.bk f.b
    | none => false) ||
  match i with
  | .aset d _ _ => badA d
  | .aadd d a _ => badA d || badA a
  | .asub _ a b => badA a || badA b
  | .alo _ a => badA a
  | .ahi _ a => badA a
  | .aand d a _ => badA d || badA a
  | .amov d a => badA d || badA a
  | .aaddi d a _ => badA d || badA a
  | .acmpEq _ a b => badA a || badA b
  | .acmpLtu _ a b => badA a || badA b
  | .asel d a b _ _ => badA d || badA a || badA b
  | .jmp a => badA a
  | .callr a => badA a
  | .ld _ a _ _ _ => badA a
  | .ldx _ a _ _ _ => badA a
  | .st _ a _ _ _ => badA a
  | .sld _ a _ _ _ _ => badA a
  | .sldx _ a _ _ _ _ => badA a
  | .sst _ a _ _ _ _ => badA a
  | .stDue _ a _ _ _ _ _ => badA a
  | .ldNb _ a _ _ _ _ => badA a
  | .amoAdd _ a _ _ _ _ => badA a
  | .amoAnd _ a _ _ _ _ => badA a
  | .amoOr _ a _ _ _ _ => badA a
  | .amoXor _ a _ _ _ _ => badA a
  | .amoMin _ a _ _ _ _ => badA a
  | .amoMax _ a _ _ _ _ => badA a
  | .amoMinu _ a _ _ _ _ => badA a
  | .amoMaxu _ a _ _ _ _ => badA a
  | .amoSwap _ a _ _ _ _ => badA a
  | .amoCas _ a _ _ _ _ => badA a
  | .sealPage a => badA a
  | .unsealPage a => badA a
  | .clmq _ a => badA a
  | .fopCas2 a _ => badA a
  | .fopCas4 a _ => badA a
  | .fopEnq a _ => badA a
  | .fopChase _ a _ => badA a
  | .fopProg _ a _ _ => badA a
  | .fpop d s => d == s && d != 0
  | .fpopNr d _ s => d == s && d != 0
  | .tokPut q _ => decide (tokProducer q ≠ sp.seq)
  | .tokGet q _ => decide (tokConsumer q ≠ sp.seq)
  | .join _ a => badA a
  | .leave a => badA a
  | .barArrive _ a => badA a
  | .barWait a _ => badA a
  | .dissolve a => badA a
  | .launch _ a _ => badA a
  | .rpop d _ => !(d == 8 || d == 16 || d == 24)
  | .rpush a => !(a == 8 || a == 16 || a == 24)
  | .locq _ a => badA a
  | .locqT _ a => a.toNat % 2 == 1 || 28 < a.toNat
  | .invalVa a _ => badA a
  | .vqpop d _ _ => 47 < d.toNat
  | .vqpopPeek d _ _ => 47 < d.toNat
  | .vqpopNr d _ _ _ => 47 < d.toNat
  | .rqpop d q => 47 < d.toNat || q == 3#2
  | .rqpopNr d q _ => 47 < d.toNat || q == 3#2
  | .sset r _ _ => 11 < r.toNat
  | .sbind d p r => 11 < r.toNat || (d == 1#1 && 3 < p.toNat)
  | .sunbind d p => d == 1#1 && 3 < p.toNat
  | .xTokPut q _ => decide (tokProducer q ≠ sp.seq)
  | .xTokGet q _ => decide (tokConsumer q ≠ sp.seq)
  | .eTokPut q _ => decide (tokProducer q ≠ sp.seq)
  | .eTokGet q _ => decide (tokConsumer q ≠ sp.seq)
  | .patch _ _ _ _ q _ _ => q == 1#1
  | .accTov d _ _ => 47 < d.toNat
  | .accFromv _ _ s => 55 < s.toNat
  | _ => false

/-- Bits `lo` to `lo + n - 1` of a word. -/
def bits {v : Nat} (w : BitVec v) (lo n : Nat) : BitVec n := w.extractLsb' lo n

/-- What a word names: whether its reserved fields are zero, whether the fields whose use raises BAD_REGISTER are
zero (R256), and the instruction. -/
structure Ident where
  reservedOk : Bool
  registerOk : Bool
  instr : Instr
deriving DecidableEq, Repr

/-- Words of opcode 0x01 of the control sequencer. -/
def identControlOp01 (w : Word32) : Option Ident :=
  some ⟨decide (bits w 0 26 = 0#26), true, .nop⟩
/-- Words of opcode 0x02 of the control sequencer. -/
def identControlOp02 (w : Word32) : Option Ident :=
  if bits w 0 11 = 0x0#11 then some ⟨true, true, .add (bits w 21 5) (bits w 16 5) (bits w 11 5)⟩
  else if bits w 0 11 = 0x1#11 then some ⟨true, true, .sub (bits w 21 5) (bits w 16 5) (bits w 11 5)⟩
  else if bits w 0 11 = 0x2#11 then some ⟨true, true, .and (bits w 21 5) (bits w 16 5) (bits w 11 5)⟩
  else if bits w 0 11 = 0x3#11 then some ⟨true, true, .or (bits w 21 5) (bits w 16 5) (bits w 11 5)⟩
  else if bits w 0 11 = 0x4#11 then some ⟨true, true, .xor (bits w 21 5) (bits w 16 5) (bits w 11 5)⟩
  else if bits w 0 11 = 0x5#11 then some ⟨true, true, .andn (bits w 21 5) (bits w 16 5) (bits w 11 5)⟩
  else if bits w 0 11 = 0x6#11 then some ⟨true, true, .shl (bits w 21 5) (bits w 16 5) (bits w 11 5)⟩
  else if bits w 0 11 = 0x7#11 then some ⟨true, true, .shr (bits w 21 5) (bits w 16 5) (bits w 11 5)⟩
  else if bits w 0 11 = 0x8#11 then some ⟨true, true, .sra (bits w 21 5) (bits w 16 5) (bits w 11 5)⟩
  else if bits w 0 11 = 0x9#11 then some ⟨true, true, .rol (bits w 21 5) (bits w 16 5) (bits w 11 5)⟩
  else if bits w 0 11 = 0xa#11 then some ⟨true, true, .mul (bits w 21 5) (bits w 16 5) (bits w 11 5)⟩
  else if bits w 0 11 = 0xb#11 then some ⟨true, true, .mulh (bits w 21 5) (bits w 16 5) (bits w 11 5)⟩
  else if bits w 0 11 = 0xc#11 then some ⟨true, true, .mulhu (bits w 21 5) (bits w 16 5) (bits w 11 5)⟩
  else if bits w 0 11 = 0xd#11 then some ⟨true, true, .div (bits w 21 5) (bits w 16 5) (bits w 11 5)⟩
  else if bits w 0 11 = 0xe#11 then some ⟨true, true, .divu (bits w 21 5) (bits w 16 5) (bits w 11 5)⟩
  else if bits w 0 11 = 0xf#11 then some ⟨true, true, .rem (bits w 21 5) (bits w 16 5) (bits w 11 5)⟩
  else if bits w 0 11 = 0x10#11 then some ⟨true, true, .remu (bits w 21 5) (bits w 16 5) (bits w 11 5)⟩
  else if bits w 0 11 = 0x11#11 then some ⟨true, true, .min (bits w 21 5) (bits w 16 5) (bits w 11 5)⟩
  else if bits w 0 11 = 0x12#11 then some ⟨true, true, .max (bits w 21 5) (bits w 16 5) (bits w 11 5)⟩
  else if bits w 0 11 = 0x13#11 then some ⟨true, true, .minu (bits w 21 5) (bits w 16 5) (bits w 11 5)⟩
  else if bits w 0 11 = 0x14#11 then some ⟨true, true, .maxu (bits w 21 5) (bits w 16 5) (bits w 11 5)⟩
  else if bits w 0 11 = 0x15#11 then some ⟨true, true, .adds (bits w 21 5) (bits w 16 5) (bits w 11 5)⟩
  else if bits w 0 11 = 0x16#11 then some ⟨true, true, .subs (bits w 21 5) (bits w 16 5) (bits w 11 5)⟩
  else if bits w 0 11 = 0x18#11 then some ⟨decide (bits w 11 5 = 0#5), true, .clz (bits w 21 5) (bits w 16 5)⟩
  else if bits w 0 11 = 0x19#11 then some ⟨decide (bits w 11 5 = 0#5), true, .ctz (bits w 21 5) (bits w 16 5)⟩
  else if bits w 0 11 = 0x1a#11 then some ⟨decide (bits w 11 5 = 0#5), true, .popc (bits w 21 5) (bits w 16 5)⟩
  else if bits w 0 11 = 0x1b#11 then some ⟨decide (bits w 11 5 = 0#5), true, .sextb (bits w 21 5) (bits w 16 5)⟩
  else if bits w 0 11 = 0x1c#11 then some ⟨decide (bits w 11 5 = 0#5), true, .sexth (bits w 21 5) (bits w 16 5)⟩
  else if bits w 0 11 = 0x1d#11 then some ⟨decide (bits w 11 5 = 0#5), true, .sextw (bits w 21 5) (bits w 16 5)⟩
  else if bits w 0 11 = 0x1e#11 then some ⟨decide (bits w 11 5 = 0#5), true, .zextw (bits w 21 5) (bits w 16 5)⟩
  else none
/-- Words of opcode 0x03 of the control sequencer. -/
def identControlOp03 (w : Word32) : Option Ident :=
  some ⟨true, true, .addi (bits w 21 5) (bits w 16 5) (bits w 0 16)⟩
/-- Words of opcode 0x04 of the control sequencer. -/
def identControlOp04 (w : Word32) : Option Ident :=
  some ⟨true, true, .andi (bits w 21 5) (bits w 16 5) (bits w 0 16)⟩
/-- Words of opcode 0x05 of the control sequencer. -/
def identControlOp05 (w : Word32) : Option Ident :=
  some ⟨true, true, .ori (bits w 21 5) (bits w 16 5) (bits w 0 16)⟩
/-- Words of opcode 0x06 of the control sequencer. -/
def identControlOp06 (w : Word32) : Option Ident :=
  some ⟨true, true, .xori (bits w 21 5) (bits w 16 5) (bits w 0 16)⟩
/-- Words of opcode 0x07 of the control sequencer. -/
def identControlOp07 (w : Word32) : Option Ident :=
  if bits w 6 2 = 0x0#2 then some ⟨decide (bits w 8 8 = 0#8), true, .shli (bits w 21 5) (bits w 16 5) (bits w 0 6)⟩
  else if bits w 6 2 = 0x1#2 then some ⟨decide (bits w 8 8 = 0#8), true, .shri (bits w 21 5) (bits w 16 5) (bits w 0 6)⟩
  else if bits w 6 2 = 0x2#2 then some ⟨decide (bits w 8 8 = 0#8), true, .srai (bits w 21 5) (bits w 16 5) (bits w 0 6)⟩
  else if bits w 6 2 = 0x3#2 then some ⟨decide (bits w 8 8 = 0#8), true, .roli (bits w 21 5) (bits w 16 5) (bits w 0 6)⟩
  else none
/-- Words of opcode 0x08 of the control sequencer. -/
def identControlOp08 (w : Word32) : Option Ident :=
  some ⟨true, true, .movi (bits w 21 5) (bits w 0 21)⟩
/-- Words of opcode 0x09 of the control sequencer. -/
def identControlOp09 (w : Word32) : Option Ident :=
  some ⟨decide (bits w 18 3 = 0#3), true, .movk (bits w 21 5) (bits w 16 2) (bits w 0 16)⟩
/-- Words of opcode 0x0a of the control sequencer. -/
def identControlOp0A (w : Word32) : Option Ident :=
  if bits w 0 11 = 0x0#11 then some ⟨true, true, .aset (bits w 21 5) (bits w 16 5) (bits w 11 5)⟩
  else if bits w 0 11 = 0x1#11 then some ⟨true, true, .aadd (bits w 21 5) (bits w 16 5) (bits w 11 5)⟩
  else if bits w 0 11 = 0x2#11 then some ⟨true, true, .asub (bits w 21 5) (bits w 16 5) (bits w 11 5)⟩
  else if bits w 0 11 = 0x3#11 then some ⟨decide (bits w 11 5 = 0#5), true, .alo (bits w 21 5) (bits w 16 5)⟩
  else if bits w 0 11 = 0x4#11 then some ⟨decide (bits w 11 5 = 0#5), true, .ahi (bits w 21 5) (bits w 16 5)⟩
  else if bits w 0 11 = 0x5#11 then some ⟨true, true, .aand (bits w 21 5) (bits w 16 5) (bits w 11 5)⟩
  else if bits w 0 11 = 0x6#11 then some ⟨decide (bits w 11 5 = 0#5), true, .amov (bits w 21 5) (bits w 16 5)⟩
  else none
/-- Words of opcode 0x0b of the control sequencer. -/
def identControlOp0B (w : Word32) : Option Ident :=
  some ⟨true, true, .aaddi (bits w 21 5) (bits w 16 5) (bits w 0 16)⟩
/-- Words of opcode 0x0c of the control sequencer. -/
def identControlOp0C (w : Word32) : Option Ident :=
  if bits w 0 11 = 0x0#11 then some ⟨decide (bits w 25 1 = 0#1), true, .cmpEq (bits w 21 4) (bits w 16 5) (bits w 11 5)⟩
  else if bits w 0 11 = 0x1#11 then some ⟨decide (bits w 25 1 = 0#1), true, .cmpNe (bits w 21 4) (bits w 16 5) (bits w 11 5)⟩
  else if bits w 0 11 = 0x2#11 then some ⟨decide (bits w 25 1 = 0#1), true, .cmpLt (bits w 21 4) (bits w 16 5) (bits w 11 5)⟩
  else if bits w 0 11 = 0x3#11 then some ⟨decide (bits w 25 1 = 0#1), true, .cmpGe (bits w 21 4) (bits w 16 5) (bits w 11 5)⟩
  else if bits w 0 11 = 0x4#11 then some ⟨decide (bits w 25 1 = 0#1), true, .cmpLtu (bits w 21 4) (bits w 16 5) (bits w 11 5)⟩
  else if bits w 0 11 = 0x5#11 then some ⟨decide (bits w 25 1 = 0#1), true, .cmpGeu (bits w 21 4) (bits w 16 5) (bits w 11 5)⟩
  else if bits w 0 11 = 0x6#11 then some ⟨decide (bits w 25 1 = 0#1), true, .acmpEq (bits w 21 4) (bits w 16 5) (bits w 11 5)⟩
  else if bits w 0 11 = 0x7#11 then some ⟨decide (bits w 25 1 = 0#1), true, .acmpLtu (bits w 21 4) (bits w 16 5) (bits w 11 5)⟩
  else if bits w 0 11 = 0x8#11 then some ⟨decide (bits w 25 1 = 0#1), true, .tst (bits w 21 4) (bits w 16 5) (bits w 11 5)⟩
  else if bits w 0 11 = 0x10#11 then some ⟨decide (bits w 25 1 = 0#1 ∧ bits w 20 1 = 0#1 ∧ bits w 15 1 = 0#1), true, .pand (bits w 21 4) (bits w 16 4) (bits w 11 4)⟩
  else if bits w 0 11 = 0x11#11 then some ⟨decide (bits w 25 1 = 0#1 ∧ bits w 20 1 = 0#1 ∧ bits w 15 1 = 0#1), true, .por (bits w 21 4) (bits w 16 4) (bits w 11 4)⟩
  else if bits w 0 11 = 0x12#11 then some ⟨decide (bits w 25 1 = 0#1 ∧ bits w 20 1 = 0#1 ∧ bits w 15 1 = 0#1), true, .pxor (bits w 21 4) (bits w 16 4) (bits w 11 4)⟩
  else if bits w 0 11 = 0x13#11 then some ⟨decide (bits w 25 1 = 0#1 ∧ bits w 20 1 = 0#1 ∧ bits w 15 1 = 0#1), true, .pandn (bits w 21 4) (bits w 16 4) (bits w 11 4)⟩
  else if bits w 0 11 = 0x14#11 then some ⟨decide (bits w 11 10 = 0#10), true, .prd (bits w 21 5)⟩
  else if bits w 0 11 = 0x15#11 then some ⟨decide (bits w 21 5 = 0#5 ∧ bits w 11 5 = 0#5), true, .pwr (bits w 16 5)⟩
  else none
/-- Words of opcode 0x0d of the control sequencer. -/
def identControlOp0D (w : Word32) : Option Ident :=
  if bits w 13 3 = 0x0#3 then some ⟨decide (bits w 25 1 = 0#1), true, .cmpiEq (bits w 21 4) (bits w 16 5) (bits w 0 13)⟩
  else if bits w 13 3 = 0x1#3 then some ⟨decide (bits w 25 1 = 0#1), true, .cmpiNe (bits w 21 4) (bits w 16 5) (bits w 0 13)⟩
  else if bits w 13 3 = 0x2#3 then some ⟨decide (bits w 25 1 = 0#1), true, .cmpiLt (bits w 21 4) (bits w 16 5) (bits w 0 13)⟩
  else if bits w 13 3 = 0x3#3 then some ⟨decide (bits w 25 1 = 0#1), true, .cmpiGe (bits w 21 4) (bits w 16 5) (bits w 0 13)⟩
  else if bits w 13 3 = 0x4#3 then some ⟨decide (bits w 25 1 = 0#1), true, .cmpiLtu (bits w 21 4) (bits w 16 5) (bits w 0 13)⟩
  else if bits w 13 3 = 0x5#3 then some ⟨decide (bits w 25 1 = 0#1), true, .cmpiGeu (bits w 21 4) (bits w 16 5) (bits w 0 13)⟩
  else none
/-- Words of opcode 0x0e of the control sequencer. -/
def identControlOp0E (w : Word32) : Option Ident :=
  if bits w 6 5 = 0x0#5 then some ⟨decide (bits w 5 1 = 0#1), true, .sel (bits w 21 5) (bits w 16 5) (bits w 11 5) (bits w 4 1) (bits w 0 4)⟩
  else if bits w 6 5 = 0x1#5 then some ⟨decide (bits w 5 1 = 0#1), true, .asel (bits w 21 5) (bits w 16 5) (bits w 11 5) (bits w 4 1) (bits w 0 4)⟩
  else none
/-- Words of opcode 0x10 of the control sequencer. -/
def identControlOp10 (w : Word32) : Option Ident :=
  some ⟨true, true, .br (bits w 25 1) (bits w 21 4) (bits w 0 21)⟩
/-- Words of opcode 0x11 of the control sequencer. -/
def identControlOp11 (w : Word32) : Option Ident :=
  some ⟨true, true, .call (bits w 25 1) (bits w 21 4) (bits w 0 21)⟩
/-- Words of opcode 0x12 of the control sequencer. -/
def identControlOp12 (w : Word32) : Option Ident :=
  if bits w 0 11 = 0x0#11 then some ⟨decide (bits w 21 5 = 0#5 ∧ bits w 11 5 = 0#5), true, .jmp (bits w 16 5)⟩
  else if bits w 0 11 = 0x1#11 then some ⟨decide (bits w 21 5 = 0#5 ∧ bits w 11 5 = 0#5), true, .callr (bits w 16 5)⟩
  else none
/-- Words of opcode 0x13 of the control sequencer. -/
def identControlOp13 (w : Word32) : Option Ident :=
  some ⟨decide (bits w 25 1 = 0#1 ∧ bits w 23 1 = 0#1), true, .loop (bits w 24 1) (bits w 21 2) (bits w 0 21)⟩
/-- Words of opcode 0x14 of the control sequencer. -/
def identControlOp14 (w : Word32) : Option Ident :=
  some ⟨decide (bits w 23 2 = 0#2 ∧ bits w 3 13 = 0#13), true, .lcset (bits w 25 1) (bits w 21 2) (bits w 16 5) (bits w 0 3)⟩
/-- Words of opcode 0x15 of the control sequencer. -/
def identControlOp15 (w : Word32) : Option Ident :=
  some ⟨decide (bits w 23 2 = 0#2 ∧ bits w 16 5 = 0#5), true, .lcseti (bits w 25 1) (bits w 21 2) (bits w 13 3) (bits w 0 13)⟩
/-- Words of opcode 0x16 of the control sequencer. -/
def identControlOp16 (w : Word32) : Option Ident :=
  if bits w 0 11 = 0x0#11 then some ⟨decide (bits w 24 2 = 0#2), true, .mset (bits w 21 3) (bits w 16 5) (bits w 11 5)⟩
  else if bits w 0 11 = 0x1#11 then some ⟨decide (bits w 19 2 = 0#2 ∧ bits w 11 5 = 0#5), true, .mrd (bits w 21 5) (bits w 16 3)⟩
  else if bits w 0 11 = 0x2#11 then some ⟨decide (bits w 18 3 = 0#3 ∧ bits w 11 5 = 0#5), true, .lcrd (bits w 21 5) (bits w 16 2)⟩
  else if bits w 0 11 = 0x3#11 then some ⟨decide (bits w 23 3 = 0#3 ∧ bits w 11 5 = 0#5), true, .lcwr (bits w 21 2) (bits w 16 5)⟩
  else none
/-- Words of opcode 0x18 of the control sequencer. -/
def identControlOp18 (w : Word32) : Option Ident :=
  if bits w 15 1 = 0x0#1 then some ⟨decide (bits w 9 3 = 0#3), true, .ld (bits w 21 5) (bits w 16 5) (bits w 14 1) (bits w 12 2) (bits w 0 9)⟩
  else none
/-- Words of opcode 0x19 of the control sequencer. -/
def identControlOp19 (w : Word32) : Option Ident :=
  if bits w 15 1 = 0x0#1 then some ⟨decide (bits w 9 3 = 0#3), true, .ldx (bits w 21 5) (bits w 16 5) (bits w 14 1) (bits w 12 2) (bits w 0 9)⟩
  else none
/-- Words of opcode 0x1a of the control sequencer. -/
def identControlOp1A (w : Word32) : Option Ident :=
  if bits w 15 1 = 0x0#1 then some ⟨decide (bits w 9 3 = 0#3), true, .st (bits w 21 5) (bits w 16 5) (bits w 14 1) (bits w 12 2) (bits w 0 9)⟩
  else none
/-- Words of opcode 0x1b of the control sequencer. -/
def identControlOp1B (w : Word32) : Option Ident :=
  some ⟨true, true, .sld (bits w 21 5) (bits w 16 5) (bits w 14 2) (bits w 12 2) (bits w 9 3) (bits w 0 9)⟩
/-- Words of opcode 0x1c of the control sequencer. -/
def identControlOp1C (w : Word32) : Option Ident :=
  some ⟨true, true, .sldx (bits w 21 5) (bits w 16 5) (bits w 14 2) (bits w 12 2) (bits w 9 3) (bits w 0 9)⟩
/-- Words of opcode 0x1d of the control sequencer. -/
def identControlOp1D (w : Word32) : Option Ident :=
  some ⟨true, true, .sst (bits w 21 5) (bits w 16 5) (bits w 14 2) (bits w 12 2) (bits w 9 3) (bits w 0 9)⟩
/-- Words of opcode 0x1e of the control sequencer. -/
def identControlOp1E (w : Word32) : Option Ident :=
  some ⟨true, true, .stDue (bits w 21 5) (bits w 16 5) (bits w 14 2) (bits w 12 2) (bits w 11 1) (bits w 6 5) (bits w 0 6)⟩
/-- Words of opcode 0x1f of the control sequencer. -/
def identControlOp1F (w : Word32) : Option Ident :=
  some ⟨decide (bits w 0 6 = 0#6), true, .ldNb (bits w 21 5) (bits w 16 5) (bits w 14 2) (bits w 12 2) (bits w 11 1) (bits w 6 5)⟩
/-- Words of opcode 0x20 of the control sequencer. -/
def identControlOp20 (w : Word32) : Option Ident :=
  if bits w 7 4 = 0x0#4 then some ⟨decide (bits w 0 2 = 0#2), true, .amoAdd (bits w 21 5) (bits w 16 5) (bits w 11 5) (bits w 5 2) (bits w 3 2) (bits w 2 1)⟩
  else if bits w 7 4 = 0x1#4 then some ⟨decide (bits w 0 2 = 0#2), true, .amoAnd (bits w 21 5) (bits w 16 5) (bits w 11 5) (bits w 5 2) (bits w 3 2) (bits w 2 1)⟩
  else if bits w 7 4 = 0x2#4 then some ⟨decide (bits w 0 2 = 0#2), true, .amoOr (bits w 21 5) (bits w 16 5) (bits w 11 5) (bits w 5 2) (bits w 3 2) (bits w 2 1)⟩
  else if bits w 7 4 = 0x3#4 then some ⟨decide (bits w 0 2 = 0#2), true, .amoXor (bits w 21 5) (bits w 16 5) (bits w 11 5) (bits w 5 2) (bits w 3 2) (bits w 2 1)⟩
  else if bits w 7 4 = 0x4#4 then some ⟨decide (bits w 0 2 = 0#2), true, .amoMin (bits w 21 5) (bits w 16 5) (bits w 11 5) (bits w 5 2) (bits w 3 2) (bits w 2 1)⟩
  else if bits w 7 4 = 0x5#4 then some ⟨decide (bits w 0 2 = 0#2), true, .amoMax (bits w 21 5) (bits w 16 5) (bits w 11 5) (bits w 5 2) (bits w 3 2) (bits w 2 1)⟩
  else if bits w 7 4 = 0x6#4 then some ⟨decide (bits w 0 2 = 0#2), true, .amoMinu (bits w 21 5) (bits w 16 5) (bits w 11 5) (bits w 5 2) (bits w 3 2) (bits w 2 1)⟩
  else if bits w 7 4 = 0x7#4 then some ⟨decide (bits w 0 2 = 0#2), true, .amoMaxu (bits w 21 5) (bits w 16 5) (bits w 11 5) (bits w 5 2) (bits w 3 2) (bits w 2 1)⟩
  else if bits w 7 4 = 0x8#4 then some ⟨decide (bits w 0 2 = 0#2), true, .amoSwap (bits w 21 5) (bits w 16 5) (bits w 11 5) (bits w 5 2) (bits w 3 2) (bits w 2 1)⟩
  else if bits w 7 4 = 0x9#4 then some ⟨decide (bits w 0 2 = 0#2), true, .amoCas (bits w 21 5) (bits w 16 5) (bits w 11 5) (bits w 5 2) (bits w 3 2) (bits w 2 1)⟩
  else none
/-- Words of opcode 0x21 of the control sequencer. -/
def identControlOp21 (w : Word32) : Option Ident :=
  if bits w 0 11 = 0x0#11 then some ⟨decide (bits w 11 15 = 0#15), true, .fenceCore⟩
  else if bits w 0 11 = 0x1#11 then some ⟨decide (bits w 11 15 = 0#15), true, .fenceDie⟩
  else if bits w 0 11 = 0x2#11 then some ⟨decide (bits w 11 15 = 0#15), true, .fencePkg⟩
  else if bits w 0 11 = 0x3#11 then some ⟨decide (bits w 11 15 = 0#15), true, .fencePod⟩
  else if bits w 0 11 = 0x4#11 then some ⟨decide (bits w 11 15 = 0#15), true, .ffence⟩
  else none
/-- Words of opcode 0x22 of the control sequencer. -/
def identControlOp22 (w : Word32) : Option Ident :=
  if bits w 0 11 = 0x0#11 then some ⟨decide (bits w 21 5 = 0#5 ∧ bits w 11 5 = 0#5), true, .sealPage (bits w 16 5)⟩
  else if bits w 0 11 = 0x1#11 then some ⟨decide (bits w 21 5 = 0#5 ∧ bits w 11 5 = 0#5), true, .unsealPage (bits w 16 5)⟩
  else none
/-- Words of opcode 0x23 of the control sequencer. -/
def identControlOp23 (w : Word32) : Option Ident :=
  if bits w 0 11 = 0x0#11 then some ⟨decide (bits w 11 5 = 0#5), true, .clmq (bits w 21 5) (bits w 16 5)⟩
  else none
/-- Words of opcode 0x24 of the control sequencer. -/
def identControlOp24 (w : Word32) : Option Ident :=
  if bits w 7 4 = 0x0#4 then some ⟨decide (bits w 21 5 = 0#5 ∧ bits w 0 7 = 0#7), true, .fopCas2 (bits w 16 5) (bits w 11 5)⟩
  else if bits w 7 4 = 0x1#4 then some ⟨decide (bits w 21 5 = 0#5 ∧ bits w 0 7 = 0#7), true, .fopCas4 (bits w 16 5) (bits w 11 5)⟩
  else if bits w 7 4 = 0x2#4 then some ⟨decide (bits w 21 5 = 0#5 ∧ bits w 0 7 = 0#7), true, .fopEnq (bits w 16 5) (bits w 11 5)⟩
  else if bits w 7 4 = 0x3#4 then some ⟨decide (bits w 0 7 = 0#7), true, .fopChase (bits w 21 5) (bits w 16 5) (bits w 11 5)⟩
  else if bits w 7 4 = 0x4#4 then some ⟨decide (bits w 0 4 = 0#4), true, .fopProg (bits w 21 5) (bits w 16 5) (bits w 11 5) (bits w 4 3)⟩
  else if bits w 7 4 = 0x5#4 then some ⟨decide (bits w 16 10 = 0#10 ∧ bits w 0 1 = 0#1), true, .fopRel (bits w 11 5) (bits w 1 6)⟩
  else none
/-- Words of opcode 0x25 of the control sequencer. -/
def identControlOp25 (w : Word32) : Option Ident :=
  if bits w 0 11 = 0x0#11 then some ⟨decide (bits w 16 5 = 0#5), true, .fpop (bits w 21 5) (bits w 11 5)⟩
  else if bits w 0 11 = 0x1#11 then some ⟨decide (bits w 20 1 = 0#1), true, .fpopNr (bits w 21 5) (bits w 16 4) (bits w 11 5)⟩
  else if bits w 0 11 = 0x2#11 then some ⟨decide (bits w 11 10 = 0#10), true, .fstat (bits w 21 5)⟩
  else none
/-- Words of opcode 0x28 of the control sequencer. -/
def identControlOp28 (w : Word32) : Option Ident :=
  if bits w 25 1 = 0x0#1 then some ⟨decide (bits w 11 14 = 0#14), true, .tokPut (bits w 8 3) (bits w 0 8)⟩
  else if bits w 25 1 = 0x1#1 then some ⟨decide (bits w 11 14 = 0#14), true, .tokGet (bits w 8 3) (bits w 0 8)⟩
  else none
/-- Words of opcode 0x29 of the control sequencer. -/
def identControlOp29 (w : Word32) : Option Ident :=
  if bits w 0 11 = 0x0#11 then some ⟨decide (bits w 22 4 = 0#4 ∧ bits w 11 5 = 0#5), true, .vqpush (bits w 21 1) (bits w 16 5)⟩
  else none
/-- Words of opcode 0x2a of the control sequencer. -/
def identControlOp2A (w : Word32) : Option Ident :=
  if bits w 0 11 = 0x0#11 then some ⟨decide (bits w 11 5 = 0#5), true, .join (bits w 21 5) (bits w 16 5)⟩
  else if bits w 0 11 = 0x1#11 then some ⟨decide (bits w 21 5 = 0#5 ∧ bits w 11 5 = 0#5), true, .leave (bits w 16 5)⟩
  else if bits w 0 11 = 0x2#11 then some ⟨decide (bits w 11 5 = 0#5), true, .barArrive (bits w 21 5) (bits w 16 5)⟩
  else if bits w 0 11 = 0x3#11 then some ⟨decide (bits w 21 5 = 0#5), true, .barWait (bits w 16 5) (bits w 11 5)⟩
  else if bits w 0 11 = 0x4#11 then some ⟨decide (bits w 21 5 = 0#5 ∧ bits w 11 5 = 0#5), true, .dissolve (bits w 16 5)⟩
  else none
/-- Words of opcode 0x2b of the control sequencer. -/
def identControlOp2B (w : Word32) : Option Ident :=
  if bits w 0 11 = 0x0#11 then some ⟨true, true, .launch (bits w 21 5) (bits w 16 5) (bits w 11 5)⟩
  else if bits w 0 11 = 0x1#11 then some ⟨decide (bits w 11 15 = 0#15), true, .trigger⟩
  else if bits w 0 11 = 0x2#11 then some ⟨decide (bits w 21 5 = 0#5 ∧ bits w 11 5 = 0#5), true, .wait (bits w 16 5)⟩
  else if bits w 0 11 = 0x3#11 then some ⟨decide (bits w 21 5 = 0#5), true, .setprio (bits w 16 5) (bits w 11 5)⟩
  else none
/-- Words of opcode 0x2c of the control sequencer. -/
def identControlOp2C (w : Word32) : Option Ident :=
  if bits w 3 8 = 0x0#8 ∧ bits w 0 2 = 0x0#2 then some ⟨decide (bits w 11 5 = 0#5), true, .tagAny (bits w 21 5) (bits w 16 5) (bits w 2 1)⟩
  else if bits w 3 8 = 0x0#8 ∧ bits w 0 2 = 0x1#2 then some ⟨decide (bits w 11 5 = 0#5), true, .tagAll (bits w 21 5) (bits w 16 5) (bits w 2 1)⟩
  else if bits w 0 11 = 0x2#11 then some ⟨decide (bits w 11 5 = 0#5), true, .tagFirst (bits w 21 5) (bits w 16 5)⟩
  else none
/-- Words of opcode 0x2d of the control sequencer. -/
def identControlOp2D (w : Word32) : Option Ident :=
  if bits w 0 11 = 0x0#11 then some ⟨decide (bits w 11 15 = 0#15), true, .yield⟩
  else if bits w 0 11 = 0x1#11 then some ⟨decide (bits w 11 15 = 0#15), true, .exit⟩
  else none
/-- Words of opcode 0x2e of the control sequencer. -/
def identControlOp2E (w : Word32) : Option Ident :=
  if bits w 0 11 = 0x0#11 then some ⟨decide (bits w 15 6 = 0#6), true, .rpop (bits w 21 5) (bits w 11 4)⟩
  else if bits w 0 11 = 0x1#11 then some ⟨decide (bits w 21 5 = 0#5 ∧ bits w 11 5 = 0#5), true, .rpush (bits w 16 5)⟩
  else none
/-- Words of opcode 0x30 of the control sequencer. -/
def identControlOp30 (w : Word32) : Option Ident :=
  if bits w 0 4 = 0x0#4 then some ⟨decide (bits w 16 5 = 0#5), true, .csrr (bits w 21 5) (bits w 4 12)⟩
  else if bits w 0 4 = 0x1#4 then some ⟨decide (bits w 21 5 = 0#5), true, .csrw (bits w 16 5) (bits w 4 12)⟩
  else if bits w 0 4 = 0x2#4 then some ⟨true, true, .csrs (bits w 21 5) (bits w 16 5) (bits w 4 12)⟩
  else if bits w 0 4 = 0x3#4 then some ⟨true, true, .csrc (bits w 21 5) (bits w 16 5) (bits w 4 12)⟩
  else if bits w 0 4 = 0x4#4 then some ⟨true, true, .csrrw (bits w 21 5) (bits w 16 5) (bits w 4 12)⟩
  else none
/-- Words of opcode 0x31 of the control sequencer. -/
def identControlOp31 (w : Word32) : Option Ident :=
  if bits w 0 4 = 0x0#4 then some ⟨decide (bits w 4 17 = 0#17), true, .rdclk (bits w 21 5)⟩
  else if bits w 0 4 = 0x1#4 then some ⟨decide (bits w 4 12 = 0#12), true, .clkadd (bits w 21 5) (bits w 16 5)⟩
  else none
/-- Words of opcode 0x32 of the control sequencer. -/
def identControlOp32 (w : Word32) : Option Ident :=
  if bits w 0 4 = 0x0#4 then some ⟨decide (bits w 4 12 = 0#12), true, .locq (bits w 21 5) (bits w 16 5)⟩
  else if bits w 0 4 = 0x1#4 then some ⟨decide (bits w 4 12 = 0#12), true, .locqT (bits w 21 5) (bits w 16 5)⟩
  else none
/-- Words of opcode 0x33 of the control sequencer. -/
def identControlOp33 (w : Word32) : Option Ident :=
  some ⟨true, true, .tmplLd (bits w 24 2) (bits w 18 6) (bits w 14 4) (bits w 0 14)⟩
/-- Words of opcode 0x34 of the control sequencer. -/
def identControlOp34 (w : Word32) : Option Ident :=
  if bits w 0 11 = 0x0#11 then some ⟨decide (bits w 21 5 = 0#5 ∧ bits w 11 5 = 0#5), true, .trap (bits w 16 5)⟩
  else if bits w 0 11 = 0x1#11 then some ⟨decide (bits w 21 5 = 0#5 ∧ bits w 11 5 = 0#5), true, .hcall (bits w 16 5)⟩
  else if bits w 0 11 = 0x2#11 then some ⟨decide (bits w 11 15 = 0#15), true, .brk⟩
  else none
/-- Words of opcode 0x35 of the control sequencer. -/
def identControlOp35 (w : Word32) : Option Ident :=
  if bits w 0 11 = 0x0#11 then some ⟨decide (bits w 11 15 = 0#15), true, .tret⟩
  else if bits w 0 11 = 0x1#11 then some ⟨decide (bits w 11 15 = 0#15), true, .wdsvc⟩
  else if bits w 0 11 = 0x2#11 then some ⟨decide (bits w 21 5 = 0#5 ∧ bits w 11 5 = 0#5), true, .contain (bits w 16 5)⟩
  else if bits w 0 11 = 0x3#11 then some ⟨decide (bits w 21 5 = 0#5 ∧ bits w 11 5 = 0#5), true, .wsw (bits w 16 5)⟩
  else none
/-- Words of opcode 0x36 of the control sequencer. -/
def identControlOp36 (w : Word32) : Option Ident :=
  if bits w 0 11 = 0x0#11 then some ⟨decide (bits w 21 5 = 0#5), true, .invalVa (bits w 16 5) (bits w 11 5)⟩
  else if bits w 0 11 = 0x1#11 then some ⟨decide (bits w 16 10 = 0#10), true, .invalAsid (bits w 11 5)⟩
  else if bits w 0 11 = 0x2#11 then some ⟨decide (bits w 11 15 = 0#15), true, .invalAll⟩
  else if bits w 0 11 = 0x3#11 then some ⟨decide (bits w 16 10 = 0#10), true, .mwclr (bits w 11 5)⟩
  else none

/-- The instruction a word of the control sequencer names, before the checks of R187. -/
def identControl (w : Word32) : Option Ident :=
  match (bits w 26 6).toNat with
  | 1 => identControlOp01 w
  | 2 => identControlOp02 w
  | 3 => identControlOp03 w
  | 4 => identControlOp04 w
  | 5 => identControlOp05 w
  | 6 => identControlOp06 w
  | 7 => identControlOp07 w
  | 8 => identControlOp08 w
  | 9 => identControlOp09 w
  | 10 => identControlOp0A w
  | 11 => identControlOp0B w
  | 12 => identControlOp0C w
  | 13 => identControlOp0D w
  | 14 => identControlOp0E w
  | 16 => identControlOp10 w
  | 17 => identControlOp11 w
  | 18 => identControlOp12 w
  | 19 => identControlOp13 w
  | 20 => identControlOp14 w
  | 21 => identControlOp15 w
  | 22 => identControlOp16 w
  | 24 => identControlOp18 w
  | 25 => identControlOp19 w
  | 26 => identControlOp1A w
  | 27 => identControlOp1B w
  | 28 => identControlOp1C w
  | 29 => identControlOp1D w
  | 30 => identControlOp1E w
  | 31 => identControlOp1F w
  | 32 => identControlOp20 w
  | 33 => identControlOp21 w
  | 34 => identControlOp22 w
  | 35 => identControlOp23 w
  | 36 => identControlOp24 w
  | 37 => identControlOp25 w
  | 40 => identControlOp28 w
  | 41 => identControlOp29 w
  | 42 => identControlOp2A w
  | 43 => identControlOp2B w
  | 44 => identControlOp2C w
  | 45 => identControlOp2D w
  | 46 => identControlOp2E w
  | 48 => identControlOp30 w
  | 49 => identControlOp31 w
  | 50 => identControlOp32 w
  | 51 => identControlOp33 w
  | 52 => identControlOp34 w
  | 53 => identControlOp35 w
  | 54 => identControlOp36 w
  | _ => none

/-- Words of opcode 0x01 of the V slots. -/
def identVOp01 (w : Word32) : Option Ident :=
  some ⟨decide (bits w 0 25 = 0#25), true, .vNop⟩
/-- Words of opcode 0x02 of the V slots. -/
def identVOp02 (w : Word32) : Option Ident :=
  some ⟨decide (bits w 0 1 = 0#1), true, .vFadd (bits w 19 6) (bits w 13 6) (bits w 7 6) (bits w 6 1) (bits w 3 3) (bits w 2 1) (bits w 1 1)⟩
/-- Words of opcode 0x03 of the V slots. -/
def identVOp03 (w : Word32) : Option Ident :=
  some ⟨decide (bits w 0 1 = 0#1), true, .vFsub (bits w 19 6) (bits w 13 6) (bits w 7 6) (bits w 6 1) (bits w 3 3) (bits w 2 1) (bits w 1 1)⟩
/-- Words of opcode 0x04 of the V slots. -/
def identVOp04 (w : Word32) : Option Ident :=
  some ⟨decide (bits w 0 1 = 0#1), true, .vFmul (bits w 19 6) (bits w 13 6) (bits w 7 6) (bits w 6 1) (bits w 3 3) (bits w 2 1) (bits w 1 1)⟩
/-- Words of opcode 0x05 of the V slots. -/
def identVOp05 (w : Word32) : Option Ident :=
  some ⟨true, true, .vFma (bits w 19 6) (bits w 13 6) (bits w 7 6) (bits w 6 1) (bits w 3 3) (bits w 2 1) (bits w 1 1) (bits w 0 1)⟩
/-- Words of opcode 0x06 of the V slots. -/
def identVOp06 (w : Word32) : Option Ident :=
  some ⟨true, true, .vFms (bits w 19 6) (bits w 13 6) (bits w 7 6) (bits w 6 1) (bits w 3 3) (bits w 2 1) (bits w 1 1) (bits w 0 1)⟩
/-- Words of opcode 0x07 of the V slots. -/
def identVOp07 (w : Word32) : Option Ident :=
  some ⟨decide (bits w 0 1 = 0#1), true, .vFmin (bits w 19 6) (bits w 13 6) (bits w 7 6) (bits w 6 1) (bits w 3 3) (bits w 2 1) (bits w 1 1)⟩
/-- Words of opcode 0x08 of the V slots. -/
def identVOp08 (w : Word32) : Option Ident :=
  some ⟨decide (bits w 0 1 = 0#1), true, .vFmax (bits w 19 6) (bits w 13 6) (bits w 7 6) (bits w 6 1) (bits w 3 3) (bits w 2 1) (bits w 1 1)⟩
/-- Words of opcode 0x09 of the V slots. -/
def identVOp09 (w : Word32) : Option Ident :=
  some ⟨decide (bits w 7 6 = 0#6 ∧ bits w 0 2 = 0#2), true, .vFabs (bits w 19 6) (bits w 13 6) (bits w 6 1) (bits w 3 3) (bits w 2 1)⟩
/-- Words of opcode 0x0a of the V slots. -/
def identVOp0A (w : Word32) : Option Ident :=
  some ⟨decide (bits w 7 6 = 0#6 ∧ bits w 0 2 = 0#2), true, .vFneg (bits w 19 6) (bits w 13 6) (bits w 6 1) (bits w 3 3) (bits w 2 1)⟩
/-- Words of opcode 0x0b of the V slots. -/
def identVOp0B (w : Word32) : Option Ident :=
  some ⟨decide (bits w 0 1 = 0#1), true, .vFcmpEq (bits w 19 6) (bits w 13 6) (bits w 7 6) (bits w 6 1) (bits w 3 3) (bits w 2 1) (bits w 1 1)⟩
/-- Words of opcode 0x0c of the V slots. -/
def identVOp0C (w : Word32) : Option Ident :=
  some ⟨decide (bits w 0 1 = 0#1), true, .vFcmpLt (bits w 19 6) (bits w 13 6) (bits w 7 6) (bits w 6 1) (bits w 3 3) (bits w 2 1) (bits w 1 1)⟩
/-- Words of opcode 0x0d of the V slots. -/
def identVOp0D (w : Word32) : Option Ident :=
  some ⟨decide (bits w 0 1 = 0#1), true, .vFcmpLe (bits w 19 6) (bits w 13 6) (bits w 7 6) (bits w 6 1) (bits w 3 3) (bits w 2 1) (bits w 1 1)⟩
/-- Words of opcode 0x0e of the V slots. -/
def identVOp0E (w : Word32) : Option Ident :=
  some ⟨decide (bits w 0 1 = 0#1), true, .vFcmpUn (bits w 19 6) (bits w 13 6) (bits w 7 6) (bits w 6 1) (bits w 3 3) (bits w 2 1) (bits w 1 1)⟩
/-- Words of opcode 0x10 of the V slots. -/
def identVOp10 (w : Word32) : Option Ident :=
  some ⟨decide (bits w 0 1 = 0#1), true, .vAdd (bits w 19 6) (bits w 13 6) (bits w 7 6) (bits w 6 1) (bits w 3 3) (bits w 2 1) (bits w 1 1)⟩
/-- Words of opcode 0x11 of the V slots. -/
def identVOp11 (w : Word32) : Option Ident :=
  some ⟨decide (bits w 0 1 = 0#1), true, .vSub (bits w 19 6) (bits w 13 6) (bits w 7 6) (bits w 6 1) (bits w 3 3) (bits w 2 1) (bits w 1 1)⟩
/-- Words of opcode 0x12 of the V slots. -/
def identVOp12 (w : Word32) : Option Ident :=
  some ⟨decide (bits w 0 1 = 0#1), true, .vMul (bits w 19 6) (bits w 13 6) (bits w 7 6) (bits w 6 1) (bits w 3 3) (bits w 2 1) (bits w 1 1)⟩
/-- Words of opcode 0x13 of the V slots. -/
def identVOp13 (w : Word32) : Option Ident :=
  some ⟨decide (bits w 0 1 = 0#1), true, .vMulh (bits w 19 6) (bits w 13 6) (bits w 7 6) (bits w 6 1) (bits w 3 3) (bits w 2 1) (bits w 1 1)⟩
/-- Words of opcode 0x14 of the V slots. -/
def identVOp14 (w : Word32) : Option Ident :=
  some ⟨decide (bits w 0 1 = 0#1), true, .vAdds (bits w 19 6) (bits w 13 6) (bits w 7 6) (bits w 6 1) (bits w 3 3) (bits w 2 1) (bits w 1 1)⟩
/-- Words of opcode 0x15 of the V slots. -/
def identVOp15 (w : Word32) : Option Ident :=
  some ⟨decide (bits w 0 1 = 0#1), true, .vSubs (bits w 19 6) (bits w 13 6) (bits w 7 6) (bits w 6 1) (bits w 3 3) (bits w 2 1) (bits w 1 1)⟩
/-- Words of opcode 0x16 of the V slots. -/
def identVOp16 (w : Word32) : Option Ident :=
  some ⟨decide (bits w 0 1 = 0#1), true, .vAnd (bits w 19 6) (bits w 13 6) (bits w 7 6) (bits w 6 1) (bits w 3 3) (bits w 2 1) (bits w 1 1)⟩
/-- Words of opcode 0x17 of the V slots. -/
def identVOp17 (w : Word32) : Option Ident :=
  some ⟨decide (bits w 0 1 = 0#1), true, .vOr (bits w 19 6) (bits w 13 6) (bits w 7 6) (bits w 6 1) (bits w 3 3) (bits w 2 1) (bits w 1 1)⟩
/-- Words of opcode 0x18 of the V slots. -/
def identVOp18 (w : Word32) : Option Ident :=
  some ⟨decide (bits w 0 1 = 0#1), true, .vXor (bits w 19 6) (bits w 13 6) (bits w 7 6) (bits w 6 1) (bits w 3 3) (bits w 2 1) (bits w 1 1)⟩
/-- Words of opcode 0x19 of the V slots. -/
def identVOp19 (w : Word32) : Option Ident :=
  some ⟨decide (bits w 0 1 = 0#1), true, .vShl (bits w 19 6) (bits w 13 6) (bits w 7 6) (bits w 6 1) (bits w 3 3) (bits w 2 1) (bits w 1 1)⟩
/-- Words of opcode 0x1a of the V slots. -/
def identVOp1A (w : Word32) : Option Ident :=
  some ⟨decide (bits w 0 1 = 0#1), true, .vShr (bits w 19 6) (bits w 13 6) (bits w 7 6) (bits w 6 1) (bits w 3 3) (bits w 2 1) (bits w 1 1)⟩
/-- Words of opcode 0x1b of the V slots. -/
def identVOp1B (w : Word32) : Option Ident :=
  some ⟨decide (bits w 0 1 = 0#1), true, .vSra (bits w 19 6) (bits w 13 6) (bits w 7 6) (bits w 6 1) (bits w 3 3) (bits w 2 1) (bits w 1 1)⟩
/-- Words of opcode 0x1c of the V slots. -/
def identVOp1C (w : Word32) : Option Ident :=
  some ⟨decide (bits w 0 1 = 0#1), true, .vMin (bits w 19 6) (bits w 13 6) (bits w 7 6) (bits w 6 1) (bits w 3 3) (bits w 2 1) (bits w 1 1)⟩
/-- Words of opcode 0x1d of the V slots. -/
def identVOp1D (w : Word32) : Option Ident :=
  some ⟨decide (bits w 0 1 = 0#1), true, .vMax (bits w 19 6) (bits w 13 6) (bits w 7 6) (bits w 6 1) (bits w 3 3) (bits w 2 1) (bits w 1 1)⟩
/-- Words of opcode 0x1e of the V slots. -/
def identVOp1E (w : Word32) : Option Ident :=
  some ⟨decide (bits w 0 1 = 0#1), true, .vMinu (bits w 19 6) (bits w 13 6) (bits w 7 6) (bits w 6 1) (bits w 3 3) (bits w 2 1) (bits w 1 1)⟩
/-- Words of opcode 0x1f of the V slots. -/
def identVOp1F (w : Word32) : Option Ident :=
  some ⟨decide (bits w 0 1 = 0#1), true, .vMaxu (bits w 19 6) (bits w 13 6) (bits w 7 6) (bits w 6 1) (bits w 3 3) (bits w 2 1) (bits w 1 1)⟩
/-- Words of opcode 0x20 of the V slots. -/
def identVOp20 (w : Word32) : Option Ident :=
  some ⟨decide (bits w 0 1 = 0#1), true, .vDiv (bits w 19 6) (bits w 13 6) (bits w 7 6) (bits w 6 1) (bits w 3 3) (bits w 2 1) (bits w 1 1)⟩
/-- Words of opcode 0x21 of the V slots. -/
def identVOp21 (w : Word32) : Option Ident :=
  some ⟨decide (bits w 0 1 = 0#1), true, .vDivu (bits w 19 6) (bits w 13 6) (bits w 7 6) (bits w 6 1) (bits w 3 3) (bits w 2 1) (bits w 1 1)⟩
/-- Words of opcode 0x22 of the V slots. -/
def identVOp22 (w : Word32) : Option Ident :=
  some ⟨decide (bits w 0 1 = 0#1), true, .vRem (bits w 19 6) (bits w 13 6) (bits w 7 6) (bits w 6 1) (bits w 3 3) (bits w 2 1) (bits w 1 1)⟩
/-- Words of opcode 0x23 of the V slots. -/
def identVOp23 (w : Word32) : Option Ident :=
  some ⟨decide (bits w 0 1 = 0#1), true, .vRemu (bits w 19 6) (bits w 13 6) (bits w 7 6) (bits w 6 1) (bits w 3 3) (bits w 2 1) (bits w 1 1)⟩
/-- Words of opcode 0x24 of the V slots. -/
def identVOp24 (w : Word32) : Option Ident :=
  some ⟨decide (bits w 0 1 = 0#1), true, .vIcmpEq (bits w 19 6) (bits w 13 6) (bits w 7 6) (bits w 6 1) (bits w 3 3) (bits w 2 1) (bits w 1 1)⟩
/-- Words of opcode 0x25 of the V slots. -/
def identVOp25 (w : Word32) : Option Ident :=
  some ⟨decide (bits w 0 1 = 0#1), true, .vIcmpLt (bits w 19 6) (bits w 13 6) (bits w 7 6) (bits w 6 1) (bits w 3 3) (bits w 2 1) (bits w 1 1)⟩
/-- Words of opcode 0x26 of the V slots. -/
def identVOp26 (w : Word32) : Option Ident :=
  some ⟨decide (bits w 0 1 = 0#1), true, .vIcmpLtu (bits w 19 6) (bits w 13 6) (bits w 7 6) (bits w 6 1) (bits w 3 3) (bits w 2 1) (bits w 1 1)⟩
/-- Words of opcode 0x27 of the V slots. -/
def identVOp27 (w : Word32) : Option Ident :=
  some ⟨decide (bits w 0 2 = 0#2), true, .vShli (bits w 19 6) (bits w 13 6) (bits w 7 6) (bits w 6 1) (bits w 3 3) (bits w 2 1)⟩
/-- Words of opcode 0x28 of the V slots. -/
def identVOp28 (w : Word32) : Option Ident :=
  some ⟨decide (bits w 0 2 = 0#2), true, .vShri (bits w 19 6) (bits w 13 6) (bits w 7 6) (bits w 6 1) (bits w 3 3) (bits w 2 1)⟩
/-- Words of opcode 0x29 of the V slots. -/
def identVOp29 (w : Word32) : Option Ident :=
  some ⟨decide (bits w 0 2 = 0#2), true, .vSrai (bits w 19 6) (bits w 13 6) (bits w 7 6) (bits w 6 1) (bits w 3 3) (bits w 2 1)⟩
/-- Words of opcode 0x2a of the V slots. -/
def identVOp2A (w : Word32) : Option Ident :=
  some ⟨true, true, .vWmacS8 (bits w 19 6) (bits w 13 6) (bits w 7 6) (bits w 6 1) (bits w 3 3) (bits w 2 1) (bits w 1 1) (bits w 0 1)⟩
/-- Words of opcode 0x2b of the V slots. -/
def identVOp2B (w : Word32) : Option Ident :=
  some ⟨true, true, .vWmacU8 (bits w 19 6) (bits w 13 6) (bits w 7 6) (bits w 6 1) (bits w 3 3) (bits w 2 1) (bits w 1 1) (bits w 0 1)⟩
/-- Words of opcode 0x2c of the V slots. -/
def identVOp2C (w : Word32) : Option Ident :=
  some ⟨true, true, .vWmacS16 (bits w 19 6) (bits w 13 6) (bits w 7 6) (bits w 6 1) (bits w 3 3) (bits w 2 1) (bits w 1 1) (bits w 0 1)⟩
/-- Words of opcode 0x2d of the V slots. -/
def identVOp2D (w : Word32) : Option Ident :=
  some ⟨true, true, .vWmacU16 (bits w 19 6) (bits w 13 6) (bits w 7 6) (bits w 6 1) (bits w 3 3) (bits w 2 1) (bits w 1 1) (bits w 0 1)⟩
/-- Words of opcode 0x2e of the V slots. -/
def identVOp2E (w : Word32) : Option Ident :=
  some ⟨true, true, .vWmacS8Sat (bits w 19 6) (bits w 13 6) (bits w 7 6) (bits w 6 1) (bits w 3 3) (bits w 2 1) (bits w 1 1) (bits w 0 1)⟩
/-- Words of opcode 0x2f of the V slots. -/
def identVOp2F (w : Word32) : Option Ident :=
  some ⟨true, true, .vWmacU8Sat (bits w 19 6) (bits w 13 6) (bits w 7 6) (bits w 6 1) (bits w 3 3) (bits w 2 1) (bits w 1 1) (bits w 0 1)⟩
/-- Words of opcode 0x30 of the V slots. -/
def identVOp30 (w : Word32) : Option Ident :=
  some ⟨true, true, .vWmacS16Sat (bits w 19 6) (bits w 13 6) (bits w 7 6) (bits w 6 1) (bits w 3 3) (bits w 2 1) (bits w 1 1) (bits w 0 1)⟩
/-- Words of opcode 0x31 of the V slots. -/
def identVOp31 (w : Word32) : Option Ident :=
  some ⟨true, true, .vWmacU16Sat (bits w 19 6) (bits w 13 6) (bits w 7 6) (bits w 6 1) (bits w 3 3) (bits w 2 1) (bits w 1 1) (bits w 0 1)⟩
/-- Words of opcode 0x32 of the V slots. -/
def identVOp32 (w : Word32) : Option Ident :=
  if bits w 6 1 = 0x1#1 then some ⟨decide (bits w 0 1 = 0#1), true, .vsel (bits w 19 6) (bits w 13 6) (bits w 7 6) (bits w 3 3) (bits w 2 1) (bits w 1 1)⟩
  else none
/-- Words of opcode 0x33 of the V slots. -/
def identVOp33 (w : Word32) : Option Ident :=
  some ⟨decide (bits w 7 6 = 0#6 ∧ bits w 0 2 = 0#2), true, .vptst (bits w 19 6) (bits w 13 6) (bits w 6 1) (bits w 3 3) (bits w 2 1)⟩
/-- Words of opcode 0x40 of the V slots. -/
def identVOp40 (w : Word32) : Option Ident :=
  some ⟨decide (bits w 7 6 = 0#6 ∧ bits w 0 2 = 0#2), true, .vmov (bits w 19 6) (bits w 13 6) (bits w 6 1) (bits w 3 3) (bits w 2 1)⟩
/-- Words of opcode 0x41 of the V slots. -/
def identVOp41 (w : Word32) : Option Ident :=
  some ⟨decide (bits w 0 2 = 0#2), true, .cvtTo (bits w 19 6) (bits w 13 6) (bits w 7 6) (bits w 6 1) (bits w 3 3) (bits w 2 1)⟩
/-- Words of opcode 0x42 of the V slots. -/
def identVOp42 (w : Word32) : Option Ident :=
  some ⟨decide (bits w 0 2 = 0#2), true, .cvtFrom (bits w 19 6) (bits w 13 6) (bits w 7 6) (bits w 6 1) (bits w 3 3) (bits w 2 1)⟩
/-- Words of opcode 0x43 of the V slots. -/
def identVOp43 (w : Word32) : Option Ident :=
  some ⟨decide (bits w 0 2 = 0#2), true, .cvtIto (bits w 19 6) (bits w 13 6) (bits w 7 6) (bits w 6 1) (bits w 3 3) (bits w 2 1)⟩
/-- Words of opcode 0x44 of the V slots. -/
def identVOp44 (w : Word32) : Option Ident :=
  some ⟨decide (bits w 0 2 = 0#2), true, .vrotR (bits w 19 6) (bits w 13 6) (bits w 7 6) (bits w 6 1) (bits w 3 3) (bits w 2 1)⟩
/-- Words of opcode 0x45 of the V slots. -/
def identVOp45 (w : Word32) : Option Ident :=
  some ⟨decide (bits w 0 2 = 0#2), true, .vrotC (bits w 19 6) (bits w 13 6) (bits w 7 6) (bits w 6 1) (bits w 3 3) (bits w 2 1)⟩
/-- Words of opcode 0x46 of the V slots. -/
def identVOp46 (w : Word32) : Option Ident :=
  some ⟨decide (bits w 0 2 = 0#2), true, .vbcc (bits w 19 6) (bits w 13 6) (bits w 7 6) (bits w 6 1) (bits w 3 3) (bits w 2 1)⟩
/-- Words of opcode 0x47 of the V slots. -/
def identVOp47 (w : Word32) : Option Ident :=
  some ⟨decide (bits w 0 2 = 0#2), true, .vbcr (bits w 19 6) (bits w 13 6) (bits w 7 6) (bits w 6 1) (bits w 3 3) (bits w 2 1)⟩
/-- Words of opcode 0x48 of the V slots. -/
def identVOp48 (w : Word32) : Option Ident :=
  some ⟨decide (bits w 0 2 = 0#2), true, .vredR (bits w 19 6) (bits w 13 6) (bits w 7 6) (bits w 6 1) (bits w 3 3) (bits w 2 1)⟩
/-- Words of opcode 0x49 of the V slots. -/
def identVOp49 (w : Word32) : Option Ident :=
  some ⟨decide (bits w 0 2 = 0#2), true, .vredC (bits w 19 6) (bits w 13 6) (bits w 7 6) (bits w 6 1) (bits w 3 3) (bits w 2 1)⟩
/-- Words of opcode 0x4a of the V slots. -/
def identVOp4A (w : Word32) : Option Ident :=
  some ⟨decide (bits w 0 2 = 0#2), true, .vscanR (bits w 19 6) (bits w 13 6) (bits w 7 6) (bits w 6 1) (bits w 3 3) (bits w 2 1)⟩
/-- Words of opcode 0x4b of the V slots. -/
def identVOp4B (w : Word32) : Option Ident :=
  some ⟨decide (bits w 0 2 = 0#2), true, .vscanC (bits w 19 6) (bits w 13 6) (bits w 7 6) (bits w 6 1) (bits w 3 3) (bits w 2 1)⟩
/-- Words of opcode 0x60 of the V slots. R192 and R252 let a hold stand on a v source that is read, and a case of 15_directional_and_log.md
gives `dnorm d2, v8.h` RESERVED_BITS: the hold is accepted, by the model's choice (log entry 78). -/
def identVOp60 (w : Word32) : Option Ident :=
  if bits w 6 1 = 0x0#1 then some ⟨decide (bits w 7 6 = 0#6 ∧ bits w 3 3 = 0#3 ∧ bits w 0 2 = 0#2), true, .dnorm (bits w 19 6) (bits w 13 6) (bits w 2 1)⟩
  else none
/-- Words of opcode 0x61 of the V slots. -/
def identVOp61 (w : Word32) : Option Ident :=
  some ⟨decide (bits w 7 6 = 0#6 ∧ bits w 0 3 = 0#3), true, .dexp (bits w 19 6) (bits w 13 6) (bits w 6 1) (bits w 3 3)⟩
/-- Words of opcode 0x62 of the V slots. -/
def identVOp62 (w : Word32) : Option Ident :=
  some ⟨decide (bits w 0 3 = 0#3), true, .ddot (bits w 19 6) (bits w 13 6) (bits w 7 6) (bits w 6 1) (bits w 3 3)⟩
/-- Words of opcode 0x63 of the V slots. -/
def identVOp63 (w : Word32) : Option Ident :=
  some ⟨decide (bits w 0 3 = 0#3), true, .ddotn (bits w 19 6) (bits w 13 6) (bits w 7 6) (bits w 6 1) (bits w 3 3)⟩
/-- Words of opcode 0x64 of the V slots. -/
def identVOp64 (w : Word32) : Option Ident :=
  if bits w 6 1 = 0x0#1 then some ⟨decide (bits w 0 6 = 0#6), true, .dadd (bits w 19 6) (bits w 13 6) (bits w 7 6)⟩
  else none
/-- Words of opcode 0x65 of the V slots. -/
def identVOp65 (w : Word32) : Option Ident :=
  if bits w 6 1 = 0x0#1 then some ⟨decide (bits w 0 6 = 0#6), true, .dsub (bits w 19 6) (bits w 13 6) (bits w 7 6)⟩
  else none
/-- Words of opcode 0x66 of the V slots. -/
def identVOp66 (w : Word32) : Option Ident :=
  if bits w 6 1 = 0x0#1 then some ⟨decide (bits w 2 4 = 0#4 ∧ bits w 0 1 = 0#1), true, .dscl (bits w 19 6) (bits w 13 6) (bits w 7 6) (bits w 1 1)⟩
  else none
/-- Words of opcode 0x67 of the V slots. -/
def identVOp67 (w : Word32) : Option Ident :=
  if bits w 6 1 = 0x0#1 then some ⟨decide (bits w 0 6 = 0#6), true, .dscli (bits w 19 6) (bits w 13 6) (bits w 7 6)⟩
  else none
/-- Words of opcode 0x68 of the V slots. -/
def identVOp68 (w : Word32) : Option Ident :=
  if bits w 6 1 = 0x0#1 then some ⟨decide (bits w 0 6 = 0#6), true, .dtst (bits w 19 6) (bits w 13 6) (bits w 7 6)⟩
  else none
/-- Words of opcode 0x69 of the V slots. -/
def identVOp69 (w : Word32) : Option Ident :=
  some ⟨decide (bits w 7 6 = 0#6 ∧ bits w 0 3 = 0#3), true, .dcomp (bits w 19 6) (bits w 13 6) (bits w 6 1) (bits w 3 3)⟩
/-- Words of opcode 0x6a of the V slots. -/
def identVOp6A (w : Word32) : Option Ident :=
  some ⟨decide (bits w 7 6 = 0#6 ∧ bits w 0 3 = 0#3), true, .dnget (bits w 19 6) (bits w 13 6) (bits w 6 1) (bits w 3 3)⟩
/-- Words of opcode 0x6b of the V slots. -/
def identVOp6B (w : Word32) : Option Ident :=
  some ⟨decide (bits w 0 2 = 0#2), true, .lcvt (bits w 19 6) (bits w 13 6) (bits w 7 6) (bits w 6 1) (bits w 3 3) (bits w 2 1)⟩
/-- Words of opcode 0x6c of the V slots. -/
def identVOp6C (w : Word32) : Option Ident :=
  some ⟨decide (bits w 0 1 = 0#1), true, .lmul (bits w 19 6) (bits w 13 6) (bits w 7 6) (bits w 6 1) (bits w 3 3) (bits w 2 1) (bits w 1 1)⟩
/-- Words of opcode 0x6d of the V slots. -/
def identVOp6D (w : Word32) : Option Ident :=
  some ⟨decide (bits w 0 1 = 0#1), true, .ldiv (bits w 19 6) (bits w 13 6) (bits w 7 6) (bits w 6 1) (bits w 3 3) (bits w 2 1) (bits w 1 1)⟩
/-- Words of opcode 0x6e of the V slots. -/
def identVOp6E (w : Word32) : Option Ident :=
  if bits w 10 2 = 0x0#2 then some ⟨decide (bits w 0 2 = 0#2), true, .lsh (bits w 19 6) (bits w 13 6) (bits w 12 1) (bits w 7 3) (bits w 6 1) (bits w 3 3) (bits w 2 1)⟩
  else none
/-- Words of opcode 0x6f of the V slots. -/
def identVOp6F (w : Word32) : Option Ident :=
  some ⟨decide (bits w 0 2 = 0#2), true, .lfn (bits w 19 6) (bits w 13 6) (bits w 7 6) (bits w 6 1) (bits w 3 3) (bits w 2 1)⟩

/-- The instruction a word of the V slots names, before the checks of R187. -/
def identV (w : Word32) : Option Ident :=
  match (bits w 25 7).toNat with
  | 1 => identVOp01 w
  | 2 => identVOp02 w
  | 3 => identVOp03 w
  | 4 => identVOp04 w
  | 5 => identVOp05 w
  | 6 => identVOp06 w
  | 7 => identVOp07 w
  | 8 => identVOp08 w
  | 9 => identVOp09 w
  | 10 => identVOp0A w
  | 11 => identVOp0B w
  | 12 => identVOp0C w
  | 13 => identVOp0D w
  | 14 => identVOp0E w
  | 16 => identVOp10 w
  | 17 => identVOp11 w
  | 18 => identVOp12 w
  | 19 => identVOp13 w
  | 20 => identVOp14 w
  | 21 => identVOp15 w
  | 22 => identVOp16 w
  | 23 => identVOp17 w
  | 24 => identVOp18 w
  | 25 => identVOp19 w
  | 26 => identVOp1A w
  | 27 => identVOp1B w
  | 28 => identVOp1C w
  | 29 => identVOp1D w
  | 30 => identVOp1E w
  | 31 => identVOp1F w
  | 32 => identVOp20 w
  | 33 => identVOp21 w
  | 34 => identVOp22 w
  | 35 => identVOp23 w
  | 36 => identVOp24 w
  | 37 => identVOp25 w
  | 38 => identVOp26 w
  | 39 => identVOp27 w
  | 40 => identVOp28 w
  | 41 => identVOp29 w
  | 42 => identVOp2A w
  | 43 => identVOp2B w
  | 44 => identVOp2C w
  | 45 => identVOp2D w
  | 46 => identVOp2E w
  | 47 => identVOp2F w
  | 48 => identVOp30 w
  | 49 => identVOp31 w
  | 50 => identVOp32 w
  | 51 => identVOp33 w
  | 64 => identVOp40 w
  | 65 => identVOp41 w
  | 66 => identVOp42 w
  | 67 => identVOp43 w
  | 68 => identVOp44 w
  | 69 => identVOp45 w
  | 70 => identVOp46 w
  | 71 => identVOp47 w
  | 72 => identVOp48 w
  | 73 => identVOp49 w
  | 74 => identVOp4A w
  | 75 => identVOp4B w
  | 96 => identVOp60 w
  | 97 => identVOp61 w
  | 98 => identVOp62 w
  | 99 => identVOp63 w
  | 100 => identVOp64 w
  | 101 => identVOp65 w
  | 102 => identVOp66 w
  | 103 => identVOp67 w
  | 104 => identVOp68 w
  | 105 => identVOp69 w
  | 106 => identVOp6A w
  | 107 => identVOp6B w
  | 108 => identVOp6C w
  | 109 => identVOp6D w
  | 110 => identVOp6E w
  | 111 => identVOp6F w
  | _ => none

/-- Words of opcode 0x01 of the X slot. -/
def identXOp01 (w : Word32) : Option Ident :=
  some ⟨decide (bits w 0 26 = 0#26), true, .xNop⟩
/-- Words of opcode 0x02 of the X slot. -/
def identXOp02 (w : Word32) : Option Ident :=
  if bits w 16 2 = 0x0#2 then some ⟨decide (bits w 15 1 = 0#1 ∧ bits w 0 11 = 0#11), decide (bits w 11 4 = 0#4), .vqpop (bits w 20 6) (bits w 19 1) (bits w 18 1)⟩
  else if bits w 16 2 = 0x1#2 then some ⟨decide (bits w 15 1 = 0#1 ∧ bits w 0 11 = 0#11), decide (bits w 11 4 = 0#4), .vqpopPeek (bits w 20 6) (bits w 19 1) (bits w 18 1)⟩
  else if bits w 16 2 = 0x2#2 then some ⟨decide (bits w 15 1 = 0#1 ∧ bits w 0 11 = 0#11), true, .vqpopNr (bits w 20 6) (bits w 19 1) (bits w 18 1) (bits w 11 4)⟩
  else none
/-- Words of opcode 0x03 of the X slot. -/
def identXOp03 (w : Word32) : Option Ident :=
  if bits w 17 1 = 0x0#1 then some ⟨decide (bits w 16 1 = 0#1 ∧ bits w 0 12 = 0#12), decide (bits w 12 4 = 0#4), .rqpop (bits w 20 6) (bits w 18 2)⟩
  else if bits w 17 1 = 0x1#1 then some ⟨decide (bits w 16 1 = 0#1 ∧ bits w 0 12 = 0#12), true, .rqpopNr (bits w 20 6) (bits w 18 2) (bits w 12 4)⟩
  else none
/-- Words of opcode 0x04 of the X slot. -/
def identXOp04 (w : Word32) : Option Ident :=
  if bits w 14 3 = 0x0#3 then some ⟨decide (bits w 0 14 = 0#14), true, .kand (bits w 23 3) (bits w 20 3) (bits w 17 3)⟩
  else if bits w 14 3 = 0x1#3 then some ⟨decide (bits w 0 14 = 0#14), true, .kor (bits w 23 3) (bits w 20 3) (bits w 17 3)⟩
  else if bits w 14 3 = 0x2#3 then some ⟨decide (bits w 0 14 = 0#14), true, .kxor (bits w 23 3) (bits w 20 3) (bits w 17 3)⟩
  else if bits w 14 3 = 0x3#3 then some ⟨decide (bits w 0 14 = 0#14), true, .kandn (bits w 23 3) (bits w 20 3) (bits w 17 3)⟩
  else if bits w 14 3 = 0x4#3 then some ⟨decide (bits w 17 3 = 0#3 ∧ bits w 0 14 = 0#14), true, .knot (bits w 23 3) (bits w 20 3)⟩
  else if bits w 14 3 = 0x5#3 then some ⟨decide (bits w 17 6 = 0#6 ∧ bits w 0 14 = 0#14), true, .kset (bits w 23 3)⟩
  else if bits w 14 3 = 0x6#3 then some ⟨decide (bits w 17 6 = 0#6 ∧ bits w 0 14 = 0#14), true, .kclr (bits w 23 3)⟩
  else none
/-- Words of opcode 0x05 of the X slot. -/
def identXOp05 (w : Word32) : Option Ident :=
  if bits w 18 1 = 0x0#1 then some ⟨decide (bits w 0 18 = 0#18), true, .kany (bits w 22 4) (bits w 19 3)⟩
  else if bits w 18 1 = 0x1#1 then some ⟨decide (bits w 0 18 = 0#18), true, .kall (bits w 22 4) (bits w 19 3)⟩
  else none
/-- Words of opcode 0x06 of the X slot. -/
def identXOp06 (w : Word32) : Option Ident :=
  some ⟨decide (bits w 0 19 = 0#19), true, .sset (bits w 22 4) (bits w 20 2) (bits w 19 1)⟩
/-- Words of opcode 0x07 of the X slot. -/
def identXOp07 (w : Word32) : Option Ident :=
  if bits w 17 1 = 0x0#1 then some ⟨decide (bits w 0 17 = 0#17), true, .sbind (bits w 25 1) (bits w 22 3) (bits w 18 4)⟩
  else if bits w 17 1 = 0x1#1 then some ⟨decide (bits w 18 4 = 0#4 ∧ bits w 0 17 = 0#17), true, .sunbind (bits w 25 1) (bits w 22 3)⟩
  else none
/-- Words of opcode 0x08 of the X slot. -/
def identXOp08 (w : Word32) : Option Ident :=
  some ⟨decide (bits w 0 19 = 0#19), true, .qrdy (bits w 22 4) (bits w 19 3)⟩
/-- Words of opcode 0x10 of the X slot. -/
def identXOp10 (w : Word32) : Option Ident :=
  some ⟨true, true, .xBr (bits w 25 1) (bits w 21 4) (bits w 0 21)⟩
/-- Words of opcode 0x13 of the X slot. -/
def identXOp13 (w : Word32) : Option Ident :=
  some ⟨decide (bits w 25 1 = 0#1 ∧ bits w 23 1 = 0#1), true, .xLoop (bits w 24 1) (bits w 21 2) (bits w 0 21)⟩
/-- Words of opcode 0x15 of the X slot. -/
def identXOp15 (w : Word32) : Option Ident :=
  some ⟨decide (bits w 23 2 = 0#2 ∧ bits w 16 5 = 0#5), true, .xLcseti (bits w 25 1) (bits w 21 2) (bits w 13 3) (bits w 0 13)⟩
/-- Words of opcode 0x18 of the X slot. -/
noncomputable def identXOp18 (w : Word32) : Option Ident :=
  if bits w 25 1 = 0x0#1 then some ⟨decide (bits w 11 14 = 0#14), true, .xTokPut (bits w 8 3) (bits w 0 8)⟩
  else if bits w 25 1 = 0x1#1 then some ⟨decide (bits w 11 14 = 0#14), true, .xTokGet (bits w 8 3) (bits w 0 8)⟩
  else none
/-- Words of opcode 0x1c of the X slot. -/
def identXOp1C (w : Word32) : Option Ident :=
  if bits w 0 1 = 0x0#1 then some ⟨decide (bits w 1 25 = 0#25), true, .swap⟩
  else if bits w 0 1 = 0x1#1 then some ⟨decide (bits w 1 25 = 0#25), true, .xYield⟩
  else none
/-- Words of opcode 0x1e of the X slot. -/
noncomputable def identXOp1E (w : Word32) : Option Ident :=
  some ⟨decide (bits w 8 18 = 0#18), true, .phaseBegin (bits w 0 8)⟩

/-- The instruction a word of the X slot names, before the checks of R187. -/
noncomputable def identX (w : Word32) : Option Ident :=
  match (bits w 26 6).toNat with
  | 1 => identXOp01 w
  | 2 => identXOp02 w
  | 3 => identXOp03 w
  | 4 => identXOp04 w
  | 5 => identXOp05 w
  | 6 => identXOp06 w
  | 7 => identXOp07 w
  | 8 => identXOp08 w
  | 16 => identXOp10 w
  | 19 => identXOp13 w
  | 21 => identXOp15 w
  | 24 => identXOp18 w
  | 28 => identXOp1C w
  | 30 => identXOp1E w
  | _ => none

/-- Words of opcode 0x01 of the load and store sequencers. -/
def identEngineControlOp01 (w : Word32) : Option Ident :=
  some ⟨decide (bits w 0 26 = 0#26), true, .eNop⟩
/-- Words of opcode 0x02 of the load and store sequencers. -/
noncomputable def identEngineControlOp02 (w : Word32) : Option Ident :=
  some ⟨decide (bits w 25 1 = 0#1 ∧ bits w 23 1 = 0#1), true, .eLoop (bits w 24 1) (bits w 21 2) (bits w 0 21)⟩
/-- Words of opcode 0x03 of the load and store sequencers. -/
noncomputable def identEngineControlOp03 (w : Word32) : Option Ident :=
  some ⟨decide (bits w 23 2 = 0#2 ∧ bits w 16 5 = 0#5), true, .eLcseti (bits w 25 1) (bits w 21 2) (bits w 13 3) (bits w 0 13)⟩
/-- Words of opcode 0x04 of the load and store sequencers. -/
noncomputable def identEngineControlOp04 (w : Word32) : Option Ident :=
  some ⟨true, true, .eBr (bits w 25 1) (bits w 21 4) (bits w 0 21)⟩
/-- Words of opcode 0x06 of the load and store sequencers. -/
noncomputable def identEngineControlOp06 (w : Word32) : Option Ident :=
  if bits w 25 1 = 0x0#1 then some ⟨decide (bits w 11 14 = 0#14), true, .eTokPut (bits w 8 3) (bits w 0 8)⟩
  else if bits w 25 1 = 0x1#1 then some ⟨decide (bits w 11 14 = 0#14), true, .eTokGet (bits w 8 3) (bits w 0 8)⟩
  else none
/-- Words of opcode 0x07 of the load and store sequencers. -/
noncomputable def identEngineControlOp07 (w : Word32) : Option Ident :=
  if bits w 24 2 = 0x0#2 then some ⟨decide (bits w 12 11 = 0#11), true, .tagwAny (bits w 23 1) (bits w 6 6) (bits w 0 6)⟩
  else if bits w 24 2 = 0x1#2 then some ⟨decide (bits w 12 11 = 0#11), true, .tagwAll (bits w 23 1) (bits w 6 6) (bits w 0 6)⟩
  else if bits w 24 2 = 0x2#2 then some ⟨decide (bits w 12 7 = 0#7), true, .tagwTst (bits w 23 1) (bits w 19 4) (bits w 6 6) (bits w 0 6)⟩
  else none
/-- Words of opcode 0x08 of the load and store sequencers. -/
def identEngineControlOp08 (w : Word32) : Option Ident :=
  if bits w 0 1 = 0x0#1 then some ⟨decide (bits w 1 25 = 0#25), true, .eSwap⟩
  else if bits w 0 1 = 0x1#1 then some ⟨decide (bits w 1 25 = 0#25), true, .eYield⟩
  else none

/-- The instruction a word of the load and store sequencers names, before the checks of R187. -/
noncomputable def identEngineControl (w : Word32) : Option Ident :=
  match (bits w 26 6).toNat with
  | 1 => identEngineControlOp01 w
  | 2 => identEngineControlOp02 w
  | 3 => identEngineControlOp03 w
  | 4 => identEngineControlOp04 w
  | 6 => identEngineControlOp06 w
  | 7 => identEngineControlOp07 w
  | 8 => identEngineControlOp08 w
  | _ => none

/-- Words of opcode 0x01 of the M slot. -/
def identMControlOp01 (w : Word32) : Option Ident :=
  some ⟨decide (bits w 0 26 = 0#26), true, .mNop⟩
/-- Words of opcode 0x02 of the M slot. -/
noncomputable def identMControlOp02 (w : Word32) : Option Ident :=
  some ⟨decide (bits w 0 24 = 0#24), true, .accClr (bits w 24 2)⟩
/-- Words of opcode 0x03 of the M slot. -/
noncomputable def identMControlOp03 (w : Word32) : Option Ident :=
  some ⟨decide (bits w 0 7 = 0#7), true, .accLd (bits w 24 2) (bits w 18 6) (bits w 15 3) (bits w 7 8)⟩
/-- Words of opcode 0x04 of the M slot. -/
noncomputable def identMControlOp04 (w : Word32) : Option Ident :=
  some ⟨decide (bits w 0 7 = 0#7), true, .accSt (bits w 24 2) (bits w 18 6) (bits w 15 3) (bits w 7 8)⟩
/-- Words of opcode 0x05 of the M slot. -/
noncomputable def identMControlOp05 (w : Word32) : Option Ident :=
  some ⟨decide (bits w 0 22 = 0#22), true, .accMov (bits w 24 2) (bits w 22 2)⟩
/-- Words of opcode 0x06 of the M slot. -/
noncomputable def identMControlOp06 (w : Word32) : Option Ident :=
  some ⟨decide (bits w 0 16 = 0#16), true, .accTov (bits w 20 6) (bits w 18 2) (bits w 16 2)⟩
/-- Words of opcode 0x07 of the M slot. -/
noncomputable def identMControlOp07 (w : Word32) : Option Ident :=
  some ⟨decide (bits w 0 16 = 0#16), true, .accFromv (bits w 24 2) (bits w 22 2) (bits w 16 6)⟩
/-- Words of opcode 0x08 of the M slot. -/
noncomputable def identMControlOp08 (w : Word32) : Option Ident :=
  some ⟨decide (bits w 0 11 = 0#11), true, .mpush (bits w 24 2) (bits w 18 6) (bits w 12 6) (bits w 11 1)⟩
/-- Words of opcode 0x09 of the M slot. -/
noncomputable def identMControlOp09 (w : Word32) : Option Ident :=
  if bits w 25 1 = 0x0#1 then some ⟨decide (bits w 0 23 = 0#23), true, .mwait (bits w 23 2)⟩
  else if bits w 25 1 = 0x1#1 then some ⟨decide (bits w 0 25 = 0#25), true, .mwaitAll⟩
  else none

/-- The instruction a word of the M slot names, before the checks of R187. -/
noncomputable def identMControl (w : Word32) : Option Ident :=
  match (bits w 26 6).toNat with
  | 1 => identMControlOp01 w
  | 2 => identMControlOp02 w
  | 3 => identMControlOp03 w
  | 4 => identMControlOp04 w
  | 5 => identMControlOp05 w
  | 6 => identMControlOp06 w
  | 7 => identMControlOp07 w
  | 8 => identMControlOp08 w
  | 9 => identMControlOp09 w
  | _ => none

/-- An engine word: a patch word when bit 31 is 1 (R196). -/
noncomputable def identEngine (w : Word32) : Option Ident :=
  if bits w 31 1 = 1#1 then some ⟨true, true, .patch (bits w 25 6) (bits w 20 5) (bits w 4 16) (bits w 3 1) (bits w 2 1) (bits w 1 1) (bits w 0 1)⟩
  else identEngineControl w

/-- An M-slot word: a patch word when bit 31 is 1 (R194). -/
noncomputable def identM (w : Word32) : Option Ident :=
  if bits w 31 1 = 1#1 then some ⟨true, true, .patchM (bits w 25 6) (bits w 20 5) (bits w 4 16) (bits w 3 1) (bits w 2 1) (bits w 1 1) (bits w 0 1)⟩
  else identMControl w

/-- The instruction a word names in an opcode space. -/
noncomputable def ident (sp : Space) (w : Word32) : Option Ident :=
  match sp with
  | .control => identControl w
  | .load => identEngine w
  | .store => identEngine w
  | .v0 => identV w
  | .v1 => identV w
  | .m => identM w
  | .x => identX w

/-- The decode of one word by the checks of R187, orders 1 to 3, in their order. -/
noncomputable def decode (sp : Space) (w : Word32) : Except DecodeFault Instr :=
  match ident sp w with
  | none => .error .illegal
  | some r =>
    if r.instr.illegalField then .error .illegal
    else if !r.reservedOk || r.instr.reservedField then .error .reservedBits
    else if !r.registerOk || r.instr.badRegister sp then .error .badRegister
    else .ok r.instr

/-- The word of an instruction, from its encoding in the spec; none for rows that have no word. -/
def encode : Instr → Option Word32
  | .nop => some (0x1#6 ++ 0#26 : BitVec 32)
  | .add d a b => some (0x2#6 ++ d ++ a ++ b ++ 0x0#11 : BitVec 32)
  | .sub d a b => some (0x2#6 ++ d ++ a ++ b ++ 0x1#11 : BitVec 32)
  | .and d a b => some (0x2#6 ++ d ++ a ++ b ++ 0x2#11 : BitVec 32)
  | .or d a b => some (0x2#6 ++ d ++ a ++ b ++ 0x3#11 : BitVec 32)
  | .xor d a b => some (0x2#6 ++ d ++ a ++ b ++ 0x4#11 : BitVec 32)
  | .andn d a b => some (0x2#6 ++ d ++ a ++ b ++ 0x5#11 : BitVec 32)
  | .shl d a b => some (0x2#6 ++ d ++ a ++ b ++ 0x6#11 : BitVec 32)
  | .shr d a b => some (0x2#6 ++ d ++ a ++ b ++ 0x7#11 : BitVec 32)
  | .sra d a b => some (0x2#6 ++ d ++ a ++ b ++ 0x8#11 : BitVec 32)
  | .rol d a b => some (0x2#6 ++ d ++ a ++ b ++ 0x9#11 : BitVec 32)
  | .mul d a b => some (0x2#6 ++ d ++ a ++ b ++ 0xa#11 : BitVec 32)
  | .mulh d a b => some (0x2#6 ++ d ++ a ++ b ++ 0xb#11 : BitVec 32)
  | .mulhu d a b => some (0x2#6 ++ d ++ a ++ b ++ 0xc#11 : BitVec 32)
  | .div d a b => some (0x2#6 ++ d ++ a ++ b ++ 0xd#11 : BitVec 32)
  | .divu d a b => some (0x2#6 ++ d ++ a ++ b ++ 0xe#11 : BitVec 32)
  | .rem d a b => some (0x2#6 ++ d ++ a ++ b ++ 0xf#11 : BitVec 32)
  | .remu d a b => some (0x2#6 ++ d ++ a ++ b ++ 0x10#11 : BitVec 32)
  | .min d a b => some (0x2#6 ++ d ++ a ++ b ++ 0x11#11 : BitVec 32)
  | .max d a b => some (0x2#6 ++ d ++ a ++ b ++ 0x12#11 : BitVec 32)
  | .minu d a b => some (0x2#6 ++ d ++ a ++ b ++ 0x13#11 : BitVec 32)
  | .maxu d a b => some (0x2#6 ++ d ++ a ++ b ++ 0x14#11 : BitVec 32)
  | .adds d a b => some (0x2#6 ++ d ++ a ++ b ++ 0x15#11 : BitVec 32)
  | .subs d a b => some (0x2#6 ++ d ++ a ++ b ++ 0x16#11 : BitVec 32)
  | .clz d a => some (0x2#6 ++ d ++ a ++ 0#5 ++ 0x18#11 : BitVec 32)
  | .ctz d a => some (0x2#6 ++ d ++ a ++ 0#5 ++ 0x19#11 : BitVec 32)
  | .popc d a => some (0x2#6 ++ d ++ a ++ 0#5 ++ 0x1a#11 : BitVec 32)
  | .sextb d a => some (0x2#6 ++ d ++ a ++ 0#5 ++ 0x1b#11 : BitVec 32)
  | .sexth d a => some (0x2#6 ++ d ++ a ++ 0#5 ++ 0x1c#11 : BitVec 32)
  | .sextw d a => some (0x2#6 ++ d ++ a ++ 0#5 ++ 0x1d#11 : BitVec 32)
  | .zextw d a => some (0x2#6 ++ d ++ a ++ 0#5 ++ 0x1e#11 : BitVec 32)
  | .addi d a i => some (0x3#6 ++ d ++ a ++ i : BitVec 32)
  | .andi d a i => some (0x4#6 ++ d ++ a ++ i : BitVec 32)
  | .ori d a i => some (0x5#6 ++ d ++ a ++ i : BitVec 32)
  | .xori d a i => some (0x6#6 ++ d ++ a ++ i : BitVec 32)
  | .shli d a n => some (0x7#6 ++ d ++ a ++ 0#8 ++ 0x0#2 ++ n : BitVec 32)
  | .shri d a n => some (0x7#6 ++ d ++ a ++ 0#8 ++ 0x1#2 ++ n : BitVec 32)
  | .srai d a n => some (0x7#6 ++ d ++ a ++ 0#8 ++ 0x2#2 ++ n : BitVec 32)
  | .roli d a n => some (0x7#6 ++ d ++ a ++ 0#8 ++ 0x3#2 ++ n : BitVec 32)
  | .movi d i => some (0x8#6 ++ d ++ i : BitVec 32)
  | .movk d h c => some (0x9#6 ++ d ++ 0#3 ++ h ++ c : BitVec 32)
  | .aset d a b => some (0xa#6 ++ d ++ a ++ b ++ 0x0#11 : BitVec 32)
  | .aadd d a b => some (0xa#6 ++ d ++ a ++ b ++ 0x1#11 : BitVec 32)
  | .asub d a b => some (0xa#6 ++ d ++ a ++ b ++ 0x2#11 : BitVec 32)
  | .alo d a => some (0xa#6 ++ d ++ a ++ 0#5 ++ 0x3#11 : BitVec 32)
  | .ahi d a => some (0xa#6 ++ d ++ a ++ 0#5 ++ 0x4#11 : BitVec 32)
  | .aand d a b => some (0xa#6 ++ d ++ a ++ b ++ 0x5#11 : BitVec 32)
  | .amov d a => some (0xa#6 ++ d ++ a ++ 0#5 ++ 0x6#11 : BitVec 32)
  | .aaddi d a i => some (0xb#6 ++ d ++ a ++ i : BitVec 32)
  | .cmpEq p a b => some (0xc#6 ++ 0#1 ++ p ++ a ++ b ++ 0x0#11 : BitVec 32)
  | .cmpNe p a b => some (0xc#6 ++ 0#1 ++ p ++ a ++ b ++ 0x1#11 : BitVec 32)
  | .cmpLt p a b => some (0xc#6 ++ 0#1 ++ p ++ a ++ b ++ 0x2#11 : BitVec 32)
  | .cmpGe p a b => some (0xc#6 ++ 0#1 ++ p ++ a ++ b ++ 0x3#11 : BitVec 32)
  | .cmpLtu p a b => some (0xc#6 ++ 0#1 ++ p ++ a ++ b ++ 0x4#11 : BitVec 32)
  | .cmpGeu p a b => some (0xc#6 ++ 0#1 ++ p ++ a ++ b ++ 0x5#11 : BitVec 32)
  | .acmpEq p a b => some (0xc#6 ++ 0#1 ++ p ++ a ++ b ++ 0x6#11 : BitVec 32)
  | .acmpLtu p a b => some (0xc#6 ++ 0#1 ++ p ++ a ++ b ++ 0x7#11 : BitVec 32)
  | .tst p a b => some (0xc#6 ++ 0#1 ++ p ++ a ++ b ++ 0x8#11 : BitVec 32)
  | .pand d a b => some (0xc#6 ++ 0#1 ++ d ++ 0#1 ++ a ++ 0#1 ++ b ++ 0x10#11 : BitVec 32)
  | .por d a b => some (0xc#6 ++ 0#1 ++ d ++ 0#1 ++ a ++ 0#1 ++ b ++ 0x11#11 : BitVec 32)
  | .pxor d a b => some (0xc#6 ++ 0#1 ++ d ++ 0#1 ++ a ++ 0#1 ++ b ++ 0x12#11 : BitVec 32)
  | .pandn d a b => some (0xc#6 ++ 0#1 ++ d ++ 0#1 ++ a ++ 0#1 ++ b ++ 0x13#11 : BitVec 32)
  | .prd d => some (0xc#6 ++ d ++ 0#10 ++ 0x14#11 : BitVec 32)
  | .pwr a => some (0xc#6 ++ 0#5 ++ a ++ 0#5 ++ 0x15#11 : BitVec 32)
  | .cmpiEq p a c => some (0xd#6 ++ 0#1 ++ p ++ a ++ 0x0#3 ++ c : BitVec 32)
  | .cmpiNe p a c => some (0xd#6 ++ 0#1 ++ p ++ a ++ 0x1#3 ++ c : BitVec 32)
  | .cmpiLt p a c => some (0xd#6 ++ 0#1 ++ p ++ a ++ 0x2#3 ++ c : BitVec 32)
  | .cmpiGe p a c => some (0xd#6 ++ 0#1 ++ p ++ a ++ 0x3#3 ++ c : BitVec 32)
  | .cmpiLtu p a c => some (0xd#6 ++ 0#1 ++ p ++ a ++ 0x4#3 ++ c : BitVec 32)
  | .cmpiGeu p a c => some (0xd#6 ++ 0#1 ++ p ++ a ++ 0x5#3 ++ c : BitVec 32)
  | .sel d a b n p => some (0xe#6 ++ d ++ a ++ b ++ 0x0#5 ++ 0#1 ++ n ++ p : BitVec 32)
  | .asel d a b n p => some (0xe#6 ++ d ++ a ++ b ++ 0x1#5 ++ 0#1 ++ n ++ p : BitVec 32)
  | .br n p o => some (0x10#6 ++ n ++ p ++ o : BitVec 32)
  | .call n p o => some (0x11#6 ++ n ++ p ++ o : BitVec 32)
  | .jmp a => some (0x12#6 ++ 0#5 ++ a ++ 0#5 ++ 0x0#11 : BitVec 32)
  | .callr a => some (0x12#6 ++ 0#5 ++ a ++ 0#5 ++ 0x1#11 : BitVec 32)
  | .loop r c o => some (0x13#6 ++ 0#1 ++ r ++ 0#1 ++ c ++ o : BitVec 32)
  | .lcset i c a d => some (0x14#6 ++ i ++ 0#2 ++ c ++ a ++ 0#13 ++ d : BitVec 32)
  | .lcseti i c d n => some (0x15#6 ++ i ++ 0#2 ++ c ++ 0#5 ++ d ++ n : BitVec 32)
  | .mset m a b => some (0x16#6 ++ 0#2 ++ m ++ a ++ b ++ 0x0#11 : BitVec 32)
  | .mrd d m => some (0x16#6 ++ d ++ 0#2 ++ m ++ 0#5 ++ 0x1#11 : BitVec 32)
  | .lcrd d c => some (0x16#6 ++ d ++ 0#3 ++ c ++ 0#5 ++ 0x2#11 : BitVec 32)
  | .lcwr c a => some (0x16#6 ++ 0#3 ++ c ++ a ++ 0#5 ++ 0x3#11 : BitVec 32)
  | .ld d a m s o => some (0x18#6 ++ d ++ a ++ 0x0#1 ++ m ++ s ++ 0#3 ++ o : BitVec 32)
  | .ldx d a m s o => some (0x19#6 ++ d ++ a ++ 0x0#1 ++ m ++ s ++ 0#3 ++ o : BitVec 32)
  | .st d a m s o => some (0x1a#6 ++ d ++ a ++ 0x0#1 ++ m ++ s ++ 0#3 ++ o : BitVec 32)
  | .sld d a m s r o => some (0x1b#6 ++ d ++ a ++ m ++ s ++ r ++ o : BitVec 32)
  | .sldx d a m s r o => some (0x1c#6 ++ d ++ a ++ m ++ s ++ r ++ o : BitVec 32)
  | .sst d a m s r o => some (0x1d#6 ++ d ++ a ++ m ++ s ++ r ++ o : BitVec 32)
  | .stDue d a c s l t g => some (0x1e#6 ++ d ++ a ++ c ++ s ++ l ++ t ++ g : BitVec 32)
  | .ldNb d a c s x t => some (0x1f#6 ++ d ++ a ++ c ++ s ++ x ++ t ++ 0#6 : BitVec 32)
  | .amoAdd d a b o c w => some (0x20#6 ++ d ++ a ++ b ++ 0x0#4 ++ o ++ c ++ w ++ 0#2 : BitVec 32)
  | .amoAnd d a b o c w => some (0x20#6 ++ d ++ a ++ b ++ 0x1#4 ++ o ++ c ++ w ++ 0#2 : BitVec 32)
  | .amoOr d a b o c w => some (0x20#6 ++ d ++ a ++ b ++ 0x2#4 ++ o ++ c ++ w ++ 0#2 : BitVec 32)
  | .amoXor d a b o c w => some (0x20#6 ++ d ++ a ++ b ++ 0x3#4 ++ o ++ c ++ w ++ 0#2 : BitVec 32)
  | .amoMin d a b o c w => some (0x20#6 ++ d ++ a ++ b ++ 0x4#4 ++ o ++ c ++ w ++ 0#2 : BitVec 32)
  | .amoMax d a b o c w => some (0x20#6 ++ d ++ a ++ b ++ 0x5#4 ++ o ++ c ++ w ++ 0#2 : BitVec 32)
  | .amoMinu d a b o c w => some (0x20#6 ++ d ++ a ++ b ++ 0x6#4 ++ o ++ c ++ w ++ 0#2 : BitVec 32)
  | .amoMaxu d a b o c w => some (0x20#6 ++ d ++ a ++ b ++ 0x7#4 ++ o ++ c ++ w ++ 0#2 : BitVec 32)
  | .amoSwap d a b o c w => some (0x20#6 ++ d ++ a ++ b ++ 0x8#4 ++ o ++ c ++ w ++ 0#2 : BitVec 32)
  | .amoCas d a b o c w => some (0x20#6 ++ d ++ a ++ b ++ 0x9#4 ++ o ++ c ++ w ++ 0#2 : BitVec 32)
  | .fenceCore => some (0x21#6 ++ 0#15 ++ 0x0#11 : BitVec 32)
  | .fenceDie => some (0x21#6 ++ 0#15 ++ 0x1#11 : BitVec 32)
  | .fencePkg => some (0x21#6 ++ 0#15 ++ 0x2#11 : BitVec 32)
  | .fencePod => some (0x21#6 ++ 0#15 ++ 0x3#11 : BitVec 32)
  | .ffence => some (0x21#6 ++ 0#15 ++ 0x4#11 : BitVec 32)
  | .sealPage a => some (0x22#6 ++ 0#5 ++ a ++ 0#5 ++ 0x0#11 : BitVec 32)
  | .unsealPage a => some (0x22#6 ++ 0#5 ++ a ++ 0#5 ++ 0x1#11 : BitVec 32)
  | .clmq d a => some (0x23#6 ++ d ++ a ++ 0#5 ++ 0x0#11 : BitVec 32)
  | .fopCas2 a b => some (0x24#6 ++ 0#5 ++ a ++ b ++ 0x0#4 ++ 0#7 : BitVec 32)
  | .fopCas4 a b => some (0x24#6 ++ 0#5 ++ a ++ b ++ 0x1#4 ++ 0#7 : BitVec 32)
  | .fopEnq a b => some (0x24#6 ++ 0#5 ++ a ++ b ++ 0x2#4 ++ 0#7 : BitVec 32)
  | .fopChase c a b => some (0x24#6 ++ c ++ a ++ b ++ 0x3#4 ++ 0#7 : BitVec 32)
  | .fopProg c a b j => some (0x24#6 ++ c ++ a ++ b ++ 0x4#4 ++ j ++ 0#4 : BitVec 32)
  | .fopRel b t => some (0x24#6 ++ 0#10 ++ b ++ 0x5#4 ++ t ++ 0#1 : BitVec 32)
  | .fpop d s => some (0x25#6 ++ d ++ 0#5 ++ s ++ 0x0#11 : BitVec 32)
  | .fpopNr d p s => some (0x25#6 ++ d ++ 0#1 ++ p ++ s ++ 0x1#11 : BitVec 32)
  | .fstat d => some (0x25#6 ++ d ++ 0#10 ++ 0x2#11 : BitVec 32)
  | .tokPut q n => some (0x28#6 ++ 0x0#1 ++ 0#14 ++ q ++ n : BitVec 32)
  | .tokGet q n => some (0x28#6 ++ 0x1#1 ++ 0#14 ++ q ++ n : BitVec 32)
  | .vqpush n a => some (0x29#6 ++ 0#4 ++ n ++ a ++ 0#5 ++ 0x0#11 : BitVec 32)
  | .join d a => some (0x2a#6 ++ d ++ a ++ 0#5 ++ 0x0#11 : BitVec 32)
  | .leave a => some (0x2a#6 ++ 0#5 ++ a ++ 0#5 ++ 0x1#11 : BitVec 32)
  | .barArrive d a => some (0x2a#6 ++ d ++ a ++ 0#5 ++ 0x2#11 : BitVec 32)
  | .barWait a b => some (0x2a#6 ++ 0#5 ++ a ++ b ++ 0x3#11 : BitVec 32)
  | .dissolve a => some (0x2a#6 ++ 0#5 ++ a ++ 0#5 ++ 0x4#11 : BitVec 32)
  | .launch d a b => some (0x2b#6 ++ d ++ a ++ b ++ 0x0#11 : BitVec 32)
  | .trigger => some (0x2b#6 ++ 0#15 ++ 0x1#11 : BitVec 32)
  | .wait a => some (0x2b#6 ++ 0#5 ++ a ++ 0#5 ++ 0x2#11 : BitVec 32)
  | .setprio a b => some (0x2b#6 ++ 0#5 ++ a ++ b ++ 0x3#11 : BitVec 32)
  | .tagAny d a c => some (0x2c#6 ++ d ++ a ++ 0#5 ++ 0x0#8 ++ c ++ 0x0#2 : BitVec 32)
  | .tagAll d a c => some (0x2c#6 ++ d ++ a ++ 0#5 ++ 0x0#8 ++ c ++ 0x1#2 : BitVec 32)
  | .tagFirst d a => some (0x2c#6 ++ d ++ a ++ 0#5 ++ 0x2#11 : BitVec 32)
  | .yield => some (0x2d#6 ++ 0#15 ++ 0x0#11 : BitVec 32)
  | .exit => some (0x2d#6 ++ 0#15 ++ 0x1#11 : BitVec 32)
  | .rpop d p => some (0x2e#6 ++ d ++ 0#6 ++ p ++ 0x0#11 : BitVec 32)
  | .rpush a => some (0x2e#6 ++ 0#5 ++ a ++ 0#5 ++ 0x1#11 : BitVec 32)
  | .csrr d c => some (0x30#6 ++ d ++ 0#5 ++ c ++ 0x0#4 : BitVec 32)
  | .csrw a c => some (0x30#6 ++ 0#5 ++ a ++ c ++ 0x1#4 : BitVec 32)
  | .csrs d a c => some (0x30#6 ++ d ++ a ++ c ++ 0x2#4 : BitVec 32)
  | .csrc d a c => some (0x30#6 ++ d ++ a ++ c ++ 0x3#4 : BitVec 32)
  | .csrrw d a c => some (0x30#6 ++ d ++ a ++ c ++ 0x4#4 : BitVec 32)
  | .rdclk d => some (0x31#6 ++ d ++ 0#17 ++ 0x0#4 : BitVec 32)
  | .clkadd d a => some (0x31#6 ++ d ++ a ++ 0#12 ++ 0x1#4 : BitVec 32)
  | .locq d a => some (0x32#6 ++ d ++ a ++ 0#12 ++ 0x0#4 : BitVec 32)
  | .locqT d a => some (0x32#6 ++ d ++ a ++ 0#12 ++ 0x1#4 : BitVec 32)
  | .tmplLd t s a o => some (0x33#6 ++ t ++ s ++ a ++ o : BitVec 32)
  | .trap a => some (0x34#6 ++ 0#5 ++ a ++ 0#5 ++ 0x0#11 : BitVec 32)
  | .hcall a => some (0x34#6 ++ 0#5 ++ a ++ 0#5 ++ 0x1#11 : BitVec 32)
  | .brk => some (0x34#6 ++ 0#15 ++ 0x2#11 : BitVec 32)
  | .tret => some (0x35#6 ++ 0#15 ++ 0x0#11 : BitVec 32)
  | .wdsvc => some (0x35#6 ++ 0#15 ++ 0x1#11 : BitVec 32)
  | .contain a => some (0x35#6 ++ 0#5 ++ a ++ 0#5 ++ 0x2#11 : BitVec 32)
  | .wsw a => some (0x35#6 ++ 0#5 ++ a ++ 0#5 ++ 0x3#11 : BitVec 32)
  | .invalVa a b => some (0x36#6 ++ 0#5 ++ a ++ b ++ 0x0#11 : BitVec 32)
  | .invalAsid b => some (0x36#6 ++ 0#10 ++ b ++ 0x1#11 : BitVec 32)
  | .invalAll => some (0x36#6 ++ 0#15 ++ 0x2#11 : BitVec 32)
  | .mwclr b => some (0x36#6 ++ 0#10 ++ b ++ 0x3#11 : BitVec 32)
  | .vNop => some (0x1#7 ++ 0#25 : BitVec 32)
  | .vFadd d a b m k x y => some (0x2#7 ++ d ++ a ++ b ++ m ++ k ++ x ++ y ++ 0#1 : BitVec 32)
  | .vFsub d a b m k x y => some (0x3#7 ++ d ++ a ++ b ++ m ++ k ++ x ++ y ++ 0#1 : BitVec 32)
  | .vFmul d a b m k x y => some (0x4#7 ++ d ++ a ++ b ++ m ++ k ++ x ++ y ++ 0#1 : BitVec 32)
  | .vFma d a b m k x y z => some (0x5#7 ++ d ++ a ++ b ++ m ++ k ++ x ++ y ++ z : BitVec 32)
  | .vFms d a b m k x y z => some (0x6#7 ++ d ++ a ++ b ++ m ++ k ++ x ++ y ++ z : BitVec 32)
  | .vFmin d a b m k x y => some (0x7#7 ++ d ++ a ++ b ++ m ++ k ++ x ++ y ++ 0#1 : BitVec 32)
  | .vFmax d a b m k x y => some (0x8#7 ++ d ++ a ++ b ++ m ++ k ++ x ++ y ++ 0#1 : BitVec 32)
  | .vFabs d a m k x => some (0x9#7 ++ d ++ a ++ 0#6 ++ m ++ k ++ x ++ 0#2 : BitVec 32)
  | .vFneg d a m k x => some (0xa#7 ++ d ++ a ++ 0#6 ++ m ++ k ++ x ++ 0#2 : BitVec 32)
  | .vFcmpEq d a b m k x y => some (0xb#7 ++ d ++ a ++ b ++ m ++ k ++ x ++ y ++ 0#1 : BitVec 32)
  | .vFcmpLt d a b m k x y => some (0xc#7 ++ d ++ a ++ b ++ m ++ k ++ x ++ y ++ 0#1 : BitVec 32)
  | .vFcmpLe d a b m k x y => some (0xd#7 ++ d ++ a ++ b ++ m ++ k ++ x ++ y ++ 0#1 : BitVec 32)
  | .vFcmpUn d a b m k x y => some (0xe#7 ++ d ++ a ++ b ++ m ++ k ++ x ++ y ++ 0#1 : BitVec 32)
  | .vAdd d a b m k x y => some (0x10#7 ++ d ++ a ++ b ++ m ++ k ++ x ++ y ++ 0#1 : BitVec 32)
  | .vSub d a b m k x y => some (0x11#7 ++ d ++ a ++ b ++ m ++ k ++ x ++ y ++ 0#1 : BitVec 32)
  | .vMul d a b m k x y => some (0x12#7 ++ d ++ a ++ b ++ m ++ k ++ x ++ y ++ 0#1 : BitVec 32)
  | .vMulh d a b m k x y => some (0x13#7 ++ d ++ a ++ b ++ m ++ k ++ x ++ y ++ 0#1 : BitVec 32)
  | .vAdds d a b m k x y => some (0x14#7 ++ d ++ a ++ b ++ m ++ k ++ x ++ y ++ 0#1 : BitVec 32)
  | .vSubs d a b m k x y => some (0x15#7 ++ d ++ a ++ b ++ m ++ k ++ x ++ y ++ 0#1 : BitVec 32)
  | .vAnd d a b m k x y => some (0x16#7 ++ d ++ a ++ b ++ m ++ k ++ x ++ y ++ 0#1 : BitVec 32)
  | .vOr d a b m k x y => some (0x17#7 ++ d ++ a ++ b ++ m ++ k ++ x ++ y ++ 0#1 : BitVec 32)
  | .vXor d a b m k x y => some (0x18#7 ++ d ++ a ++ b ++ m ++ k ++ x ++ y ++ 0#1 : BitVec 32)
  | .vShl d a b m k x y => some (0x19#7 ++ d ++ a ++ b ++ m ++ k ++ x ++ y ++ 0#1 : BitVec 32)
  | .vShr d a b m k x y => some (0x1a#7 ++ d ++ a ++ b ++ m ++ k ++ x ++ y ++ 0#1 : BitVec 32)
  | .vSra d a b m k x y => some (0x1b#7 ++ d ++ a ++ b ++ m ++ k ++ x ++ y ++ 0#1 : BitVec 32)
  | .vMin d a b m k x y => some (0x1c#7 ++ d ++ a ++ b ++ m ++ k ++ x ++ y ++ 0#1 : BitVec 32)
  | .vMax d a b m k x y => some (0x1d#7 ++ d ++ a ++ b ++ m ++ k ++ x ++ y ++ 0#1 : BitVec 32)
  | .vMinu d a b m k x y => some (0x1e#7 ++ d ++ a ++ b ++ m ++ k ++ x ++ y ++ 0#1 : BitVec 32)
  | .vMaxu d a b m k x y => some (0x1f#7 ++ d ++ a ++ b ++ m ++ k ++ x ++ y ++ 0#1 : BitVec 32)
  | .vDiv d a b m k x y => some (0x20#7 ++ d ++ a ++ b ++ m ++ k ++ x ++ y ++ 0#1 : BitVec 32)
  | .vDivu d a b m k x y => some (0x21#7 ++ d ++ a ++ b ++ m ++ k ++ x ++ y ++ 0#1 : BitVec 32)
  | .vRem d a b m k x y => some (0x22#7 ++ d ++ a ++ b ++ m ++ k ++ x ++ y ++ 0#1 : BitVec 32)
  | .vRemu d a b m k x y => some (0x23#7 ++ d ++ a ++ b ++ m ++ k ++ x ++ y ++ 0#1 : BitVec 32)
  | .vIcmpEq d a b m k x y => some (0x24#7 ++ d ++ a ++ b ++ m ++ k ++ x ++ y ++ 0#1 : BitVec 32)
  | .vIcmpLt d a b m k x y => some (0x25#7 ++ d ++ a ++ b ++ m ++ k ++ x ++ y ++ 0#1 : BitVec 32)
  | .vIcmpLtu d a b m k x y => some (0x26#7 ++ d ++ a ++ b ++ m ++ k ++ x ++ y ++ 0#1 : BitVec 32)
  | .vShli d a i m k x => some (0x27#7 ++ d ++ a ++ i ++ m ++ k ++ x ++ 0#2 : BitVec 32)
  | .vShri d a i m k x => some (0x28#7 ++ d ++ a ++ i ++ m ++ k ++ x ++ 0#2 : BitVec 32)
  | .vSrai d a i m k x => some (0x29#7 ++ d ++ a ++ i ++ m ++ k ++ x ++ 0#2 : BitVec 32)
  | .vWmacS8 d a b m k x y z => some (0x2a#7 ++ d ++ a ++ b ++ m ++ k ++ x ++ y ++ z : BitVec 32)
  | .vWmacU8 d a b m k x y z => some (0x2b#7 ++ d ++ a ++ b ++ m ++ k ++ x ++ y ++ z : BitVec 32)
  | .vWmacS16 d a b m k x y z => some (0x2c#7 ++ d ++ a ++ b ++ m ++ k ++ x ++ y ++ z : BitVec 32)
  | .vWmacU16 d a b m k x y z => some (0x2d#7 ++ d ++ a ++ b ++ m ++ k ++ x ++ y ++ z : BitVec 32)
  | .vWmacS8Sat d a b m k x y z => some (0x2e#7 ++ d ++ a ++ b ++ m ++ k ++ x ++ y ++ z : BitVec 32)
  | .vWmacU8Sat d a b m k x y z => some (0x2f#7 ++ d ++ a ++ b ++ m ++ k ++ x ++ y ++ z : BitVec 32)
  | .vWmacS16Sat d a b m k x y z => some (0x30#7 ++ d ++ a ++ b ++ m ++ k ++ x ++ y ++ z : BitVec 32)
  | .vWmacU16Sat d a b m k x y z => some (0x31#7 ++ d ++ a ++ b ++ m ++ k ++ x ++ y ++ z : BitVec 32)
  | .vsel d a b k x y => some (0x32#7 ++ d ++ a ++ b ++ 0x1#1 ++ k ++ x ++ y ++ 0#1 : BitVec 32)
  | .vptst d a m k x => some (0x33#7 ++ d ++ a ++ 0#6 ++ m ++ k ++ x ++ 0#2 : BitVec 32)
  | .vmov d a m k x => some (0x40#7 ++ d ++ a ++ 0#6 ++ m ++ k ++ x ++ 0#2 : BitVec 32)
  | .cvtTo d a f m k x => some (0x41#7 ++ d ++ a ++ f ++ m ++ k ++ x ++ 0#2 : BitVec 32)
  | .cvtFrom d a f m k x => some (0x42#7 ++ d ++ a ++ f ++ m ++ k ++ x ++ 0#2 : BitVec 32)
  | .cvtIto d a f m k x => some (0x43#7 ++ d ++ a ++ f ++ m ++ k ++ x ++ 0#2 : BitVec 32)
  | .vrotR d a i m k x => some (0x44#7 ++ d ++ a ++ i ++ m ++ k ++ x ++ 0#2 : BitVec 32)
  | .vrotC d a i m k x => some (0x45#7 ++ d ++ a ++ i ++ m ++ k ++ x ++ 0#2 : BitVec 32)
  | .vbcc d a i m k x => some (0x46#7 ++ d ++ a ++ i ++ m ++ k ++ x ++ 0#2 : BitVec 32)
  | .vbcr d a i m k x => some (0x47#7 ++ d ++ a ++ i ++ m ++ k ++ x ++ 0#2 : BitVec 32)
  | .vredR d a i m k x => some (0x48#7 ++ d ++ a ++ i ++ m ++ k ++ x ++ 0#2 : BitVec 32)
  | .vredC d a i m k x => some (0x49#7 ++ d ++ a ++ i ++ m ++ k ++ x ++ 0#2 : BitVec 32)
  | .vscanR d a i m k x => some (0x4a#7 ++ d ++ a ++ i ++ m ++ k ++ x ++ 0#2 : BitVec 32)
  | .vscanC d a i m k x => some (0x4b#7 ++ d ++ a ++ i ++ m ++ k ++ x ++ 0#2 : BitVec 32)
  | .dnorm d a x => some (0x60#7 ++ d ++ a ++ 0#6 ++ 0x0#1 ++ 0#3 ++ x ++ 0#2 : BitVec 32)
  | .dexp d a m k => some (0x61#7 ++ d ++ a ++ 0#6 ++ m ++ k ++ 0#3 : BitVec 32)
  | .ddot d a b m k => some (0x62#7 ++ d ++ a ++ b ++ m ++ k ++ 0#3 : BitVec 32)
  | .ddotn d a b m k => some (0x63#7 ++ d ++ a ++ b ++ m ++ k ++ 0#3 : BitVec 32)
  | .dadd d a b => some (0x64#7 ++ d ++ a ++ b ++ 0x0#1 ++ 0#6 : BitVec 32)
  | .dsub d a b => some (0x65#7 ++ d ++ a ++ b ++ 0x0#1 ++ 0#6 : BitVec 32)
  | .dscl d a b y => some (0x66#7 ++ d ++ a ++ b ++ 0x0#1 ++ 0#4 ++ y ++ 0#1 : BitVec 32)
  | .dscli d a i => some (0x67#7 ++ d ++ a ++ i ++ 0x0#1 ++ 0#6 : BitVec 32)
  | .dtst d a i => some (0x68#7 ++ d ++ a ++ i ++ 0x0#1 ++ 0#6 : BitVec 32)
  | .dcomp d a m k => some (0x69#7 ++ d ++ a ++ 0#6 ++ m ++ k ++ 0#3 : BitVec 32)
  | .dnget d a m k => some (0x6a#7 ++ d ++ a ++ 0#6 ++ m ++ k ++ 0#3 : BitVec 32)
  | .lcvt d a i m k x => some (0x6b#7 ++ d ++ a ++ i ++ m ++ k ++ x ++ 0#2 : BitVec 32)
  | .lmul d a b m k x y => some (0x6c#7 ++ d ++ a ++ b ++ m ++ k ++ x ++ y ++ 0#1 : BitVec 32)
  | .ldiv d a b m k x y => some (0x6d#7 ++ d ++ a ++ b ++ m ++ k ++ x ++ y ++ 0#1 : BitVec 32)
  | .lsh d a r s m k x => some (0x6e#7 ++ d ++ a ++ r ++ 0x0#2 ++ s ++ m ++ k ++ x ++ 0#2 : BitVec 32)
  | .lfn d a i m k x => some (0x6f#7 ++ d ++ a ++ i ++ m ++ k ++ x ++ 0#2 : BitVec 32)
  | .xNop => some (0x1#6 ++ 0#26 : BitVec 32)
  | .vqpop d n h => some (0x2#6 ++ d ++ n ++ h ++ 0x0#2 ++ 0#1 ++ 0#4 ++ 0#11 : BitVec 32)
  | .vqpopPeek d n h => some (0x2#6 ++ d ++ n ++ h ++ 0x1#2 ++ 0#1 ++ 0#4 ++ 0#11 : BitVec 32)
  | .vqpopNr d n h p => some (0x2#6 ++ d ++ n ++ h ++ 0x2#2 ++ 0#1 ++ p ++ 0#11 : BitVec 32)
  | .rqpop d q => some (0x3#6 ++ d ++ q ++ 0x0#1 ++ 0#1 ++ 0#4 ++ 0#12 : BitVec 32)
  | .rqpopNr d q p => some (0x3#6 ++ d ++ q ++ 0x1#1 ++ 0#1 ++ p ++ 0#12 : BitVec 32)
  | .kand d a b => some (0x4#6 ++ d ++ a ++ b ++ 0x0#3 ++ 0#14 : BitVec 32)
  | .kor d a b => some (0x4#6 ++ d ++ a ++ b ++ 0x1#3 ++ 0#14 : BitVec 32)
  | .kxor d a b => some (0x4#6 ++ d ++ a ++ b ++ 0x2#3 ++ 0#14 : BitVec 32)
  | .kandn d a b => some (0x4#6 ++ d ++ a ++ b ++ 0x3#3 ++ 0#14 : BitVec 32)
  | .knot d a => some (0x4#6 ++ d ++ a ++ 0#3 ++ 0x4#3 ++ 0#14 : BitVec 32)
  | .kset d => some (0x4#6 ++ d ++ 0#6 ++ 0x5#3 ++ 0#14 : BitVec 32)
  | .kclr d => some (0x4#6 ++ d ++ 0#6 ++ 0x6#3 ++ 0#14 : BitVec 32)
  | .kany p a => some (0x5#6 ++ p ++ a ++ 0x0#1 ++ 0#18 : BitVec 32)
  | .kall p a => some (0x5#6 ++ p ++ a ++ 0x1#1 ++ 0#18 : BitVec 32)
  | .sset r w v => some (0x6#6 ++ r ++ w ++ v ++ 0#19 : BitVec 32)
  | .sbind d p r => some (0x7#6 ++ d ++ p ++ r ++ 0x0#1 ++ 0#17 : BitVec 32)
  | .sunbind d p => some (0x7#6 ++ d ++ p ++ 0#4 ++ 0x1#1 ++ 0#17 : BitVec 32)
  | .qrdy p q => some (0x8#6 ++ p ++ q ++ 0#19 : BitVec 32)
  | .xBr n p o => some (0x10#6 ++ n ++ p ++ o : BitVec 32)
  | .xLoop r c o => some (0x13#6 ++ 0#1 ++ r ++ 0#1 ++ c ++ o : BitVec 32)
  | .xLcseti i c d n => some (0x15#6 ++ i ++ 0#2 ++ c ++ 0#5 ++ d ++ n : BitVec 32)
  | .xTokPut q n => some (0x18#6 ++ 0x0#1 ++ 0#14 ++ q ++ n : BitVec 32)
  | .xTokGet q n => some (0x18#6 ++ 0x1#1 ++ 0#14 ++ q ++ n : BitVec 32)
  | .swap => some (0x1c#6 ++ 0#25 ++ 0x0#1 : BitVec 32)
  | .xYield => some (0x1c#6 ++ 0#25 ++ 0x1#1 : BitVec 32)
  | .phaseBegin i => some (0x1e#6 ++ 0#18 ++ i : BitVec 32)
  | .eNop => some (0x1#6 ++ 0#26 : BitVec 32)
  | .eLoop r c o => some (0x2#6 ++ 0#1 ++ r ++ 0#1 ++ c ++ o : BitVec 32)
  | .eLcseti i c d n => some (0x3#6 ++ i ++ 0#2 ++ c ++ 0#5 ++ d ++ n : BitVec 32)
  | .eBr n p o => some (0x4#6 ++ n ++ p ++ o : BitVec 32)
  | .eTokPut q n => some (0x6#6 ++ 0x0#1 ++ 0#14 ++ q ++ n : BitVec 32)
  | .eTokGet q n => some (0x6#6 ++ 0x1#1 ++ 0#14 ++ q ++ n : BitVec 32)
  | .tagwAny c h l => some (0x7#6 ++ 0x0#2 ++ c ++ 0#11 ++ h ++ l : BitVec 32)
  | .tagwAll c h l => some (0x7#6 ++ 0x1#2 ++ c ++ 0#11 ++ h ++ l : BitVec 32)
  | .tagwTst c p h l => some (0x7#6 ++ 0x2#2 ++ c ++ p ++ 0#7 ++ h ++ l : BitVec 32)
  | .eSwap => some (0x8#6 ++ 0#25 ++ 0x0#1 : BitVec 32)
  | .eYield => some (0x8#6 ++ 0#25 ++ 0x1#1 : BitVec 32)
  | .patch s f v h q g c => some (1#1 ++ s ++ f ++ v ++ h ++ q ++ g ++ c : BitVec 32)
  | .patchM s f v h q g c => some (1#1 ++ s ++ f ++ v ++ h ++ q ++ g ++ c : BitVec 32)
  | .mNop => some (0x1#6 ++ 0#26 : BitVec 32)
  | .accClr a => some (0x2#6 ++ a ++ 0#24 : BitVec 32)
  | .accLd a f n o => some (0x3#6 ++ a ++ f ++ n ++ o ++ 0#7 : BitVec 32)
  | .accSt a f n o => some (0x4#6 ++ a ++ f ++ n ++ o ++ 0#7 : BitVec 32)
  | .accMov d a => some (0x5#6 ++ d ++ a ++ 0#22 : BitVec 32)
  | .accTov d a q => some (0x6#6 ++ d ++ a ++ q ++ 0#16 : BitVec 32)
  | .accFromv a q s => some (0x7#6 ++ a ++ q ++ s ++ 0#16 : BitVec 32)
  | .mpush a r c l => some (0x8#6 ++ a ++ r ++ c ++ l ++ 0#11 : BitVec 32)
  | .mwait a => some (0x9#6 ++ 0x0#1 ++ a ++ 0#23 : BitVec 32)
  | .mwaitAll => some (0x9#6 ++ 0x1#1 ++ 0#25 : BitVec 32)
  | .arrive => none
  | .gather => none
  | .depart => none
  | .mcast => none
  | .relay => none
  | .fill => none
  | .mapInstall => none
  | .mapSwap => none
  | .mapRetire => none
  | .mapQuery => none
  | .ringInit => none
  | .allgather => none
  | .redscat => none
  | .allred => none
  | .bcast => none
  | .permute => none
  | .mma => none
  | .mmaKStep => none
  | .mmaRetire => none
  | .packetHeader => none
  | .packetBeat => none
  | .packetAnswer => none
  | .copyComplete => none
  | .holdTimeout => none
  | .mapBoundary => none
  | .portRowRead => none
  | .portRowWrite => none
  | .overflowLogDrain => none
  | .unlandedLogDrain => none
  | .mwulogDrain => none
  | .translationWalk => none
  | .homeAccess => none
  | .loadReturn => none
  | .storeQueueDepart => none
  | .storeAck => none
  | .timedStoreArrival => none
  | .timedStoreDue => none
  | .notBeforePerform => none
  | .pinAtHome => none
  | .unpinAtHome => none
  | .factorAtHome => none
  | .factorResult => none
  | .swapRendezvous => none
  | .taskSave => none
  | .selectionRound => none
  | .bindTask => none
  | .taskStart => none
  | .asyncCause => none
  | .watchdogExpiry => none
  | .correctableFreeze => none
  | .freezeEnd => none
  | .uncorrectableError => none
  | .containedStop => none
  | .leaveGrant => none
  | .leaveTimeout => none
  | .throttleStep => none
  | .thermalStop => none
  | .clockTick => none
  | .syncMessage => none
  | .lockLoss => none
  | .reset => none
  | .pkgrstWrite => none
  | .clkinitWrite => none
  | .linkLost => none
  | .dieLost => none
  | .replayExhausted => none
  | .cfgdataRead => none
  | .cfgdataWrite => none
  | .bankfmtWrite => none
  | .bankfmtEffect => none
  | .ringdescWrite => none
  | .dbufWrite => none
  | .boexpWrite => none
  | .tagsWrite => none
  | .registerWrite => none
  | .ilvFlip => none
  | .ilvDrained => none
  | .tdmSwitch => none
  | .lqcmdGo => none
  | .resumeWrite => none
  | .preqWrite => none
  | .dhaltWrite => none
  | .sgctlGo => none
  | .groupDrainEnd => none
  | .groupRetrainEnd => none
  | .groupRekeyEnd => none
  | .groupRateFall => none
  | .windowStallTimeout => none
  | .fabricTimeout => none
  | .peerWindowPacket => none
  | .migcmdGo => none
  | .migrationRetire => none
  | .ckctlGo => none
  | .checkpointEnd => none
  | .rwcmdGo => none
  | .regionWorldApply => none
  | .keyLoad => none
  | .keyErase => none
  | .keySwitchSchedule => none
  | .keyPhaseSwitch => none
  | .oldKeyErase => none
  | .spdmMessage => none
  | .lockInterface => none
  | .stopInterface => none
  | .hostRequest => none
  | .collectiveComplete => none
  | .startInterface => none
  | .firstFlitUnderNewSet => none
  | .powerRemoved => none

/-- Whether the decoder of a space holds bit `k` of the word `x` fixed: without it, it reads no `i` of any operands. -/
noncomputable def fixedBit (sp : Space) (x : Word32) (i : Instr) (k : Nat) : Bool :=
  match decode sp (x ^^^ (1#32 <<< k)) with
  | .ok j => j.ctorIdx != i.ctorIdx
  | .error .badRegister => false
  | .error _ => true

/-- How much of the word `x` its reading `i` leaves to operands: first the ones among the operand bits, then the bits not fixed. -/
noncomputable def looseness (sp : Space) (x : Word32) (i : Instr) : Nat :=
  ((List.range 32).map (fun k => if fixedBit sp x i k then 0 else if x.getLsbD k then 65 else 1)).sum

/-- Of what the spaces `l` read in the word `x`, the reading that leaves the least of it to operands; of equals, the first. -/
noncomputable def tableRead (x : Word32) (l : List Space) : Option (Space × Instr) :=
  (l.foldl (fun best sp =>
    match decode sp x with
    | .error _ => best
    | .ok i =>
      let n := looseness sp x i
      match best with
      | none => some (n, sp, i)
      | some (m, r) => if n < m then some (n, sp, i) else some (m, r)) (none : Option (Nat × Space × Instr))).map (fun r => r.2)

/-- The opcode spaces of R187, each of whose words is one 32-bit little-endian word. -/
def tableSpaces : List Space := [.control, .v0, .x, .load, .store, .m]

/-- The instruction read from the bits `w` of an instruction of `nbits` bits. A word can be read in several opcode spaces:
it is taken where the least of it stands for operands (log entry 20). -/
noncomputable def decodeTableWord (nbits w : Nat) : Option Instr :=
  if nbits ≤ 32 then (tableRead (BitVec.ofNat 32 w) tableSpaces).map (fun r => r.2) else none

/-- The opcode space in which `decodeTableWord` finds the bits `w`. -/
noncomputable def tableSpace (w : Nat) : Space :=
  ((tableRead (BitVec.ofNat 32 w) tableSpaces).map (fun r => r.1)).getD .load

end Sys2Proof
end

