-- ==== Sys2Proof/Machine/State.lean ====
section
/-! DEFINITION. The state of the machine: one package, seen around one core that is modelled in full. Every field is
plain data. Fields marked "the model's own" are no state of the spec (log entries 1 to 4). -/
namespace Sys2Proof.Machine

/-- The causes of R352, in the order of their codes. -/
inductive Cause where
  | illegal | reservedBits | privilege | misalign | badRegister | templateEmpty | fieldRange | queueUnderflow
  | queueOverflow | tokenOverflow | ringOverrun | ringUnderrun | layoutMismatch | formatMismatch | breakpoint | singleStep
  | notMapped | pageAbsent | permission | world | staleHandle | tensorBounds | sealedStore | race
  | claimFull | atomicTarget | factorProgram | keyAbsent | windowClosed | fabricTimeout | tagBusy | mapSlot
  | lateStore | clockUnlocked | poison | uncorrectable | phaseCycles | phaseSignature | watchdog | correctableStorm
  | barrierOvercount | leaveTimeout | thermalStop | dieLost | linkLost | replayExhausted | containedStop | progressCompat
  | trapCall | hostCall | launchResource | launchMalformed | dependenceInvalid | groupState | stageQueue | exitLive
  | liveRecord | preempted | debugHalt | counterOverflow | worldSwitch | assignmentLock | integrity | machineCheck
deriving DecidableEq, Repr

/-- Why the machine stops in a fault: no instruction or event of this architecture stops it, since every cause takes
its disposition (R352); nobody raises one. -/
inductive Fault where
  /-- The step of a machine that the spec gives no further step: never raised; safe. -/
  | stuck
deriving DecidableEq, Repr

/-- Why the model refuses a step. -/
inductive Refusal where
  /-- Raised by an arm of `exec` whose instruction has no meaning yet; safe. -/
  | notModelled (mnemonic : String)
deriving DecidableEq, Repr

/-- Which of the two engine-word sequencers an engine operation belongs to (R196). -/
inductive Side where
  | load
  | store
deriving DecidableEq, Repr

/-- A wharf: the core wharf of the modelled core, or the memory wharf of a live die (R93). -/
inductive WharfId where
  | core
  | mem (die : BitVec 2)
deriving DecidableEq, Repr

/-- An element in transit: its code in the wire format, and poison carried outside the code (R48). -/
structure Elem where
  code : Word32
  poison : Bool
deriving DecidableEq, Repr

/-- A packet of R91: its header fields, its payload elements and its scales. -/
structure Packet where
  c : List Nat
  n : List Nat
  wfmt : BitVec 5
  rm : BitVec 2
  satd : Bool
  world : Bool
  lastp : Bool
  skind : BitVec 2
  chip : BitVec 10
  die : BitVec 2
  stn : BitVec 6
  opid : Nat
  stag : BitVec 16
  elems : List Elem
  scales : List (BitVec 16)
deriving DecidableEq, Repr

/-- What another party of a collective sends: its rank, its version and its packets (R320). -/
structure Shard where
  rank : Nat
  ver : Word32
  packets : List Packet
deriving DecidableEq, Repr

/-- Where an uncorrectable error is detected (R361). -/
inductive UeSite where
  | cache
  | vreg (r : BitVec 6) (lane : BitVec 10)
  | mask (r : BitVec 3)
  | dreg (r : BitVec 4) (row : BitVec 4)
  | acc (r : BitVec 2) (element : BitVec 12)
  | ringdesc (k : BitVec 4)
  | queue
  | portImage (q : BitVec 3)
  | scratch (granule : BitVec 16)
  | memory (cell : Nat)
  | template
  | wharf
  | metadata (die : BitVec 2)
deriving DecidableEq, Repr

/-- A party that has registered in a barrier epoch with the collective engine of the home of the group's record (R318): the address of
the record, the epoch, the party's core, its rank and the rank that it names, its kind, 0 for a bar.arrive, its operation, its wire
format, its world, and the extents of its send buffer; then what the checks of R318 need beside: CTL, SPADDR, the extents of its receive
buffer, the ranks and the formats of both, whether they are one tensor, the format of the table's bank where that is consistent, and
whether the party's core lacks that bank. -/
structure Registration where
  pa : Nat
  epoch : Word32
  chip : BitVec 10
  die : BitVec 2
  core : BitVec 6
  rank : Nat
  peer : Nat
  kind : Nat
  op : Nat
  wfmt : Nat
  secure : Bool
  extents : List Nat
  ctl : BitVec 16
  spaddr : Nat
  rextents : List Nat
  ranks : Nat × Nat
  fmts : Nat × Nat
  same : Bool
  tableFmt : Option Nat
  tableAbsent : Bool
deriving DecidableEq, Repr

/-- What an event is given by the outside world or by the event that caused it; each event reads the fields that its
rule names. The model's own form (log entry 2). -/
structure Input where
  side : Side := .load
  wharf : WharfId := .core
  die : BitVec 2 := 0
  n : Nat := 0
  v : Word64 := 0
  w : Word64 := 0
  flag : Bool := false
  flag2 : Bool := false
  addr : Addr := 0
  asid : BitVec 11 := 0
  cause : Option Cause := none
  packet : Option Packet := none
  site : UeSite := .cache
  others : List Shard := []
  reg : Option Registration := none
  /-- Bytes that an answer brings beyond `v` (R25, R243), or the chip and the die of the parties of a
  collective, 12 bits for each by rank. -/
  data : Nat := 0
  /-- The number of the request that an answer belongs to; 0: of no request that has one. -/
  req : Nat := 0
  /-- Granules that an answer brings, with their poison marks (R382). -/
  image : List (Nat × Bool) := []
deriving DecidableEq, Repr

/-- A hardware event that is due, with its input. -/
structure Pending where
  event : Instr
  input : Input
deriving DecidableEq, Repr

/-- Whose step is next: a sequencer's, once more that of a sequencer whose put may find the room that a later get of the cycle makes
(R165), or that of the hardware outside the sequencers (log entry 1). -/
inductive Turn where
  | seq (q : Seq)
  | again (q : Seq)
  | hw
deriving DecidableEq, Repr

/-- What became of the last issue (the model's own, log entry 1). -/
inductive Issue where
  | done
  | waits
  | raised (c : Cause) (tvalue : Word64) (addr : Addr)
deriving DecidableEq, Repr

/-- A loop counter (R219). -/
structure LoopCounter where
  rem : Word32
  drain : BitVec 3
deriving DecidableEq, Repr

/-- The registers of one sequencer (R161, R206, R219). -/
structure SeqRegs where
  /-- The sequencer is not idle (R162). -/
  run : Bool
  pc : Addr
  p : BitVec 16
  lc : SMap LoopCounter
deriving DecidableEq, Repr

/-- The four sequencers. -/
structure Seqs where
  load : SeqRegs
  compute : SeqRegs
  store : SeqRegs
  control : SeqRegs
deriving DecidableEq, Repr

/-- The scalar registers of the control sequencer (R206, R222) and the supervisor banks (R355). Registers that hold
zero are not listed; register g0 is never listed. -/
structure Scalars where
  g : SMap Word64
  a : SMap Addr
  /-- LEN in [54:32], BASE in [21:0]. -/
  m : SMap Word64
  /-- Registers that hold data loaded from a poisoned granule (R89), g0 to g31 at 0 to 31 and those of the banks at 64 + their place
  there. -/
  taint : SMap Bool
  /-- g24 to g31 of the banks, non-secure at 24 to 31 and secure at 32 + 24 to 32 + 31. -/
  bankG : SMap Word64
  /-- a12 to a15 of the banks, non-secure at 12 to 15 and secure at 16 + 12 to 16 + 15. -/
  bankA : SMap Addr
deriving DecidableEq, Repr

/-- A granule's metadata at its home (R90, R396). -/
structure Granule where
  poison : Bool
  /-- The key slot and its epoch. -/
  owner : Option (BitVec 10 × BitVec 6)
deriving DecidableEq, Repr

/-- A claim at a home (R146): its unit is the 64-byte granule or, for a block, the 4 KiB block; at the home of a peer, that of
`State.granuleOf`. A claim whose region has closed is held until that region's accesses have been performed (R147): `closed`
lists those outstanding, by row of the store queue and by number of the factor or engine operation. -/
structure Claim where
  unit : Nat
  block : Bool
  excl : Bool
  chip : BitVec 10
  die : BitVec 2
  core : BitVec 6
  seq : Seq
  closed : Option (List Nat × List Nat)
deriving DecidableEq, Repr

/-- Device memory by cell: bytes, metadata by granule, sealed frames by the cell of their first byte over 2^17 (R239) and
claims. A byte that is not listed
reads zero (R400). -/
structure Memory where
  bytes : SMap Byte
  gran : SMap Granule
  sealed : SMap Bool
  claims : List Claim
deriving DecidableEq, Repr

/-- An entry of the translation cache (R29): its leaf, the leaf's level, and the physical address of the entry. -/
structure TlbEntry where
  asid : BitVec 11
  base : Addr
  level : Nat
  leaf : BitVec 128
  entry : Nat
deriving DecidableEq, Repr

/-- A translated access as bound at its issue (R6, R25, R120). -/
structure Bound where
  va : Addr
  asid : BitVec 11
  secure : Bool
  leaf : BitVec 128
  /-- The physical address at the target. -/
  pa : Nat
  /-- The interleave version bound. -/
  ver : Bool
deriving DecidableEq, Repr

/-- The timing of a timed store: its due time, its effective scope (0 die, 1 pkg, 2 pod) and its tag under late-fault. -/
structure Timed where
  due : Word64
  scope : Nat
  tag : Option (BitVec 6)
deriving DecidableEq, Repr

/-- Where a store of the queue stands: queued, on its way to its home, or waiting in the home's timed buffer. -/
inductive StoreAt where
  | queued
  | sent
  | timedBuffer
deriving DecidableEq, Repr

/-- A store of the control sequencer from its issue until it is performed or refused (R140, R233). -/
structure StoreRow where
  /-- Position in issue order, counted with the factor operations. -/
  id : Nat
  /-- The row of the store queue that it took. -/
  row : Nat
  /-- The task that issued it (log entry 65). -/
  task : Nat
  bound : Bound
  size : Nat
  data : Word64
  /-- Its data was loaded from a poisoned granule (R89). -/
  poison : Bool
  pc : Addr
  timed : Option Timed
  place : StoreAt
deriving DecidableEq, Repr

/-- A refusal of a store that waits to be raised (R26). -/
structure Deferred where
  cause : Cause
  pc : Addr
  addr : Addr
  tvalue : Word64
deriving DecidableEq, Repr

/-- What the control sequencer waits for from an answer out of the package: nothing, the answer to the request of a number, or the
answer's value and refusal. -/
inductive Remote where
  | idle
  | waiting (pc : Addr) (id : Nat)
  | answered (pc : Addr) (v : Word64) (refusal : Option Cause)
deriving DecidableEq, Repr

/-- A factor operation accepted or queued: its entry of fq is filled at its completion (R242, R244). -/
structure FactorOp where
  /-- Position in issue order, counted with the stores. -/
  id : Nat
  /-- The task that issued it (log entry 65). -/
  task : Nat
  /-- Kind of R241. -/
  kind : Nat
  bound : Bound
  b : Word64
  c : Word64
  arg : BitVec 6
  /-- Scratchpad address of the operand block, and its bytes as read at issue. -/
  block : BitVec 22
  data : Nat
  /-- Issued in supervisor mode. -/
  sup : Bool
  accepted : Bool
  /-- Writes of Enq or hops of Chase performed, the pointer reached, and an access to another home that is not answered yet. -/
  steps : Nat
  ptr : Word64
  asked : Bool
  result : Option (Word64 × BitVec 6)
deriving DecidableEq, Repr

/-- An access that the hardware makes for the core to a home outside the package (R25): by whom (the sequencers' fetches at 0 to 3, phase
records at 4, the drains of the two logs at 5 and 6, the descriptor of a launch at 7), its address and size, whether it is a write, the
number of its request, and its answer once it has come. -/
structure HwAsk where
  user : Nat
  asid : BitVec 11
  va : Addr
  size : Nat
  write : Bool
  req : Nat
  answer : Option (Nat × Option Cause)
deriving DecidableEq, Repr

/-- The memory interface of the control sequencer. -/
structure MemUnit where
  tlb : List TlbEntry
  storeQ : List StoreRow
  nextRow : Nat
  deferred : List Deferred
  remote : Remote
  /-- A not-before load at its home: its access, its size, its time and the number of its request (R129). -/
  notBefore : Option (Bound × Nat × Word64 × Nat)
  factor : List FactorOp
  fq : List (Word64 × BitVec 6)
  /-- The position of the next store or factor operation in issue order. -/
  nextId : Nat
  /-- Tensor releases that wait for the last pin, by the entry's address: the releasing task and its tag (R40). -/
  releases : SMap (Option (Nat × Nat))
  hw : List HwAsk
  /-- The scalar data cache (R85): by set, the granules whose lines it holds, the last used first (log entry 38). -/
  lines : SMap (List Nat)
deriving DecidableEq, Repr

/-- A lane of a vector register: its 32 bits and its side bit (R248). -/
structure Lane where
  bits : Word32
  side : Bool
deriving DecidableEq, Repr

/-- A vector register image of 1,024 lanes, row by row (R248). -/
abbrev VReg := SMap Lane

/-- A lane of zero. -/
def Lane.zero : Lane := ⟨0, false⟩

/-- An asynchronous cause that waits for its issue boundary (R350). -/
structure Async where
  cause : Cause
  seq : Seq
  tvalue : Word64
  addr : Addr
  /-- The address its rule names; none: the word about to issue. -/
  pc : Option Addr
deriving DecidableEq, Repr

/-- The value queues, token queues (R163, R164). -/
structure Queues where
  tq : SMap (BitVec 8)
  vq0 : List Word64
  vq1 : List Word64
deriving DecidableEq, Repr

/-- A cause that has arisen in the cycle and takes its way at the cycle's end (R350): its sequencer, FAULTPC, TVALUE and FAULTADDR, and,
of the POISON of a scratchpad granule, the address that was read (R361). -/
structure Held where
  cause : Cause
  seq : Seq
  pc : Addr
  async : Bool
  tvalue : Word64
  addr : Addr
  poison : Option Nat
deriving DecidableEq, Repr

/-- What the cycle that runs has seen so far, for what acts on a state as it stood at the cycle's start (log entry 40). -/
structure Cycle where
  /-- Tokens put by queue, and the sequencers whose puts are tried once more (R165). -/
  puts : SMap Nat
  again : List Seq
  /-- CSRs as they stood (R225). -/
  csr : Option (SMap Word64)
  /-- A handler is entered in this cycle, or in the next one (R355). -/
  entered : Bool
  entering : Bool
  /-- A cause that arises now waits for the cycle's end, and the one that waits (R350). -/
  defers : Bool
  held : Option Held
  /-- The control sequencer has issued an instruction (R69, R105). -/
  ctl : Bool
  /-- Tags that operations of the load and store sequencers have completed at their gos (R82). -/
  tags : Word64
deriving DecidableEq, Repr

/-- A cycle in which nothing has happened yet. -/
def Cycle.start : Cycle :=
  { puts := [], again := [], csr := none, entered := false, entering := false, defers := false, held := none, ctl := false, tags := 0 }

/-- What leaves the modelled core for outside parties (the model's own, log entry 2). -/
inductive Message where
  /-- A read or a write of `size` bytes; an access of no bytes asks for claims. Bit 8 × `size` of the data of a write is its poison. -/
  | access (write : Bool) (b : Bound) (size : Nat) (data : Nat)
  /-- The write of an element of `width` bits at bit `bit` of the byte of an access, with its poison. -/
  | element (b : Bound) (bit width value : Nat) (poison : Bool)
  /-- A timed store to a peer's home, which judges its arrival: its due time, its effective scope and its tag under late-fault. -/
  | timed (b : Bound) (size : Nat) (data : Nat) (t : Timed)
  /-- A not-before load of `size` bytes and its time (R129). -/
  | notBefore (b : Bound) (size : Nat) (t : Word64)
  /-- An atomic of a kind of R236: its operand and its comparand. -/
  | atomic (kind : Nat) (b : Bound) (size : Nat) (x cmp : Nat)
  | factor (op : FactorOp)
  /-- An operation on a group record: 0 join, 1 leave, 2 arrive, 3 wait, 4 dissolve. -/
  | group (kind : Nat) (b : Bound) (arg : Word64)
  /-- The registration of a collective with the engine of another home (R318): its epoch is the one in which the party joined, and
  `counted` says whether it was counted there. -/
  | register (b : Bound) (r : Registration) (counted : Bool)
  /-- The refusal of another party's registration here. -/
  | unregistered (r : Registration) (c : Cause)
  | packet (p : Packet) (chip : BitVec 10) (die : BitVec 2) (mem : Bool) (stn : BitVec 6)
  | answer (chip : BitVec 10) (die : BitVec 2) (stn : BitVec 6) (opid : Nat) (discarded : Bool)
  /-- A packet of a collective, to the party of a rank and its chip (R320). -/
  | shard (opid rank : Nat) (chip : BitVec 10) (p : Packet)
  | msix (fn : Nat) (vector : Nat)
  /-- The answer to a host request: its value, or its refusal. -/
  | host (v : Word64)
  | hostRefused (c : Cause)
  | doe (bytes : List Word64)
  /-- The answer to the access of another chip (R25, R395): the number of its request, its value, or the cause of its refusal. -/
  | served (chip : BitVec 10) (req : Nat) (v : Nat) (c : Option Cause)
  /-- A packet at the peer landing window that is refused (R379). -/
  | refusal (chip : BitVec 10) (die : BitVec 2) (stn : BitVec 6) (opid : Nat) (c : Cause)
  /-- Granules that leave the device, 64 bytes with the poison mark and the owner each: of a checkpoint over CXL 0 or Ultra
  Ethernet 1, or of a page that moves to a peer 2 or to pool memory 3 (R382, R384). -/
  | image (mode : Nat) (dst : Nat) (offset : Nat) (granules : List (Nat × Granule))
deriving DecidableEq, Repr

/-- Traps and the machine's own progress record. -/
structure Trap where
  /-- Frozen cycles left, and the freezes that have begun, latest first: the tick of each and the task that was bound (R87, R88). -/
  frozen : Nat
  freezes : List (Word64 × Option Nat)
  /-- Asynchronous causes held for their boundary, oldest first (R350). -/
  pend : List Async
  /-- A control word issued in user mode with STEP = 1; SINGLE_STEP is due at the next boundary (R353). -/
  step : Bool
deriving DecidableEq, Repr

/-- A scratchpad range that an operation in flight reads or writes, in 64-byte granules of issued addresses (R83). -/
structure Range where
  lo : Nat
  hi : Nat
  rd : Bool
  wr : Bool
deriving DecidableEq, Repr

/-- A tensor entry as bound: its slot, its fields and its physical address (R38). -/
structure TensorEntry where
  slot : BitVec 20
  entry : BitVec 512
  pa : Nat
deriving DecidableEq, Repr

/-- A bound tensor (R38): the ASID and the world of the operation that bound it, the die whose layout units resolve it, its entry,
and that of its scale tensor where it is block-scaled (R35). -/
structure Tensor where
  asid : BitVec 11
  secure : Bool
  die : BitVec 2
  main : TensorEntry
  scale : Option TensorEntry
deriving DecidableEq, Repr

/-- A leaf held by a tile-table cache (R29): the tensor and the tile that it maps, and its physical address. -/
structure TileLeaf where
  asid : BitVec 11
  slot : BitVec 20
  tile : Nat
  leaf : BitVec 128
  pa : Nat
deriving DecidableEq, Repr

/-- The caches of a slice's layout unit (R29): tensor entries with their ASID, and tile leaves, the last used first. -/
structure LayoutUnit where
  entries : List (BitVec 11 × TensorEntry)
  leaves : List TileLeaf
deriving DecidableEq, Repr

/-- A collective from its go on (R318 to R325): the address of its record where that has its home in the package, and its epoch; the chip
and the die of its parties by rank, once all have registered; whether its send buffer has been read and sent, and the slices of it that its
own engine lands; the number of its landing and the packets that answers are due to, by chip, die, core and operation; the value of its
record once its landings are done; and whether the landings of every other party are. -/
structure Coll where
  pa : Option Nat
  epoch : Word32
  parties : List (BitVec 10 × BitVec 2)
  sent : Bool
  own : List (List Packet)
  land : Nat
  acks : List (BitVec 10 × BitVec 2 × BitVec 6 × Nat)
  landed : Option Word64
  agreed : Bool
deriving DecidableEq, Repr

/-- An engine operation of the load or store sequencer, from its go until it completes (R200, R201, R305, R313). -/
structure EngOp where
  id : Nat
  side : Side
  /-- The snapshot of the staging copy. -/
  img : BitVec 512
  chained : Bool
  /-- The engine operation that its queue took before it, where that was the last to be taken (R201). -/
  after : Option Nat
  /-- The template slot of its go. -/
  slot : Nat
  /-- Issued in the current phase: a cancellation discards it (R179). -/
  fresh : Bool
  asid : BitVec 11
  secure : Bool
  /-- The address of its go. -/
  pc : Addr
  started : Bool
  /-- Packets sent, packets in all, and those unanswered. -/
  sent : Nat
  total : Nat
  open_ : Nat
  /-- Reads of tiles outside the package for its next packet have been sent; the numbers of those without an answer. -/
  asked : Bool
  asks : List Nat
  /-- A cause ended it after its go (R313). -/
  ended : Bool
  /-- DISCARDED answers: bit 0, or for mcast one bit for each core. -/
  discarded : Word64
  /-- Tensors bound and pinned. -/
  tensors : List Tensor
  /-- Blocks of the wire format sent so far. -/
  blocks : Nat
  ranges : List Range
  /-- Claim units that its go took (R146), and whether the region that took them has closed (R147). -/
  claims : List Nat
  closed : Bool
  coll : Option Coll
deriving DecidableEq, Repr

/-- A map record that packets of an operation bound, and, where it is a ring's, the origins of those packets with the descriptor and
the slot by which they landed. -/
structure RefetchMap where
  map : BitVec 512
  slots : List (List Nat × Word64 × Nat)
deriving DecidableEq, Repr

/-- An operation of a refetch list, by its place in go order: its snapshot and the map records that its packets bound (R359). -/
structure Refetched where
  id : Nat
  img : BitVec 512
  maps : List RefetchMap
deriving DecidableEq, Repr

/-- A refetch list of a double buffer: the arrivals of the last phase, or incomplete (R359). -/
structure Refetch where
  complete : Bool
  ops : List Refetched
deriving DecidableEq, Repr

/-- Templates, operation queues and completion records of the load and store sequencers, and the matrix templates. -/
structure Engine where
  /-- Loaded slots of the tables: load at 0 to 63, store at 64 to 127, matrix at 128 to 191 (R198). -/
  tmpl : SMap (Option (BitVec 512))
  /-- Operations from go to completion, in go order. -/
  ops : List EngOp
  nextId : Nat
  /-- The engine operation last taken by the load queue, at 0, and the store queue, at 1; none: a map operation or none. -/
  last : SMap (Option Nat)
  cq : List (Word64 × BitVec 6)
  /-- What the load sequencer at 0 and the store sequencer at 1 wait for from a group's home outside the package (R318). -/
  remote : SMap Remote
  /-- By DBUF register: the list being made, at 0 to 7, and that of the last commit, at 8 to 15. -/
  refetch : SMap Refetch
deriving DecidableEq, Repr

/-- A directional register and its norm register (R272): components by 64 × row + column, norms by row; a row not listed is
the zero vector. -/
structure DReg where
  comps : SMap (BitVec 16)
  norms : SMap Word32
deriving DecidableEq, Repr

/-- The registers of the vector unit that groups read as they stood at issue (R195, R248, R249, R272). -/
structure VecFile where
  v : SMap VReg
  k : SMap (BitVec 1024)
  d : SMap DReg
deriving DecidableEq, Repr

/-- What the words of a group see as it stood at the group's issue (R191, R301, R302): the registers, the done time of the last acc.st, and
whether mq held or awaited an entry. -/
structure AtIssue where
  file : VecFile
  stored : Nat
  pushed : Bool
deriving DecidableEq, Repr

/-- A stream record (R254). -/
structure Record where
  w0 : Word64
  w1 : Word64
  w2 : Word64
deriving DecidableEq, Repr

/-- What sbind binds to a port (R257): the record, its index record, FMODE.RM and FMODE.SATD. -/
structure Binding where
  walk : Record
  index : Record
  rm : BitVec 2
  satd : Bool
deriving DecidableEq, Repr

/-- An image of an input port: the rows read so far, and the cause and FAULTADDR of a faulty one (R258). -/
structure InImage where
  lanes : VReg
  rows : Nat
  fault : Option (Cause × Nat)
deriving DecidableEq, Repr

/-- An input port: its binding, the images popped of its walk, and those it holds, oldest first. -/
structure InPort where
  bound : Option Binding
  popped : Nat
  images : List InImage
deriving DecidableEq, Repr

/-- An image queued at an output port: its lanes, the slot that produced it, the addresses of its rows, the rows written,
and its range-checker entry (R259). -/
structure OutImage where
  lanes : VReg
  slot1 : Bool
  rm : BitVec 2
  satd : Bool
  /-- The issue cycle of its group. -/
  issued : Nat
  addrs : List Nat
  done : Nat
  /-- Destination blocks for which it has logged an event, by bank and block (R67). -/
  logged : List (Nat × Nat)
  range : Range
deriving DecidableEq, Repr

/-- An output port: its binding, the images queued of its walk, and those not yet performed, oldest first. -/
structure OutPort where
  bound : Option Binding
  queued : Nat
  images : List OutImage
deriving DecidableEq, Repr

/-- The vector unit. -/
structure VecUnit where
  file : VecFile
  /-- The registers as they stood when the group that runs issued (log entry 4). -/
  image : Option AtIssue
  /-- The V slot whose word runs is V1 (log entry 4). -/
  slot1 : Bool
  /-- Operand latches LA, LB and LC of V0 at 0 to 2 and of V1 at 3 to 5: the register code and its image (R252). -/
  latch : SMap (Option (Nat × VReg))
  records : SMap Record
  inp : SMap InPort
  out : SMap OutPort
  /-- Self-cycles of the compute sequencer: the time of R253 and of R298 (log entry 12). -/
  now : Nat
  /-- The cycle from which a register is readable: v at 0 to 47, k at 64 to 71, d at 128 to 143; at 200 to 205 when a result
that no register takes retires: that of an output port, or of a V slot (R171, R253). -/
  ready : SMap Nat
  /-- Readable cycles that hold a bank's write port: bank and cycle (R253). -/
  ports : List (Nat × Nat)
  /-- The cycle from which a V slot accepts its next word (R253). -/
  accept : SMap Nat
deriving DecidableEq, Repr

/-- A matrix operation from its go until it retires (R293, R298). Times are engine times in self-cycles of the task. -/
structure MatOp where
  /-- The snapshot of the staging copy, and its template slot. -/
  img : BitVec 512
  slot : Nat
  /-- The descriptors of both rings, and the first slots of their tiles. -/
  da : Word64
  db : Word64
  sa : Nat
  sb : Nat
  /-- It stands among the operations of the phase that issued it behind another it must follow (R201). -/
  chained : Bool
  running : Bool
  /-- K steps performed. -/
  done : Nat
deriving DecidableEq, Repr

/-- The matrix engine: accumulators and flags (PSN, NAN, OVF, CLOST from bit 0 on; R296), the operations in go order,
the result queue mq with the done time of each push (R302), and engine time (R298). -/
structure MatUnit where
  acc : SMap (SMap Word32)
  flags : SMap (BitVec 4)
  ops : List MatOp
  mq : List (Word64 × BitVec 6 × Nat)
  /-- Per accumulator: the done time of its last word, and NR of its last operation. -/
  wordDone : SMap Nat
  opDone : SMap Nat
  /-- NE and NR of the last operation, and the done time of the last acc.st. -/
  ne : Nat
  nr : Nat
  stored : Nat
  /-- NS of operations that may not have started in engine time. -/
  starts : List Nat
  /-- Ring, tiles and NR of pops that may be due in engine time. -/
  pops : List (Nat × Nat × Nat)
  /-- Banks of acc.ld and acc.st in flight, each with the tick at which the word is done (R64, R300). -/
  banks : List (Nat × Nat)
deriving DecidableEq, Repr

/-- The completion of a map operation: its tag, whether it pushes a record to cq, whether it was issued in the current phase (R179), and
the task that issued it (log entry 65). -/
structure MapTag where
  tag : Nat
  cq : Bool
  fresh : Bool
  task : Nat
deriving DecidableEq, Repr

/-- A map slot (R93, R97): FREE 0, LIVE 1, RETIRING 2. -/
structure MapSlot where
  st : Nat
  /-- The map record (R94). -/
  map : BitVec 512
  /-- World and ASID of the installing task, and whether the modelled core installed it. -/
  secure : Bool
  asid : BitVec 11
  own : Bool
  /-- The installing task (log entry 65) and its sequencer. -/
  task : Nat
  side : Side
  /-- The completion of its retirement; none: with no tag. -/
  tag : Option MapTag
  /-- The tensor bound and pinned. -/
  tensor : Option Tensor
  /-- Ring slots taken by window tiles (R99). -/
  tiles : SMap (Option Nat)
  bound : Nat
  shadow : Nat
deriving DecidableEq, Repr

/-- A map operation that takes effect at a boundary (R106, R315): its kind, its slots, its record and its tag. -/
structure MapOp where
  kind : Nat
  slot : Nat
  slot2 : Nat
  map : BitVec 512
  secure : Bool
  asid : BitVec 11
  own : Bool
  task : Nat
  side : Side
  tag : Option MapTag
  tensor : Option Tensor
deriving DecidableEq, Repr

/-- What a bound packet waits for: in the hold, for a bank's format or a ring slot (R98); or, its elements sent, for the homes outside the
package where they land (R99). -/
inductive HoldWait where
  | no
  | format
  | ring
  | home
deriving DecidableEq, Repr

/-- A map that a packet has bound and at which it has not landed yet (R98). -/
structure Bind where
  slot : Nat
  waits : HoldWait
  /-- The ring slot that its tile has, at a ring's map (R99); the number of its landing, where it waits for homes outside the package. -/
  place : Nat
deriving DecidableEq, Repr

/-- A packet at a wharf, from its header's entry into matching until its answer (R97 to R102). -/
structure Transit where
  packet : Packet
  /-- CLK when its header was taken into matching, and the tick at which its hold time ends. -/
  taken : Nat
  expiry : Nat
  /-- It has bound no map. -/
  unbound : Bool
  binds : List Bind
  /-- It lies in the hold; if it does no more, the ticks that it spent there. -/
  held : Bool
  stayed : Nat
  /-- It has landed at a map. -/
  landed : Bool
  /-- With its answer its operation may have no packet left here: it is the last of its operation, or the last was answered before it
  (R67). -/
  last : Bool
deriving DecidableEq, Repr

/-- A destination block for which an operation of a sender has logged an event (R67): sender, map slot, place and block. -/
structure Logged where
  chip : BitVec 10
  die : BitVec 2
  stn : BitVec 6
  opid : Nat
  slot : Nat
  place : Nat
  block : Nat
deriving DecidableEq, Repr

/-- A wharf (R93): its slots, the map operations that have not taken effect, its packets, oldest header first, and the
events that operations in transit have logged. -/
structure Wharf where
  slots : SMap MapSlot
  ops : List MapOp
  transit : List Transit
  logged : List Logged
deriving DecidableEq, Repr

/-- A membership of a group (R169). -/
structure Member where
  va : Addr
  joined : Word32
  counted : Bool
  arrived : Option Word32
deriving DecidableEq, Repr

/-- The record of the current phase (R174, R175): not read yet, read, or the cause that its reading met. -/
inductive PhaseRec where
  | unread
  | got (index : Nat) (r : BitVec 256)
  | bad (c : Cause) (tvalue : Word64) (addr : Addr)
deriving DecidableEq, Repr

/-- The commit state (R179, R260), with the record that names its live items. -/
structure Commit where
  seqs : Seqs
  g : SMap Word64
  a : SMap Addr
  m : SMap Word64
  q : Queues
  /-- TAGS, TAGPEND, FMODE, HOLDT, BANKFMT, the ring descriptors and DBUF. -/
  csr : SMap Word64
  landed : SMap Nat
  mq : List (Word64 × BitVec 6 × Nat)
  fq : List (Word64 × BitVec 6)
  cq : List (Word64 × BitVec 6)
  file : VecFile
  acc : SMap (SMap Word32)
  flags : SMap (BitVec 4)
  inp : SMap InPort
  out : SMap OutPort
  live : BitVec 256
deriving DecidableEq, Repr

/-- The current phase. -/
structure Phase where
  /-- Load, compute and store sequencer at 0 to 2: it has reached its swap. -/
  reached : BitVec 3
  /-- The control sequencer's yield (R347), and a swap word with Y = 1 (R197). -/
  marked : Bool
  yields : Bool
  /-- No group of the phase has issued. -/
  first : Bool
  /-- The compute sequencer's swap has issued, a yield or not, and waits until the matrix engine has retired its operations (R171). -/
  swapping : Option Bool
  record : PhaseRec
  /-- CLK when leave was asked for, and leave granted (R405). -/
  asked : Option Word64
  granted : Bool
  commit : Commit
  /-- Records pushed to fq and cq since the commit by operations issued before it (R179). -/
  fqNew : List (Word64 × BitVec 6)
  cqNew : List (Word64 × BitVec 6)
  /-- Tags pending at the commit whose operations have not ended since, and those of them that have completed (R179). -/
  tagsOld : Word64
  tagsNew : Word64
  /-- Bits that packets of other operations than the phase's own have landed of a ring tile since the commit, by 256 × ring + slot, and the
  slots that such packets have reserved (R179). -/
  landedNew : SMap Nat
  slotsNew : List Nat
deriving DecidableEq, Repr

/-- A stage of a launch as it runs (R335, R336): activations started, tasks bound, and from when W counts. -/
structure StageRun where
  started : Nat
  bound : Nat
  /-- The tick from which W counts (R336): that in which it last became ready, or in whose round a task of it was bound; none: not ready. -/
  since : Option Nat
deriving DecidableEq, Repr

/-- A launch that is PENDING or LIVE (R328 to R336). -/
structure Launch where
  number : Nat
  asid : BitVec 11
  secure : Bool
  /-- The descriptor as read at launch: header, queue descriptors and stage entries. -/
  header : BitVec 512
  queues : List (BitVec 128)
  stages : List (BitVec 512)
  /-- The compiled time-division table; empty: the default. -/
  table : List Word64
  prio : Nat
  /-- A priority that setprio has written, in effect from the next selection round on (R337). -/
  newPrio : Option Nat
  /-- The launch queue it entered. -/
  queue : Nat
  /-- Dependence slots that are released, and those released by an aborted launch (R362). -/
  released : BitVec 4
  aborted : BitVec 4
  live : Bool
  triggered : Bool
  run : List StageRun
  /-- Pushes granted and not yet made, by queue (R335). -/
  grants : SMap Nat
deriving DecidableEq, Repr

/-- The bound task beside its CSRs (R160). -/
structure Task where
  bound : Bool
  /-- The number of the binding that began it (log entry 65). -/
  id : Nat
  /-- Its world, fixed at the binding that began it (R16). -/
  secure : Bool
  /-- Its sequencers have not begun (R338 step 4). -/
  starting : Bool
  prio : Nat
  /-- Pushes granted and not yet made (R338, R348). -/
  grants : Nat
  members : List Member
  /-- A launch instruction that has been checked and waits for room, by its address (R345). -/
  launching : Option (Addr × Launch)
  /-- By sequencer: its word waits at a token get, a value-queue peek or a tag wait (R347). -/
  waits : BitVec 4
deriving DecidableEq, Repr

/-- A write of a BANKFMT register that has not taken effect (R64). -/
structure FormatWrite where
  bank : Nat
  value : Word64
deriving DecidableEq, Repr

/-- The scratchpad: bytes and poison bits by physical bank address (R70, R89), what has landed of each ring tile (R79),
and the BANKFMT writes that wait (R64). -/
structure Scratch where
  bytes : SMap Byte
  /-- By granule: address / 64. -/
  poison : SMap Bool
  /-- Bits landed of a ring tile, by 256 × ring + slot: 8 × 24,576 when it is ready. -/
  landed : SMap Nat
  /-- Slots of a ring popped in the phase, which are not reserved until its commit (R179). -/
  ringHeld : SMap Nat
  fmtPend : List FormatWrite
deriving DecidableEq, Repr

/-- The overflow event queue of 32 records (R67) and the unlanded queue of 16 (R104, R105), oldest first; the memory
wharves' unlanded queues, by die. -/
structure Logs where
  overflow : List (BitVec 128)
  unlanded : List (BitVec 256)
  memUnlanded : SMap (List (BitVec 256))
deriving DecidableEq, Repr

/-- A TDISP device interface, by function (R391): CONFIG_UNLOCKED 0, CONFIG_LOCKED 1, RUN 2, ERROR 3; the selective IDE stream
that it was bound to, and whether ASSIGNMENT_LOCK stands in its error status. -/
structure Tdi where
  state : Nat
  stream : Nat
  lockError : Bool
deriving DecidableEq, Repr

/-- A request to a peer or to pool memory: of the word that waits, of a store by its place in issue order, of a factor operation, a
packet of an engine operation, its read of tiles, the registration of a collective's go, an element of a landing of a number, an access of
the hardware for the core, or granules of an image (R382, R384). -/
inductive FabricWhat where
  | word
  | store (id : Nat)
  | factor (id : Nat)
  | packet (op : Nat)
  | tile (op : Nat)
  | go (side : Side)
  | element (land : Nat)
  | hw
  | image
deriving DecidableEq, Repr

/-- A request on the fabric that has no answer yet (R371 to R378): its number, its pool address or its chip, the group and the UALink
station of it that it is bound to, none while it waits at the hub, and the tick at which it was sent, or came to the hub. -/
structure FabricReq where
  what : FabricWhat
  pool : Bool
  chip : BitVec 10
  pa : Nat
  secure : Bool
  group : Option Nat := none
  station : Nat := 0
  sent : Nat := 0
  id : Nat := 0
deriving DecidableEq, Repr

/-- A SerDes group beside its registers (R370 to R373, R383): SGCTL as its last GO took it, the tick at which a drain ends, the lanes that
it has kept since its last GO, the ticks and counts of its recent link replays, the key in force, the phase of transmitted flits, and
whether a CXL group still accepts the old key set. -/
structure Serdes where
  ctl : Word64
  drainEnd : Option Nat
  lanes : Nat
  replays : List (Nat × Nat)
  key : BitVec 256
  txPhase : Bool
  oldSet : Bool
deriving DecidableEq, Repr

/-- A firmware image as the boot ROM reads it (R397): its SHAKE256 digest, its security version, and whether its signature verifies. -/
structure Firmware where
  digest : BitVec 512
  version : Word64
  signed : Bool
deriving DecidableEq, Repr

/-- The key pairs of attestation (R398), held as what they are derived from, so that a state is a closed value: the digest of the firmware
behind the alias key, and whether the identity private key is still there. -/
structure Attest where
  digest : BitVec 512
  identityHeld : Bool
deriving DecidableEq, Repr

/-- The keys as the boot ROM derives them at a reset, from the unique secret and the digest of the image (R398). -/
def Attest.derive (digest : BitVec 512) : Attest := ⟨digest, true⟩

/-- The identity private key is erased before firmware runs (R398). -/
def Attest.erased (a : Attest) : Attest := { a with identityHeld := false }

/-- The identity private key, until it is erased (R398). -/
def Attest.identity (a : Attest) : Option (BitVec 512) := if a.identityHeld then some (identityKey uniqueSecret) else none

/-- The alias private key, which signs (R398). -/
def Attest.signer (a : Attest) : BitVec 512 := aliasKey (identityKey uniqueSecret) a.digest

/-- The certificate of the identity key, which the maker signs (R398). -/
def Attest.identityCert (_a : Attest) : List Word64 :=
  let key := publicKey (identityKey uniqueSecret)
  key ++ signature makerKey key 0

/-- The certificate of the alias key, which the identity key signs before it is erased (R398). -/
def Attest.aliasCert (a : Attest) : List Word64 :=
  publicKey a.signer ++ signature (identityKey uniqueSecret) (publicKey a.signer) 0

/-- A session that SPDM's key exchange has opened, with its secret, and whether it is established (R388). -/
structure Session where
  secret : BitVec 512
  finished : Bool
deriving DecidableEq, Repr

/-- A request for leave of another core of the modelled core's die: its tick, its core and the watts it asks for (R405). -/
structure LeaveAsk where
  tick : Nat
  core : Nat
  watts : Nat
deriving DecidableEq, Repr

/-- The hub's and the dies' configuration registers by their configuration address, with what stands behind them. -/
structure Package where
  /-- Registers by configuration byte address (R14); one not listed holds its reset value. -/
  cfg : SMap Word64
  /-- CLK of each live die (R124). -/
  clk : SMap Word64
  /-- The counters run, from CLKINIT on (R402). -/
  clkRuns : Bool
  /-- World bits of the regions of 2 MiB, secure unless listed (R393). -/
  regions : SMap Bool
  /-- DELEG, held once for the package (R353, R399). -/
  deleg : Word64
  /-- Fuses: the fused-off position, the live dies with an upper store die, the part (R401). -/
  fused : BitVec 3
  upper : BitVec 4
  part : Bool
  /-- A contained stop holds (R365). -/
  stopped : Bool
  /-- Requests in flight bound to the non-current interleave version (R120), those of outside agents. -/
  oldRequests : Nat
  /-- The module has power (R407). -/
  powered : Bool
  /-- The boot ROM accepted the firmware (R397), and the fused security counter. -/
  firmware : Bool
  secVersion : Word64
  /-- The image that the boot ROM reads at a reset (R397), and the keys derived at the last one (R398). -/
  image : Firmware
  attest : Attest
  /-- The SPDM session, and the keys of the four IDE streams (R388). -/
  session : Option Session
  ideKeys : SMap (Option (BitVec 512))
  /-- SGKEY and KSKEY as written, by configuration address; they read 0 (R383, R394). -/
  secret : SMap Word64
  /-- The key pairs of the key slots (R394). -/
  slotKeys : SMap (BitVec 512)
  groups : SMap Serdes
  fabric : List FabricReq
  /-- The numbers of the last request and of the last landing (log entry 2). -/
  requests : Nat
  landings : Nat
  /-- Parties registered with the collective engines of the package (R318). -/
  colls : List Registration
  /-- Values written to TDM and TDMCTL registers and not in effect, by configuration address (R113). -/
  staged : SMap (Option Word64)
  /-- Cycles of the dies' rings since bring-up, and the cycle of the last staged write by die (R111, R113). -/
  cycles : Nat
  stagedAt : SMap Nat
  tdis : SMap Tdi
  /-- The BAR and MSI-X configuration of the functions (R390, R391): word 0, the base of BAR 0, and words 1 to 68, the entries of the vectors,
  at 128 × function. -/
  pci : SMap Word64
  /-- Requests for leave of other cores that are not granted, oldest first, and the watts granted by core (R405). -/
  leaveQueue : List LeaveAsk
  leaves : SMap Nat
  /-- The dies above their temperature limit, and the tick since which one has been so at 1.0 GHz (R406). -/
  hot : SMap Bool
  hotSince : SMap (Option Word64)
  /-- Command registers as their last GO took them, by configuration address (R384, R393, R394). -/
  running : SMap Word64
  /-- A move under way waits for the granules of its old frame from another hub: MIGCMD as written, the number of the request and the leaf as
  read; or has written its leaf (R381, R382). -/
  moveAsks : Option (Word64 × Nat × BitVec 128)
  moving : Option (BitVec 128)
  /-- A write of the checkpoint's has been refused, with its cause (R384). -/
  ckRefused : Option Cause
  /-- Synchronisation intervals in a row with an offset bound of at most 78 ticks, up to 16 (R126). -/
  ptpGood : Nat
deriving DecidableEq, Repr

/-- Why a task is parked: a yield, a page fault, a debug halt or a pre-emption. -/
inductive ParkWhy where
  | yield
  | fault
  | halt
  | preempt
deriving DecidableEq, Repr

/-- What a save keeps of a core beside the bytes of its frame (R364). -/
structure Context where
  seqs : Seqs
  sc : Scalars
  csr : SMap Word64
  q : Queues
  fq : List (Word64 × BitVec 6)
  scr : Scratch
  vec : VecUnit
  mat : MatUnit
  eng : Engine
  logs : Logs
  phase : Phase
  task : Task
  wharf : Wharf
  step : Bool
  remote : Remote
  /-- Refusals of its stores that wait to be raised (R26), and asynchronous causes held (R350). -/
  deferred : List Deferred
  pend : List Async
deriving DecidableEq, Repr

/-- A parked task (R339, R340, R367). -/
structure Parked where
  launch : Nat
  stage : Nat
  act : Nat
  secure : Bool
  why : ParkWhy
  /-- RESUME has named it. -/
  resumed : Bool
  /-- The number of its frame, and whether the save was full. -/
  frame : Nat
  full : Bool
  /-- The tick in which it last became ready, from which W counts (R336); none: it is not ready. -/
  since : Option Nat
  context : Context
deriving DecidableEq, Repr

/-- A rotation of one level of one die (R336): the launch at its pointer and its credit. -/
structure Rotation where
  ptr : Nat
  credit : Nat
deriving DecidableEq, Repr

/-- A task that waits to be bound on the modelled core: a new activation of a stage or a parked task. -/
structure Chosen where
  launch : Nat
  stage : Nat
  /-- The position of the parked task among the parked; none: a new activation. -/
  parked : Option Nat
  prio : Nat
  /-- The tick of the round that chose it (R336). -/
  round : Nat
deriving DecidableEq, Repr

/-- The package arbiter and the dispatchers (R332 to R341). -/
structure Dispatch where
  /-- PENDING and LIVE launches in the order of their admission, those not admitted last. -/
  launches : List Launch
  /-- Launch numbers that are DONE, with their ASID. -/
  finished : SMap (Option (BitVec 11))
  /-- Launches that ended in an abort (R362). -/
  abortedNumbers : List Nat
  next : Nat
  /-- Tasks bound for the first time so far (log entry 65). -/
  tasks : Nat
  /-- Launch queues, heads first. -/
  queues : SMap (List Nat)
  /-- Rotations by 8 × die + level. -/
  rotations : SMap Rotation
  parked : List Parked
  /-- A save that waits for a frame or for its work to settle (R183, R364): why, and whether it is full. -/
  saving : Option (ParkWhy × Bool)
  /-- Descriptors of the host that have been checked and wait for a launch number, by queue (R333). -/
  submitted : SMap (Option Launch)
  chosen : Option Chosen
  /-- Every other core of the modelled core's die holds a task, as the last round found it (R339, log entry 6). -/
  others : Bool
  /-- ASID and TDMVA of the launch whose time-division table the dispatcher last wrote to the die (R334). -/
  table : BitVec 11 × Addr
  /-- Frames in use of the pools, non-secure at 0 and secure at 1. -/
  frames : SMap (List Nat)
deriving DecidableEq, Repr

/-- The machine. -/
structure State where
  /-- Whose step is next (log entry 1). -/
  turn : Turn
  /-- What became of the last issue (log entry 1). -/
  last : Issue
  /-- The input of the event that runs (log entry 2). -/
  input : Input
  /-- Hardware events due, oldest first (log entry 2). -/
  agenda : List Pending
  /-- What left for outside parties, latest first (log entry 2). -/
  outbox : List Message
  /-- Free values drawn (log entry 3). -/
  draws : Nat
  /-- The die and number of the modelled core, fixed (log entry 6). -/
  die : BitVec 2
  core : BitVec 6
  seqs : Seqs
  sc : Scalars
  /-- The core's CSRs by number (R224); one not listed holds its reset value. -/
  csr : SMap Word64
  q : Queues
  cycle : Cycle
  mu : MemUnit
  mem : Memory
  /-- The layout units of the live dies' slices, by 16 × die + slice (R29). -/
  layout : SMap LayoutUnit
  scr : Scratch
  vec : VecUnit
  mat : MatUnit
  eng : Engine
  logs : Logs
  trap : Trap
  phase : Phase
  task : Task
  /-- The core wharf at 0 and the memory wharf of die d at 1 + d. -/
  wharves : SMap Wharf
  disp : Dispatch
  pkg : Package
deriving DecidableEq, Repr

/-- The commit state before any commit. -/
def Commit.empty (t : Seqs) : Commit :=
  { seqs := t, g := [], a := [], m := [], q := { tq := [], vq0 := [], vq1 := [] }, csr := [], landed := [], mq := [], fq := [], cq := []
    file := { v := [], k := [], d := [] }, acc := [], flags := [], inp := [], out := [], live := 0 }

/-- A sequencer as it stands at reset: idle, no task being bound (R160). -/
def SeqRegs.reset : SeqRegs := { run := false, pc := 0, p := 0, lc := [] }

/-- The machine right after reset (R400). -/
def State.reset : State :=
  { turn := .seq .load, last := .done, input := {}, agenda := [], outbox := [], draws := 0, die := 0, core := 0
    seqs := ⟨.reset, .reset, .reset, .reset⟩
    sc := { g := [], a := [], m := [], taint := [], bankG := [], bankA := [] }
    csr := []
    q := { tq := [], vq0 := [], vq1 := [] }
    cycle := Cycle.start
    mu := { tlb := [], storeQ := [], nextRow := 0, deferred := [], remote := .idle, notBefore := none, factor := [], fq := [], nextId := 0, releases := [], hw := [], lines := [] }
    mem := { bytes := [], gran := [], sealed := [], claims := [] }
    layout := []
    scr := { bytes := [], poison := [], landed := [], ringHeld := [], fmtPend := [] }
    vec := { file := { v := [], k := [], d := [] }, image := none, slot1 := false, latch := [], records := [], inp := [], out := []
             now := 0, ready := [], ports := [], accept := [] }
    mat := { acc := [], flags := [], ops := [], mq := [], wordDone := [], opDone := [], ne := 0, nr := 0, stored := 0, starts := [], pops := [], banks := [] }
    eng := { tmpl := [], ops := [], nextId := 0, last := [], cq := [], remote := [], refetch := [] }
    logs := { overflow := [], unlanded := [], memUnlanded := [] }
    trap := { frozen := 0, freezes := [], pend := [], step := false }
    phase := { reached := 0, marked := false, yields := false, first := true, swapping := none, record := .unread, asked := none, granted := false
               commit := Commit.empty ⟨.reset, .reset, .reset, .reset⟩, fqNew := [], cqNew := [], tagsOld := 0, tagsNew := 0, landedNew := [], slotsNew := [] }
    task := { bound := false, id := 0, secure := false, starting := false, prio := 0, grants := 0, members := [], launching := none, waits := 0 }
    wharves := []
    disp := { launches := [], finished := [], abortedNumbers := [], next := 0, tasks := 0, queues := [], rotations := [], parked := []
              saving := none, submitted := [], chosen := none, others := false, table := (0, 0), frames := [] }
    pkg := { cfg := [], clk := [], clkRuns := false, regions := [], deleg := 0, fused := 4, upper := 15, part := false
             stopped := false, oldRequests := 0, powered := true, firmware := true, secVersion := 0, image := ⟨0, 0, true⟩
             attest := (Attest.derive 0).erased, session := none, ideKeys := [], pci := [], leaveQueue := [], leaves := [], hot := [], hotSince := [], secret := [], slotKeys := []
             groups := [], fabric := [], requests := 0, landings := 0, colls := [], staged := [], cycles := 0, stagedAt := [], tdis := [], running := [], moveAsks := none, moving := none, ckRefused := none, ptpGood := 0 } }

end Sys2Proof.Machine
end

