-- ==== Sys2Proof/Machine/Ops.lean ====
section
/-! DEFINITION. The named operations over registers: bit fields, sequencers, scalar registers, CSRs, configuration
registers, and taking an exception (R355) with the return from one (R356). -/
namespace Sys2Proof.Machine

/-- The field of `len` bits at `lo`, as a number. -/
def fld {n : Nat} (w : BitVec n) (lo len : Nat) : Nat := (w.toNat >>> lo) % 2 ^ len

/-- `w` with the field of `len` bits at `lo` replaced by `v`. -/
def put {n : Nat} (w : BitVec n) (lo len : Nat) (v : Nat) : BitVec n :=
  (w &&& ~~~(BitVec.ofNat n (2 ^ len - 1) <<< lo)) ||| (BitVec.ofNat n (v % 2 ^ len) <<< lo)

/-- `w` with bit `i` set to `b`. -/
def putBit {n : Nat} (w : BitVec n) (i : Nat) (b : Bool) : BitVec n := put w i 1 b.toNat

/-- A number as a 64-bit word, modulo 2^64. -/
abbrev w64 (n : Nat) : Word64 := BitVec.ofNat 64 n

/-- A mask with the bits of the fields given, each by its lowest bit and width. -/
def fieldMask (l : List (Nat × Nat)) : Word64 := l.foldl (fun w (lo, n) => put w lo n (2 ^ n - 1)) 0

/-- The code of a cause (R352). -/
def Cause.code (c : Cause) : BitVec 6 := BitVec.ofNat 6 c.ctorIdx

/-- The causes in the order of their codes. -/
def Cause.all : List Cause :=
  [.illegal, .reservedBits, .privilege, .misalign, .badRegister, .templateEmpty, .fieldRange, .queueUnderflow,
   .queueOverflow, .tokenOverflow, .ringOverrun, .ringUnderrun, .layoutMismatch, .formatMismatch, .breakpoint, .singleStep] ++
  [.notMapped, .pageAbsent, .permission, .world, .staleHandle, .tensorBounds, .sealedStore, .race,
   .claimFull, .atomicTarget, .factorProgram, .keyAbsent, .windowClosed, .fabricTimeout, .tagBusy, .mapSlot] ++
  [.lateStore, .clockUnlocked, .poison, .uncorrectable, .phaseCycles, .phaseSignature, .watchdog, .correctableStorm,
   .barrierOvercount, .leaveTimeout, .thermalStop, .dieLost, .linkLost, .replayExhausted, .containedStop, .progressCompat] ++
  [.trapCall, .hostCall, .launchResource, .launchMalformed, .dependenceInvalid, .groupState, .stageQueue, .exitLive,
   .liveRecord, .preempted, .debugHalt, .counterOverflow, .worldSwitch, .assignmentLock, .integrity, .machineCheck]

/-- The cause of a code (R352). -/
def Cause.ofCode (n : Nat) : Cause := Cause.all.getD n .illegal

/-! Sequencers. -/

/-- The number of a sequencer (R161). -/
def seqNum : Seq → Nat
  | .load => 0
  | .compute => 1
  | .store => 2
  | .control => 3

/-- The sequencer of a number. -/
def seqOfNum : Nat → Seq
  | 0 => .load
  | 1 => .compute
  | 2 => .store
  | _ => .control

/-- The sequencer of a side. -/
def sideSeq : Side → Seq
  | .load => .load
  | .store => .store

/-- The bytes of a sequencer's word (R186). -/
def wordBytes : Seq → Nat
  | .compute => 16
  | _ => 4

/-- The registers of a sequencer. -/
def State.seqOf (s : State) : Seq → SeqRegs
  | .load => s.seqs.load
  | .compute => s.seqs.compute
  | .store => s.seqs.store
  | .control => s.seqs.control

/-- The sequencers with one's registers replaced. -/
def Seqs.set (t : Seqs) (q : Seq) (r : SeqRegs) : Seqs :=
  match q with
  | .load => { t with load := r }
  | .compute => { t with compute := r }
  | .store => { t with store := r }
  | .control => { t with control := r }

/-- The state with a sequencer's registers replaced. -/
def State.setSeq (s : State) (q : Seq) (r : SeqRegs) : State := { s with seqs := s.seqs.set q r }

/-- A sequencer's program counter. -/
def State.pcOf (s : State) (q : Seq) : Addr := (s.seqOf q).pc

/-- The state with a sequencer's program counter at `a`. -/
def State.setPc (s : State) (q : Seq) (a : Addr) : State := s.setSeq q { s.seqOf q with pc := a }

/-- The address of the word after the one at a sequencer's program counter. -/
def State.nextPc (s : State) (q : Seq) : Addr := s.pcOf q + BitVec.ofNat 72 (wordBytes q)

/-- The state with a sequencer past its word (R186). -/
def State.advance (s : State) (q : Seq) : State := s.setPc q (s.nextPc q)

/-- The target `off` words from the word at a sequencer's program counter (R217). -/
def State.branchTarget (s : State) (q : Seq) (off : BitVec 21) : Addr :=
  s.pcOf q + off.signExtend 72 * BitVec.ofNat 72 (wordBytes q)

/-- Predicate `i` of a sequencer; p0 reads 1 (R206). -/
def State.pred (s : State) (q : Seq) (i : BitVec 4) : Bool := i == 0 || (s.seqOf q).p.getLsbD i.toNat

/-- The state with predicate `i` of a sequencer written; a write to p0 is discarded (R206). -/
def State.setPred (s : State) (q : Seq) (i : BitVec 4) (b : Bool) : State :=
  if i = 0 then s else s.setSeq q { s.seqOf q with p := putBit (s.seqOf q).p i.toNat b }

/-- The zero loop counter. -/
def LoopCounter.zero : LoopCounter := ⟨0, 0⟩

/-- Loop counter `i` of a sequencer. -/
def State.lcOf (s : State) (q : Seq) (i : BitVec 2) : LoopCounter := mget (s.seqOf q).lc .zero i.toNat

/-- The state with a loop counter of a sequencer written. -/
def State.setLc (s : State) (q : Seq) (i : BitVec 2) (c : LoopCounter) : State :=
  s.setSeq q { s.seqOf q with lc := mset (s.seqOf q).lc .zero i.toNat c }

/-! Scalar registers. -/

/-- Register gI; g0 reads zero (R190). -/
def State.gReg (s : State) (i : BitVec 5) : Word64 := if i = 0 then 0 else mget s.sc.g 0 i.toNat

/-- The state with gI written; a write to g0 is discarded (R190). -/
def State.setG (s : State) (i : BitVec 5) (v : Word64) : State :=
  if i = 0 then s else { s with sc := { s.sc with g := mset s.sc.g 0 i.toNat v, taint := mset s.sc.taint false i.toNat false } }

/-- Register gI holds data that it loaded from a poisoned granule (R89). -/
def State.tainted (s : State) (i : BitVec 5) : Bool := mget s.sc.taint false i.toNat

/-- The state in which gI holds such data. -/
def State.setTaint (s : State) (i : BitVec 5) : State :=
  if i = 0 then s else { s with sc := { s.sc with taint := mset s.sc.taint false i.toNat true } }

/-- Address register aI (R206). -/
def State.aReg (s : State) (i : BitVec 5) : Addr := mget s.sc.a 0 i.toNat

/-- The state with aI written. -/
def State.setA (s : State) (i : BitVec 5) (v : Addr) : State :=
  { s with sc := { s.sc with a := mset s.sc.a 0 i.toNat v } }

/-- Modulo register mI as mrd reads it (R222). -/
def State.mReg (s : State) (i : BitVec 3) : Word64 := mget s.sc.m 0 i.toNat

/-- The state with mI written. -/
def State.setM (s : State) (i : BitVec 3) (v : Word64) : State :=
  { s with sc := { s.sc with m := mset s.sc.m 0 i.toNat v } }

/-! CSRs of the core (R224), by number. -/

/-- The reset value of a CSR held in the core: HOLDT is 8,000 ticks (R102), every other 0. -/
def csrReset (n : Nat) : Word64 := if n = 0x16 then 8000 else 0

/-- The fields of a CSR; its other bits read 0 (R10, R224), and RINGDESC.RDY and FRZSTAT.WIN are computed where they are read. -/
def csrMask (n : Nat) : Word64 :=
  if n = 0 || n = 3 || n = 5 || n = 0xB then 0xFF
  else if n = 1 then 0xBF
  else if n = 8 then fieldMask [(36, 20), (0, 32)]
  else if n = 9 then 0x7FF
  else if n = 0xD then fieldMask [(0, 21)]
  else if n = 0xE then fieldMask [(32, 32), (20, 4)]
  else if n = 0x12 then fieldMask [(40, 24), (36, 3), (0, 32)]
  else if n = 0x14 then 7
  else if n = 0x16 then fieldMask [(0, 23)]
  else if n = 0x17 || n = 0x18 then fieldMask [(62, 2), (0, 55)]
  else if n = 0x1B then fieldMask [(48, 6), (32, 16), (16, 16), (0, 1)]
  else if n = 0x1C then fieldMask [(24, 40), (0, 1)]
  else if n = 0x1D then fieldMask [(3, 37)]
  else if n = 0x1F || (0x20 ≤ n && n < 0x40) || (0x98 ≤ n && n < 0xA0) then 0
  else if 0x40 ≤ n && n < 0x80 then fieldMask [(16, 3), (10, 6), (8, 2), (0, 5)]
  else if 0x80 ≤ n && n < 0x90 then fieldMask [(7, 57), (0, 1)]
  else if 0x90 ≤ n && n < 0x98 then fieldMask [(16, 1), (10, 6), (7, 3), (0, 1)]
  else if 0xA0 ≤ n && n < 0xB0 then fieldMask [(48, 6), (0, 48)]
  else if 0xB0 ≤ n && n < 0xC0 then fieldMask [(63, 1), (0, 48)]
  else if 0xC0 ≤ n && n < 0xC8 then 0x33F
  else if 0xC8 ≤ n && n < 0xD0 then fieldMask [(0, 48)]
  else BitVec.allOnes 64

/-- The CSR held at number `n`. -/
def State.csrOf (s : State) (n : Nat) : Word64 := mget s.csr (csrReset n) n

/-- The state with the CSR at number `n` holding `v`. -/
def State.setCsr (s : State) (n : Nat) (v : Word64) : State := { s with csr := mset s.csr (csrReset n) n v }

/-- STATUS (R353). -/
def State.status (s : State) : Word64 := s.csrOf 0
/-- STATUS.INH: a handler runs. -/
def State.inh (s : State) : Bool := s.status.getLsbD 7
/-- STATUS.MODE: supervisor. -/
def State.sup (s : State) : Bool := s.status.getLsbD 1
/-- STATUS.WORLD: secure. -/
def State.secure (s : State) : Bool := s.status.getLsbD 2
/-- TASKID.COMPAT (R160). -/
def State.compat (s : State) : Bool := (s.csrOf 8).getLsbD 36
/-- ASCTX.ASID (R18). -/
def State.asid (s : State) : BitVec 11 := (s.csrOf 9).setWidth 11
/-- FMODE (R56). -/
def State.fmode (s : State) : Word64 := s.csrOf 0x14
/-- The dies with an upper store die: none in a Finrad 4810 (R3, R401). -/
def State.upperDies (s : State) : BitVec 4 := if s.pkg.part then 0 else s.pkg.upper

/-- SPCAP.NBANK: 64 banks where the core's die has an upper store die, else 32 (R3, R71). -/
def State.nbank (s : State) : Nat := if s.upperDies.getLsbD s.die.toNat then 64 else 32
/-- The world of the bound task (R16). -/
def State.taskSecure (s : State) : Bool := s.task.secure

/-! Configuration registers (R14). -/

/-- The reset table of the time-division registers: entry (k, j, s) for j < 7 is station (96j + s) mod 84 (R112). -/
def tdmReset (n : Nat) : Word64 :=
  let j := (n % 96) / 12
  let g := n % 12
  (List.range 8).foldl (fun w i => put w (8 * i) 8 (if j < 7 then (96 * j + 8 * g + i) % 84 else 255)) 0

/-- The reset value of LEAVECTL: COSTc = 5c in bits [8c+7:8c] and THR = 3 (R404, log entry 9). -/
def leavectlReset : Word64 := (List.range 8).foldl (fun w c => if c = 0 then w else put w (8 * c) 8 (5 * c)) 3

/-- The reset value of the register at a configuration address (R14 and each register's map). -/
def cfgReset (a : Nat) : Word64 :=
  if a = 0x10 then put (0 : Word64) 48 8 0xFF                              -- CLKSTAT.PORT (R126)
  else if a = 0x18 then 2600                                               -- MODPWR.LIMIT (R404)
  else if a = 0x78 then 4000000                                            -- FABTO (R378)
  else if a = 0xC0 then BitVec.allOnes 64                                  -- LQWORLD (R393)
  else if 0x800 ≤ a && a < 0xC00 then
    if a % 0x40 = 0 then 0x80                                              -- SGCTL.SEC (R370)
    else if a % 0x40 = 0x10 then 2000                                      -- SGKCTL.FMAX (R383)
    else 0
  else if 0x10000 ≤ a && a < 0x14000 then                                  -- INTLV, both versions (R43)
    let n := (a - 0x10000) % 0x2000 / 8
    if n < 1024 then put (put (put (0 : Word64) 15 1 1) 8 2 (n / 256)) 0 8 (n % 256) else 0
  else if a = 0x20000 then put (put (0 : Word64) 63 1 1) 62 1 1            -- KSCTL0 (R394)
  else if 0x100000000 ≤ a then
    let o := (a - 0x100000000) % 0x1000000
    if o = 0 then 6                                                        -- TDMCTL.ROUNDS (R112)
    else if o = 8 then 8000                                                -- MWHOLDT (R102)
    else if o = 0x20 then leavectlReset
    else if o = 0x28 then 33                                               -- THRSTAT.FREQ (R406)
    else if 0x1000 ≤ o && o < 0x1C00 then tdmReset ((o - 0x1000) / 8)
    else 0
  else 0

/-- The configuration register held at address `a`. -/
def State.cfgOf (s : State) (a : Nat) : Word64 := mget s.pkg.cfg (cfgReset a) a

/-- The state with the configuration register at `a` holding `v`. -/
def State.setCfg (s : State) (a : Nat) (v : Word64) : State :=
  { s with pkg := { s.pkg with cfg := mset s.pkg.cfg (cfgReset a) a v } }

/-- The address of a register in a die block (R14). -/
def dieCfg (d : BitVec 2) (off : Nat) : Nat := 0x100000000 + 0x1000000 * d.toNat + off

/-- CLK of a die (R124). -/
def State.clkOf (s : State) (d : BitVec 2) : Word64 := mget s.pkg.clk 0 d.toNat
/-- CLK of the modelled core's die. -/
def State.clk (s : State) : Word64 := s.clkOf s.die
/-- PKGCFG.CHIP. -/
def State.chip (s : State) : BitVec 10 := BitVec.ofNat 10 (fld (s.cfgOf 0) 38 10)
/-- CLKSTAT.LOCKED (R126). -/
def State.locked (s : State) : Bool := (s.cfgOf 0x10).getLsbD 63

/-- A freeze that began at tick `t` began within the 4,000,000 ticks up to `now` (R88): one that began exactly so long ago lies outside
the window, by the model's choice (log entry 73). -/
def beganWithin (now : Nat) (t : Word64) : Bool := decide (t.toNat ≤ now) && decide (now < t.toNat + 4000000)

/-- Freezes of the bound task that began within the last 4,000,000 ticks (R88). -/
def State.recentFreezes (s : State) : Nat :=
  (s.trap.freezes.filter (fun (t, k) => beganWithin s.clk.toNat t && k == some s.task.id)).length

/-- FRZSTAT with WIN (R88). -/
def State.freezeStat (s : State) : Word64 := put (s.csrOf 0xE) 24 8 (min s.recentFreezes 255)

/-- The state with an event due after those already due. -/
def State.post (s : State) (e : Instr) (i : Input := {}) : State := { s with agenda := s.agenda ++ [⟨e, i⟩] }
/-- The state with an event due before those already due: it is the next to happen. -/
def State.postFirst (s : State) (e : Instr) (i : Input := {}) : State := { s with agenda := ⟨e, i⟩ :: s.agenda }
/-- The state with an event due unless the same event with the same input is already due. -/
def State.postOnce (s : State) (e : Instr) (i : Input := {}) : State :=
  if s.agenda.contains ⟨e, i⟩ then s else s.post e i
/-- The state with a message sent to an outside party. -/
def State.emit (s : State) (m : Message) : State := { s with outbox := m :: s.outbox }
/-- A free value and the state past its draw (log entry 3). -/
def State.draw (s : State) : Word64 × State := (freeValue s.draws, { s with draws := s.draws + 1 })
/-- The state with an asynchronous cause held for its boundary (R350). -/
def State.async (s : State) (a : Async) : State := { s with trap := { s.trap with pend := s.trap.pend ++ [a] } }

/-! Performance counters (R366). -/

/-- One counter's part of `count`: its register, and whether it wrapped with INT = 1. -/
def countOne (s : State) (e k n : Nat) : State :=
  let sel := s.csrOf (0xC0 + n)
  if sel.getLsbD 8 && fld sel 0 6 == e && !s.inh && k != 0 then
    let c := (s.csrOf (0xC8 + n)).toNat + k
    let s := s.setCsr (0xC8 + n) (w64 (c % 2 ^ 48))
    if 2 ^ 48 ≤ c && sel.getLsbD 9 then s.async ⟨.counterOverflow, .control, w64 n, 0, none⟩ else s
  else s

/-- The state with `k` events of code `e` counted by every enabled counter that selects it. -/
def State.count (s : State) (e k : Nat) : State :=
  countOne (countOne (countOne (countOne (countOne (countOne (countOne (countOne s e k 0) e k 1) e k 2) e k 3) e k 4) e k 5)
    e k 6) e k 7

/-! Cycles of the compute sequencer and of the watchdog (R176, R182). -/

/-- WDCNT of `n` more cycles; above 1,048,576 it expires (R182). In compatibility mode it is cleared at every boundary (R185). -/
def State.watch (s : State) (n : Nat) : State :=
  let w := fld (s.csrOf 0xD) 0 21
  let w' := min (w + n) (2 ^ 21 - 1)
  let s1 := s.setCsr 0xD (w64 w')
  if s.compat then s else if w ≤ 1048576 && 1048576 < w' then s1.postOnce .watchdogExpiry else s1

/-- PHSTAT.SELF counts `n` self-cycles, but for a task in compatibility mode (R176, R185). -/
def State.addSelf (s : State) (n : Nat) : State :=
  let self := min (fld (s.csrOf 0xC) 0 19 + n) (2 ^ 19 - 1)
  let s1 := if s.compat then s else s.setCsr 0xC (put (s.csrOf 0xC) 0 19 self)
  { s1 with vec := { s1.vec with now := s1.vec.now + n } }

/-- `n` self-cycles pass in which nothing issues (R176): the watchdog and the counters see them too. -/
def State.spend (s : State) (n : Nat) : State := (((s.addSelf n).watch n).count 0 n).count 1 n

/-- The self-cycle in which a group issues (R176). -/
def State.selfCycle (s : State) : State := (s.addSelf 1).count 1 1

/-- The state with self-cycles spent up to a time (R298). -/
def State.selfTo (s : State) (t : Nat) : State := s.spend (t - s.vec.now)

/-! Taking an exception, and returning from one. -/

/-- The exchange of g24 to g31 and a12 to a15 with the supervisor bank of a world (R355). -/
def State.exchangeBank (s : State) (w : Bool) : State :=
  let bg := if w then 32 else 0
  let ba := if w then 16 else 0
  let sc := s.sc
  let gs := [24, 25, 26, 27, 28, 29, 30, 31]
  let as := [12, 13, 14, 15]
  { s with sc := { sc with
      g := gs.foldl (fun m i => mset m 0 i (mget sc.bankG 0 (bg + i))) sc.g
      a := as.foldl (fun m i => mset m 0 i (mget sc.bankA 0 (ba + i))) sc.a
      taint := gs.foldl (fun m i => mset (mset m false i (mget sc.taint false (64 + bg + i))) false (64 + bg + i)
        (mget sc.taint false i)) sc.taint
      bankG := gs.foldl (fun m i => mset m 0 (bg + i) (mget sc.g 0 i)) sc.bankG
      bankA := as.foldl (fun m i => mset m 0 (ba + i) (mget sc.a 0 i)) sc.bankA } }

/-- Causes whose resume address is past the word that raised them (R355). -/
def Cause.resumesAfter : Cause → Bool
  | .trapCall => true
  | .hostCall => true
  | .breakpoint => true
  | .worldSwitch => true
  | _ => false

/-- Causes that always go to the secure handler; DELEG reads 0 there (R352, R353). -/
def Cause.secureAlways : Cause → Bool
  | .world => true
  | .worldSwitch => true
  | .assignmentLock => true
  | .integrity => true
  | .machineCheck => true
  | _ => false

/-- The world whose handler takes a cause: true, the secure one (R354). -/
def State.handlerWorld (s : State) (c : Cause) : Bool :=
  s.taskSecure || c.secureAlways || !s.pkg.deleg.getLsbD c.code.toNat

/-- TVEC of a world (R354). -/
def State.tvec (s : State) (w : Bool) : Word64 := if w then s.cfgOf 0x48 else s.cfgOf 0x40

/-- The address in 72 bits of the handler named by a TVEC value: VA holds bits [71:8] (R354). -/
def handlerAddress (v : Word64) : Addr := v.setWidth 72 <<< 8

/-- The entry of a handler (R355): which registers save the cause, the address and the status, what the status
becomes, and where the control sequencer goes. `pc` is FAULTPC. -/
def State.enter (s : State) (c : Cause) (q : Seq) (pc : Addr) (async : Bool) (tvalue : Word64) (addr : Addr) : State :=
  let w := s.handlerWorld c
  let st := s.status
  let control := s.pcOf .control + (if c.resumesAfter && !async && q == .control then 4 else 0)
  let other := if q = .control then control else s.pcOf q
  let s := s.setCsr 1 (c.code.setWidth 64 ||| (if async then 128 else 0))
  let s := (s.setCsr 2 (addr.setWidth 64)).setCsr 3 ((addr >>> 64).setWidth 64)
  let s := (s.setCsr 4 (pc.setWidth 64)).setCsr 5 ((pc >>> 64).setWidth 64)
  let s := s.setCsr 6 tvalue
  let st' := put (putBit (putBit st 3 (st.getLsbD 1)) 4 (st.getLsbD 2)) 5 2 (seqNum q)
  let s := s.setCsr 0 (putBit (putBit (putBit st' 1 true) 2 w) 7 true)
  let s := s.exchangeBank w
  let s := (s.setA 15 control).setA 14 other
  { s.setPc .control (handlerAddress (s.tvec w)) with cycle := { s.cycle with csr := none, entering := true } }

/-- The return from a handler (R356). -/
def State.tret (s : State) : State :=
  let st := s.status
  let seq := seqOfNum (fld st 5 2)
  let r15 := s.aReg 15 &&& ~~~(3 : Addr)
  let r14 := s.aReg 14 &&& ~~~(if seq = .compute then (15 : Addr) else 3)
  let s := s.exchangeBank (st.getLsbD 2)
  let s := s.setCsr 0 (putBit (putBit (putBit st 1 (st.getLsbD 3)) 2 (st.getLsbD 4)) 7 false)
  let s := s.setPc .control r15
  if seq = .control then s else s.setPc seq r14

/-- The state whose phase is pinned (R180); accesses of a handler do not pin (R351). -/
def State.pin (s : State) : State := if s.inh then s else s.setCsr 0xC (putBit (s.csrOf 0xC) 31 true)

/-! Copy tags (R81). -/

/-- Tag `t` is pending. -/
def State.tagPending (s : State) (t : Nat) : Bool := (s.csrOf 0x1A).getLsbD t
/-- The issue of an operation that names a tag. -/
def State.tagIssue (s : State) (t : Nat) : State :=
  (s.setCsr 0x19 (putBit (s.csrOf 0x19) t false)).setCsr 0x1A (putBit (s.csrOf 0x1A) t true)
/-- The operation that names a tag ends, complete or not; one of an earlier phase is kept apart for a cancellation (R179). -/
def State.tagEnds (s : State) (t : Nat) (done : Bool) : State :=
  { s with phase := { s.phase with
      tagsOld := putBit s.phase.tagsOld t false
      tagsNew := if done && s.phase.tagsOld.getLsbD t then putBit s.phase.tagsNew t true else s.phase.tagsNew } }
/-- The completion of a tag. -/
def State.tagDone (s : State) (t : Nat) : State :=
  ((s.tagEnds t true).setCsr 0x19 (putBit (s.csrOf 0x19) t true)).setCsr 0x1A (putBit (s.csrOf 0x1A) t false)
/-- A pending tag returned to free (R313). -/
def State.tagFree (s : State) (t : Nat) : State := (s.tagEnds t false).setCsr 0x1A (putBit (s.csrOf 0x1A) t false)

/-! How a meaning ends. -/

/-- What an instruction does: it completes, it waits (its state holds what the wait itself leaves), or it raises a
cause precisely with its TVALUE and FAULTADDR. -/
inductive Res where
  | ok (s : State)
  | wait (s : State)
  | trap (c : Cause) (tvalue : Word64) (addr : Addr)
  /-- A refusal of an earlier store, raised in place of this word (R26). -/
  | late (s : State) (d : Deferred)
  /-- A poisoned granule of the scratchpad was read at an address (R90, R361); `go` is what the word does where the poison is
  recorded only and it goes on (R185). -/
  | poisoned (x : Nat) (go : Res)

/-- What completes also changes the state by `f`. -/
def Res.andOk (r : Res) (f : State → State) : Res :=
  match r with
  | .ok s => .ok (f s)
  | r => r

/-- A cause raised with TVALUE and FAULTADDR zero. -/
abbrev Res.fail (c : Cause) : Res := .trap c 0 0

/-- A cause of a stream row: POISON of an index row goes the way of poison consumed at its FAULTADDR (R255, R361). -/
def Res.ofRow (c : Cause) (tvalue : Word64) (addr : Addr) : Res :=
  if c = .poison then .poisoned addr.toNat (.trap c tvalue addr) else .trap c tvalue addr

end Sys2Proof.Machine
end

