-- ==== Sys2Proof/Machine/Memory.lean ====
section
/-! DEFINITION. Physical memory: bytes by cell, the interleave table that places them (R43, R44), the checks of their
home (R16, R25, R395, R396), poison (R90), and the hardware's reads of its own tables. -/
namespace Sys2Proof.Machine

/-- `n` bytes from `a` on as a number, lowest byte first (R9). -/
def getBytes (f : Nat → Byte) (a : Nat) : Nat → Nat
  | 0 => 0
  | n + 1 => (f a).toNat + 256 * getBytes f (a + 1) n

/-- The map with the `n` low bytes of `v` at `a` on, lowest first. -/
def putBytes (m : SMap Byte) (a : Nat) : Nat → Nat → SMap Byte
  | 0, _ => m
  | n + 1, v => putBytes (mset m 0 a (BitVec.ofNat 8 v)) (a + 1) n (v / 256)

/-- Memory in its canonical form: cells strictly rising, and none listed that holds zero, as an unlisted cell does. -/
def Memory.wf (m : Memory) : Bool := mwf 0 m.bytes

/-- The byte held in a cell; a cell never written holds zero (R400). -/
def State.cell (s : State) (c : Nat) : Byte := mget s.mem.bytes 0 c

/-- Metadata of a granule that nothing has written: no owner, no poison (R396, R400). -/
def Granule.empty : Granule := ⟨false, none⟩

/-- The metadata of the granule that holds cell `c`. -/
def State.granule (s : State) (c : Nat) : Granule := mget s.mem.gran .empty (c / 64)

/-- The state with the metadata of the granule of cell `c` replaced. -/
def State.setGranule (s : State) (c : Nat) (g : Granule) : State :=
  { s with mem := { s.mem with gran := mset s.mem.gran .empty (c / 64) g } }

/-- The current version of the interleave table: ILVCTL.CUR (R119). -/
def State.ilvCur (s : State) : Bool := (s.cfgOf 0x38).getLsbD 0

/-- The interleave entry of a span in a version (R43). -/
def State.intlv (s : State) (ver : Bool) (span : Nat) : Word64 :=
  s.cfgOf (0x10000 + (if ver then 0x2000 else 0) + 8 * (span % 1024))

/-- The live die that holds a local physical address (R43). -/
def State.homeDie (s : State) (ver : Bool) (pa : Nat) : BitVec 2 :=
  BitVec.ofNat 2 (fld (s.intlv ver (pa / 2 ^ 29)) 8 2)

/-- The home slice of a local physical address within its die (R43). -/
def homeSlice (pa : Nat) : Nat :=
  let f := pa / 2 ^ 17
  (f % 16) ^^^ (f / 16 % 16) ^^^ (f / 256 % 16)

/-- The cell of a local physical address: the die, its span and the offset (R43); none where the span has V = 0 (R44), and for an address
of 2^39 or more, which a descriptor, a node or a tile table may name: the model's choice (log entry 68). -/
def State.cellOf (s : State) (ver : Bool) (pa : Nat) : Option Nat :=
  let e := s.intlv ver (pa / 2 ^ 29)
  if e.getLsbD 15 && pa < 2 ^ 39 then some (fld e 8 2 * 2 ^ 37 + fld e 0 8 * 2 ^ 29 + pa % 2 ^ 29) else none

/-- The world of the region that holds a local physical address: secure unless changed (R393). -/
def State.regionSecure (s : State) (pa : Nat) : Bool := mget s.pkg.regions true (pa / 2 ^ 21)

/-- KSCTL of a key slot (R394). -/
def State.ksctl (s : State) (k : Nat) : Word64 := s.cfgOf (0x20000 + 8 * k)

/-- A key slot with its present epoch. -/
def State.slotEpoch (s : State) (k : Nat) : BitVec 10 × BitVec 6 := (BitVec.ofNat 10 k, BitVec.ofNat 6 (fld (s.ksctl k) 56 6))

/-! Fields of a leaf (R21). -/

def leafFrame (e : BitVec 128) : Nat := fld e 64 43
def leafKey (e : BitVec 128) : Nat := fld e 28 10
def leafChip (e : BitVec 128) : BitVec 10 := BitVec.ofNat 10 (fld e 18 10)
/-- TARGET: 0 local, 1 peer, 2 host, 3 pool. -/
def leafTarget (e : BitVec 128) : Nat := fld e 16 2
def leafChk (e : BitVec 128) : Bool := e.getLsbD 9
def leafSeal (e : BitVec 128) : Bool := e.getLsbD 8
def leafWorld (e : BitVec 128) : Bool := e.getLsbD 7

/-- The target where a leaf's frame lies: a peer leaf that names the own chip is local (R25). -/
def State.target (s : State) (e : BitVec 128) : Nat :=
  if leafTarget e = 1 && leafChip e == s.chip then 0 else leafTarget e

/-- A chip is admitted by ADMIT: the own chip, or one whose bit stands in the admission set that it names (R394, R395). -/
def State.admitsChip (s : State) (adm : Nat) (chip : BitVec 10) : Bool :=
  chip == s.chip || (adm != 0 && (s.cfgOf (0x40000 + 128 * adm + 8 * (chip.toNat / 64))).getLsbD (chip.toNat % 64))

/-- The admission of a request of a chip through key slot `k` (R395). -/
def State.admission (s : State) (k : Nat) (secure : Bool) (asid : BitVec 11) (chip : BitVec 10) : Option Cause :=
  let ks := s.ksctl k
  if !ks.getLsbD 63 then some .keyAbsent
  else if ks.getLsbD 62 != secure then some .world
  else if fld ks 32 11 != asid.toNat || !s.admitsChip (fld ks 0 6) chip then some .keyAbsent
  else none

/-- The refusals of a local home, in the order region world, sealed frame, key slot and owner (R16, R239, R395, R396), of an access of a
chip. -/
def State.refusalOf (s : State) (chip : BitVec 10) (b : Bound) (pa : Nat) (write : Bool) : Option Cause :=
  match s.cellOf b.ver pa with
  | none => some .notMapped
  | some c =>
    if s.regionSecure pa != leafWorld b.leaf then some .world
    else if write && mget s.mem.sealed false (c / 2 ^ 17) then some .sealedStore
    else match s.admission (leafKey b.leaf) b.secure b.asid chip with
      | some r => some r
      | none =>
        match (s.granule c).owner with
        | none => none
        | some o => if !write && o != s.slotEpoch (leafKey b.leaf) then some .keyAbsent else none

/-- The refusals of a local home of an access of the own chip. -/
def State.homeRefusal (s : State) (b : Bound) (pa : Nat) (write : Bool) : Option Cause := s.refusalOf s.chip b pa write

/-- The bytes of a granule before a write by a new owner: zeros where it had no owner, and free values where another
slot or epoch owned it, since those bytes are not the writer's (R396, log entry 10). -/
def State.takeGranule (s : State) (c : Nat) (o : BitVec 10 × BitVec 6) : State :=
  let base := c / 64 * 64
  let g := s.granule c
  let s' :=
    match g.owner with
    | none => { s with mem := { s.mem with bytes := putBytes s.mem.bytes base 64 0 } }
    | some o' =>
      if o' = o then s
      else (List.range 64).foldl
        (fun s i => { s with mem := { s.mem with bytes := mset s.mem.bytes 0 (base + i) ((freeValue s.draws).setWidth 8) }
                             draws := s.draws + 1 }) s
  s'.setGranule c { g with owner := some o }

/-- A read of `n` bytes at a local home, after its refusals; zeros where the granule has no owner. -/
def State.readHome (s : State) (b : Bound) (pa n : Nat) : Except Cause Nat :=
  match s.homeRefusal b pa false with
  | some c => .error c
  | none =>
    match s.cellOf b.ver pa with
    | none => .error .notMapped
    | some c =>
      if (s.granule c).poison then .error .poison
      else if (s.granule c).owner = none then .ok 0
      else .ok (getBytes s.cell c n)

/-! The scalar data cache (R85): 128 sets of 8 lines of 64 bytes. A line's bytes are those of its home, which invalidates it before
another agent writes there, so that the state holds which lines are present. Which set a granule falls into, which line is replaced
(the least recently used), and which accesses fill a line are log entry 38. -/

/-- The lines of the set of a granule. -/
def State.lineSet (s : State) (granule : Nat) : List Nat := mget s.mu.lines [] (granule % 128)
/-- The cache holds the line of a granule. -/
def State.lineHeld (s : State) (granule : Nat) : Bool := (s.lineSet granule).contains granule
/-- The state with the lines of a granule's set replaced. -/
def State.setLines (s : State) (granule : Nat) (l : List Nat) : State :=
  { s with mu := { s.mu with lines := mset s.mu.lines [] (granule % 128) l } }
/-- A line is used, or filled in place of the least recently used one of its set. -/
def State.useLine (s : State) (granule : Nat) : State :=
  s.setLines granule (granule :: ((s.lineSet granule).filter (fun x => x != granule)).take 7)
/-- A line is invalidated. -/
def State.dropLine (s : State) (granule : Nat) : State :=
  s.setLines granule ((s.lineSet granule).filter (fun x => x != granule))

/-- A write of `n` bytes at a local home; a write of all 64 bytes of a granule clears its poison (R89, R90). -/
def State.writeCell (s : State) (c n v : Nat) (o : BitVec 10 × BitVec 6) : State :=
  let s := (s.dropLine (c / 64)).takeGranule c o
  let s := { s with mem := { s.mem with bytes := putBytes s.mem.bytes c n v } }
  if n = 64 && c % 64 = 0 then s.setGranule c { s.granule c with poison := false } else s

/-- The granule of a local access is marked poisoned (R90). -/
def State.poisonAt (s : State) (b : Bound) : State :=
  match s.cellOf b.ver b.pa with
  | none => s
  | some c => s.setGranule c { s.granule c with poison := true }

/-- A write of `n` bytes at a local home, after its refusals. -/
def State.writeHome (s : State) (b : Bound) (pa n v : Nat) : Except Cause State :=
  match s.homeRefusal b pa true with
  | some c => .error c
  | none =>
    match s.cellOf b.ver pa with
    | none => .error .notMapped
    | some c => .ok (s.writeCell c n v (s.slotEpoch (leafKey b.leaf)))

/-- A read of the hardware's own tables in an interleave version, decrypted by the granule's owner (R396, R120): the cause of a refusal,
or the bytes. `.notMapped` says that the span is not placed (R44). -/
def State.readTableAt (s : State) (ver : Bool) (pa n : Nat) : Except Cause Nat :=
  match s.cellOf ver pa with
  | none => .error .notMapped
  | some c =>
    match (s.granule c).owner with
    | none => .ok 0
    | some (k, e) =>
      let ks := s.ksctl k.toNat
      if ks.getLsbD 63 && fld ks 56 6 == e.toNat && ks.getLsbD 62 == s.regionSecure pa then .ok (getBytes s.cell c n)
      else .error .keyAbsent

/-- A write of the hardware's own tables under the granule's owner, which it leaves unchanged (R396). -/
def State.writeTableAt (s : State) (ver : Bool) (pa n v : Nat) : State :=
  match s.cellOf ver pa with
  | none => s
  | some c => let t := s.dropLine (c / 64); { t with mem := { t.mem with bytes := putBytes t.mem.bytes c n v } }

/-- The cell of a log page of the hardware's own at a physical address, in a region of a world: none where its home refuses the
access (R16, R239, R396). -/
def State.logCell (s : State) (secure : Bool) (pa : Nat) : Option Nat :=
  match s.cellOf s.ilvCur pa with
  | none => none
  | some c =>
    let open_ := match (s.granule c).owner with
      | none => true
      | some (k, e) => (s.ksctl k.toNat).getLsbD 63 && fld (s.ksctl k.toNat) 56 6 == e.toNat && (s.ksctl k.toNat).getLsbD 62 == secure
    if s.regionSecure pa == secure && !mget s.mem.sealed false (c / 2 ^ 17) && open_ then some c else none

/-- A read of the hardware's own tables in the current version. -/
def State.readTable (s : State) (pa n : Nat) : Except Cause Nat := s.readTableAt s.ilvCur pa n
/-- A write of the hardware's own tables in the current version. -/
def State.writeTable (s : State) (pa n v : Nat) : State := s.writeTableAt s.ilvCur pa n v

/-! Save frames as memory (R364), and tags that complete for a task that may be parked. -/

/-- The size of a frame. -/
def frameBytes : Nat := 4718592

/-- The pool of frames of a world: KEY, the address of frame 0, and the number of frames. -/
def State.framePool (s : State) (secure : Bool) : Nat × Nat × Nat :=
  let r := s.cfgOf (if secure then 0x68 else 0x60)
  (fld r 54 10, fld r 11 43 * 2 ^ 17, fld r 0 11)

/-- The physical address of a frame. -/
def State.frameAddress (s : State) (secure : Bool) (n : Nat) : Nat := (s.framePool secure).2.1 + frameBytes * n

/-- `n` bytes of a frame written under the pool's key (R364). -/
def State.framePut (s : State) (key pa n v : Nat) : State :=
  match s.cellOf s.ilvCur pa with
  | none => s
  | some c => s.writeCell c n v (s.slotEpoch key)

/-- Bytes of a frame. -/
def State.frameGet (s : State) (pa n : Nat) : Nat :=
  match s.cellOf s.ilvCur pa with
  | none => 0
  | some c => getBytes s.cell c n

/-- A task is bound and is the one of a number. -/
def State.isBound (s : State) (task : Nat) : Bool := s.task.bound && s.task.id == task

/-- A CSR of a task: of the bound one in the core, of a parked one in its saved context and in its frame (R136). A task that has
left the machine has none. -/
def State.setTaskCsr (s : State) (task n : Nat) (f : Word64 → Word64) : State :=
  if s.isBound task then s.setCsr n (f (s.csrOf n))
  else match s.disp.parked.find? (fun p => p.context.task.id == task) with
    | none => s
    | some p =>
      let v := f (mget p.context.csr (csrReset n) n)
      let s1 := s.framePut (s.framePool p.secure).1 (s.frameAddress p.secure p.frame + 0x1000 + 8 * n) 8 v.toNat
      { s1 with disp := { s1.disp with parked := s1.disp.parked.map (fun x => if x.context.task.id == task then
          { x with context := { x.context with csr := mset x.context.csr (csrReset n) n v } } else x) } }

/-- The completion of a tag for the task that named it (R81). -/
def State.tagDoneOf (s : State) (task t : Nat) : State :=
  if s.isBound task then s.tagDone t
  else (s.setTaskCsr task 0x19 (fun w => putBit w t true)).setTaskCsr task 0x1A (fun w => putBit w t false)

end Sys2Proof.Machine
end

