-- ==== Sys2Proof/Machine/Scratch.lean ====
section
/-! DEFINITION. The scratchpad: the bank an address reaches (R70, R72, R172), its bytes and its poison (R89, R90). -/
namespace Sys2Proof.Machine

/-- DBUF register `n` (R172). -/
def State.dbuf (s : State) (n : Nat) : Word64 := s.csrOf (0x90 + n)
/-- V of a double buffer. -/
def dbufV (d : Word64) : Bool := d.getLsbD 0
/-- NBL of a double buffer. -/
def dbufNbl (d : Word64) : Nat := fld d 7 3
/-- FB of a double buffer. -/
def dbufFb (d : Word64) : Nat := fld d 10 6
/-- A bank lies in the range of a double buffer. -/
def dbufCovers (d : Word64) (b : Nat) : Bool :=
  dbufV d && dbufFb d ≤ b && b < dbufFb d + 2 ^ (dbufNbl d + 1)

/-- The bank reached by an access to bank `b` (R172). -/
def State.bankOf (s : State) (b : Nat) : Nat :=
  match (List.range 8).find? (fun n => dbufCovers (s.dbuf n) b) with
  | none => b
  | some n => if (s.dbuf n).getLsbD 16 then b ^^^ 2 ^ dbufNbl (s.dbuf n) else b

/-- The physical scratchpad address of an issued one. -/
def State.scrAddr (s : State) (a : Nat) : Nat := s.bankOf (a / 65536) * 65536 + a % 65536

/-- The bank of an issued address exists on the core (R72). -/
def State.bankExists (s : State) (a : Nat) : Bool := a / 65536 < s.nbank

/-- TVALUE of NOT_MAPPED for an absent bank (R72). -/
def absentBank : Word64 := 0x2E

/-- The byte at an issued scratchpad address. -/
def State.scrByte (s : State) (a : Nat) : Byte := mget s.scr.bytes 0 (s.scrAddr a)

/-- The granule at an issued scratchpad address is poisoned (R89). -/
def State.scrPoison (s : State) (a : Nat) : Bool := mget s.scr.poison false (s.scrAddr a / 64)

/-- `n` bytes at an issued scratchpad address, within one bank. -/
def State.scrRead (s : State) (a n : Nat) : Nat := getBytes (fun x => mget s.scr.bytes 0 x) (s.scrAddr a) n

/-- The state with a granule's poison bit set or cleared. -/
def State.setScrPoison (s : State) (a : Nat) (b : Bool) : State :=
  { s with scr := { s.scr with poison := mset s.scr.poison false (s.scrAddr a / 64) b } }

/-- The double buffer whose back half holds a bank of issued addresses (R172). -/
def State.backHalf (s : State) (bank : Nat) : Option Nat :=
  (List.range 8).find? (fun n => let d := s.dbuf n
    dbufV d && dbufFb d + 2 ^ dbufNbl d ≤ bank && bank < dbufFb d + 2 ^ (dbufNbl d + 1))

/-- A bank of issued addresses is written: the refetch list of a back half that holds it is incomplete (R359). -/
def State.wrote (s : State) (bank : Nat) : State :=
  match s.backHalf bank with
  | none => s
  | some n => { s with eng := { s.eng with refetch := mset s.eng.refetch ⟨true, []⟩ n ⟨false, []⟩ } }

/-- The state with `n` bytes written at an issued scratchpad address, within one granule; a write of the whole granule
clears its poison (R89). -/
def State.scrWrite (s : State) (a n v : Nat) : State :=
  let s' := { s with scr := { s.scr with bytes := putBytes s.scr.bytes (s.scrAddr a) n v } }.wrote (a / 65536)
  if n = 64 then s'.setScrPoison a false else s'

/-- Ranges in flight that hold an access to granules `lo` to `hi`: one of the two writes (R84). -/
def Range.holds (r : Range) (lo hi : Nat) (wr : Bool) : Bool := r.lo ≤ hi && lo ≤ r.hi && (r.wr || (wr && r.rd))

/-- An access to granules `lo` to `hi` of issued addresses is held by an operation in flight, an engine operation or the
operand block of a factor operation until its result enters fq, or an image of an output port that an earlier group queued (R84, R242,
R259). -/
def State.rangeHeld (s : State) (lo hi : Nat) (wr : Bool) : Bool :=
  s.eng.ops.any (fun o => o.ranges.any (fun r => r.holds lo hi wr)) ||
  s.vec.out.any (fun p => p.2.images.any (fun i => i.issued != s.vec.now && i.range.holds lo hi wr)) ||
  s.mu.factor.any (fun f => f.task == s.task.id && f.kind < 2 &&
    (Range.mk (f.block.toNat / 64) (f.block.toNat / 64) true true).holds lo hi wr)

/-- The range checker's 32 entries of copy-engine and collective operations are taken (R83). -/
def State.engineRangesFull (s : State) : Bool := 32 ≤ (s.eng.ops.filter (fun o => !o.ranges.isEmpty)).length

/-- Its 16 entries of accesses of the control sequencer, the operand blocks of factor operations among them, and of output-port writes are
taken (R83). -/
def State.accessRangesFull (s : State) : Bool :=
  16 ≤ (s.vec.out.map (fun p => p.2.images.length)).sum + (s.mu.factor.filter (fun f => f.task == s.task.id && f.kind < 2)).length

/-- A scratchpad access of `n` bytes at issued address `a` by a scalar word is held: by an operation in flight, or while its class of
entries is full (R84). -/
def State.scrHeld (s : State) (a n : Nat) (wr : Bool) : Bool := s.accessRangesFull || s.rangeHeld (a / 64) ((a + n - 1) / 64) wr

end Sys2Proof.Machine
end

