-- ==== Sys2Proof/Machine/Translate.lean ====
section
/-! DEFINITION. Translation of the virtual byte space: the walk (R23), the checks after it (R24), the translation cache
(R29, R31), ACC and DIRTY (R28), and the binding of an access (R6, R120). -/
namespace Sys2Proof.Machine

/-- What an access does, for the checks of R24. -/
inductive AccessKind where
  | read
  | write
  /-- An atomic or a factor operation: it needs RD and WR. -/
  | both
  | fetch
  /-- The store half of a seal: a write without the check of SEAL (R239). -/
  | seal
deriving DecidableEq, Repr

/-- A cause with its TVALUE. -/
abbrev Refused := Cause × Word64

/-- TVALUE of a NOT_MAPPED cause of a walk: the level in [2:0] and the reason in [5:3] (R23). -/
def walkTvalue (level reason : Nat) : Word64 := w64 (level + 8 * reason)

/-- A table read of a walk at a level: its refusals carry the level (R44). -/
def State.walkRead (s : State) (level pa n : Nat) : Except Refused Nat :=
  match s.readTable pa n with
  | .ok v => .ok v
  | .error .notMapped => .error (.notMapped, walkTvalue level 4)
  | .error c => .error (c, 0)

/-- A found leaf. -/
structure Leaf where
  leaf : BitVec 128
  level : Nat
  /-- Physical address of the entry. -/
  entry : Nat
deriving DecidableEq, Repr

/-- The descriptor of an ASID (R17). -/
def State.descriptor (s : State) (asid : BitVec 11) : Except Refused (BitVec 512) :=
  match s.walkRead 5 (fld (s.cfgOf 0x30) 17 43 * 2 ^ 17 + 64 * asid.toNat) 64 with
  | .ok v => .ok (BitVec.ofNat 512 v)
  | .error e => .error e

/-- The index of a virtual address at a level (R19). -/
def walkIndex (va : Addr) (level : Nat) : Nat := fld va (17 + 12 * level) (if level = 4 then 7 else 12)

/-- The levels of a walk from `level` down, starting at the node at physical address `node` (R23). -/
def State.walkFrom (s : State) (va : Addr) : Nat → Nat → Except Refused Leaf
  | level, node =>
    let pa := node + 16 * walkIndex va level
    match s.walkRead level pa 16 with
    | .error e => .error e
    | .ok v =>
      let e := BitVec.ofNat 128 v
      if !e.getLsbD 0 then .error (.notMapped, walkTvalue level 0)
      else if !e.getLsbD 1 then
        match level with
        | 0 => .error (.notMapped, walkTvalue 0 3)
        | l + 1 => s.walkFrom va l (fld e 64 44 * 2 ^ 16)
      else if 2 < level then .error (.notMapped, walkTvalue level 1)
      else if leafTarget e = 0 && 2 ^ 22 ≤ leafFrame e then .error (.notMapped, walkTvalue level 2)
      else .ok ⟨e, level, pa⟩

/-- The walk of R23. -/
def State.walk (s : State) (asid : BitVec 11) (va : Addr) : Except Refused Leaf :=
  match s.descriptor asid with
  | .error e => .error e
  | .ok d =>
    if !d.getLsbD 0 then .error (.notMapped, walkTvalue 5 0)
    else s.walkFrom va 4 (fld d 16 44 * 2 ^ 16)

/-- The die-to-die hops from die `e` to die `d` (R116). -/
def hops (e d : BitVec 2) : Nat :=
  match (d - e).toNat with
  | 0 => 0
  | 1 => 1
  | 2 => 2
  | _ => 1

/-- The hops of a request of the core for a local physical address, counted (R116, R366). -/
def State.countHops (s : State) (ver : Bool) (pa : Nat) : State := s.count 9 (hops s.die (s.homeDie ver pa))

/-- The entries that a walk reads from `level` down (R23). -/
def State.walkPath (s : State) (va : Addr) : Nat → Nat → List Nat
  | level, node =>
    let pa := node + 16 * walkIndex va level
    pa :: match s.walkRead level pa 16, level with
      | .ok v, l + 1 =>
        let e := BitVec.ofNat 128 v
        if e.getLsbD 0 && !e.getLsbD 1 then s.walkPath va l (fld e 64 44 * 2 ^ 16) else []
      | _, _ => []

/-- A miss of the translation cache is counted, with the hops of its walk's reads (R366, log entry 66). -/
def State.missed (s : State) (asid : BitVec 11) (va : Addr) : State :=
  let reads := match s.descriptor asid with
    | .ok d => if d.getLsbD 0 then s.walkPath va 4 (fld d 16 44 * 2 ^ 16) else []
    | .error _ => []
  let root := fld (s.cfgOf 0x30) 17 43 * 2 ^ 17 + 64 * asid.toNat
  (s.count 13 1).count 9 (((root :: reads).map (fun pa => hops s.die (s.homeDie s.ilvCur pa))).sum)

/-- The checks of R24 after the walk, in their order. -/
def checkLeaf (e : BitVec 128) (k : AccessKind) (sup secure : Bool) : Option Cause :=
  let rd := e.getLsbD 3
  let wr := e.getLsbD 4
  let denied := match k with
    | .read => !rd
    | .write => !wr
    | .both => !(rd && wr)
    | .fetch => !e.getLsbD 5
    | .seal => !wr
  let sealed := match k with
    | .write => leafSeal e
    | .both => leafSeal e
    | _ => false
  if leafWorld e && !secure then some .world
  else if (e.getLsbD 6 && !sup) || denied then some .permission
  else if sealed then some .sealedStore
  else if !e.getLsbD 2 then some .pageAbsent
  else none

/-- log2 of the span a leaf maps at a level (R19). -/
def leafSpan (level : Nat) : Nat := 17 + 12 * level

/-- The physical address of a virtual address under a leaf (R22): the frame's low bits below the span are ignored. -/
def leafAddress (e : BitVec 128) (level : Nat) (va : Addr) : Nat :=
  leafFrame e * 2 ^ 17 / 2 ^ leafSpan level * 2 ^ leafSpan level + va.toNat % 2 ^ leafSpan level

/-- The base of the span of a virtual address at a level. -/
def spanBase (va : Addr) (level : Nat) : Addr := BitVec.ofNat 72 (va.toNat / 2 ^ leafSpan level * 2 ^ leafSpan level)

/-- A cached leaf covers the address in the ASID. -/
def TlbEntry.covers (t : TlbEntry) (asid : BitVec 11) (va : Addr) : Bool :=
  t.asid == asid && spanBase va t.level == t.base

/-- The state with the translation cache replaced. -/
def State.setTlb (s : State) (l : List TlbEntry) : State := { s with mu := { s.mu with tlb := l } }

/-- A leaf enters the translation cache: 256 entries, the least recently used replaced (R29); ACC is set in its entry
(R28). -/
def State.fill (s : State) (asid : BitVec 11) (va : Addr) (l : Leaf) : State × TlbEntry :=
  let leaf := putBit l.leaf 11 true
  let t : TlbEntry := ⟨asid, spanBase va l.level, l.level, leaf, l.entry⟩
  let s := if l.leaf.getLsbD 11 then s else s.writeTable l.entry 16 leaf.toNat
  (s.setTlb (t :: (s.mu.tlb.filter (fun x => !x.covers asid va)).take 255), t)

/-- A cached leaf moves to the front of the translation cache. -/
def State.touch (s : State) (t : TlbEntry) : State := s.setTlb (t :: s.mu.tlb.filter (fun x => x != t))

/-- A walk with its checks; its leaf enters the cache. -/
def State.walkAndFill (s : State) (asid : BitVec 11) (va : Addr) (k : AccessKind) (sup secure : Bool) :
    Except Refused (State × TlbEntry) :=
  match s.walk asid va with
  | .error e => .error e
  | .ok l =>
    match checkLeaf l.leaf k sup secure with
    | some c => .error (c, 0)
    | none => .ok ((s.missed asid va).fill asid va l)

/-- Causes found through a cached entry that a fresh walk confirms (R31). -/
def confirmed : Cause → Bool
  | .permission => true
  | .world => true
  | .pageAbsent => true
  | _ => false

/-- The leaf of an access with the checks of R24: through the translation cache, else by a walk. -/
def State.leafFor (s : State) (asid : BitVec 11) (va : Addr) (k : AccessKind) (sup secure : Bool) :
    Except Refused (State × TlbEntry) :=
  match s.mu.tlb.find? (fun t => t.covers asid va) with
  | none => s.walkAndFill asid va k sup secure
  | some t =>
    match checkLeaf t.leaf k sup secure with
    | none => .ok (s.touch t, t)
    | some c => if confirmed c then s.walkAndFill asid va k sup secure else .error (c, 0)

/-- DIRTY is set before a write through a leaf that does not show it; a compare that fails restarts the walk (R28). -/
def State.dirty (s : State) (asid : BitVec 11) (va : Addr) (k : AccessKind) (sup secure : Bool) (t : TlbEntry) :
    Except Refused (State × TlbEntry) :=
  if t.leaf.getLsbD 12 then .ok (s, t)
  else
    let mark := fun (s : State) (t : TlbEntry) =>
      let t' := { t with leaf := putBit t.leaf 12 true }
      ((s.writeTable t.entry 16 t'.leaf.toNat).setTlb (t' :: s.mu.tlb.filter (fun x => x != t)), t')
    match s.readTable t.entry 16 with
    | .ok v =>
      if v = t.leaf.toNat then .ok (mark s t)
      else
        match (s.setTlb (s.mu.tlb.filter (fun x => x != t))).walkAndFill asid va k sup secure with
        | .error e => .error e
        | .ok (s', t') => if t'.leaf.getLsbD 12 then .ok (s', t') else .ok (mark s' t')
    | .error c => .error (c, 0)

/-- An access bound at its issue: its leaf with the checks of R24, its physical address and the interleave version;
a local span that is not placed raises NOT_MAPPED with reason 4 (R44). -/
def State.bindAs (s : State) (sup secure : Bool) (va : Addr) (k : AccessKind) : Except Refused (State × Bound × Nat) :=
  match s.leafFor s.asid va k sup secure with
  | .error e => .error e
  | .ok (s1, t1) =>
    let r : Except Refused (State × TlbEntry) := match k with
      | .read => .ok (s1, t1)
      | .fetch => .ok (s1, t1)
      | .seal => .ok (s1, t1)
      | _ => s1.dirty s.asid va k sup secure t1
    match r with
    | .error e => .error e
    | .ok (s2, t) =>
      let pa := leafAddress t.leaf t.level va
      if s.target t.leaf = 0 && (s.cellOf s.ilvCur pa).isNone then .error (.notMapped, walkTvalue t.level 4)
      else .ok (s2, ⟨va, s.asid, secure, t.leaf, pa, s.ilvCur⟩, t.level)

/-- An access of the control sequencer, in its mode and its world. -/
def State.bindAccess (s : State) (va : Addr) (k : AccessKind) : Except Refused (State × Bound × Nat) := s.bindAs s.sup s.secure va k

/-- Free bits for `n` bytes read from outside the package (log entry 3). -/
def State.drawBytes (s : State) : Nat → Nat × State
  | 0 => (0, s)
  | n + 1 =>
    let (v, s1) := s.draw
    let (w, s2) := State.drawBytes s1 n
    (v.toNat % 256 + 256 * w, s2)

/-- The hub refuses a request to pool memory whose key slot is not loaded (R25). -/
def State.hubRefusal (s : State) (b : Bound) : Option Cause :=
  if s.target b.leaf = 3 && !(s.ksctl (leafKey b.leaf)).getLsbD 63 then some .keyAbsent else none

/-- The access of the hardware that has been asked of a home outside the package. -/
def State.hwAsk (s : State) (asid : BitVec 11) (va : Addr) (n : Nat) (write : Bool) : Option HwAsk :=
  s.mu.hw.find? (fun a => a.asid == asid && a.va == va && a.size == n && a.write == write)

/-- A read of `n` bytes that the hardware makes at a virtual address with the checks of R24 and R25. From a home outside the package it
takes what the answer brought, where one has been asked for (`State.gate`), else free values (log entry 3). -/
def State.hwRead (s : State) (asid : BitVec 11) (secure sup : Bool) (k : AccessKind) (va : Addr) (n : Nat) :
    Except Refused (State × Nat × Bound) :=
  match s.leafFor asid va k sup secure with
  | .error e => .error e
  | .ok (s1, t) =>
    let b : Bound := ⟨va, asid, secure, t.leaf, leafAddress t.leaf t.level va, s.ilvCur⟩
    if s1.target t.leaf != 0 then
      match s1.hubRefusal b with
      | some c => .error (c, 0)
      | none => match (s1.hwAsk asid va n false).bind (fun a => a.answer) with
        | some (_, some c) => .error (c, 0)
        | some (v, none) => .ok (s1, v % 2 ^ (8 * n), b)
        | none =>
          let (v, s2) := s1.drawBytes n
          .ok (s2, v, b)
    else if (s1.cellOf b.ver b.pa).isNone then .error (.notMapped, walkTvalue t.level 4)
    else match s1.readHome b b.pa n with
      | .error c => .error (c, 0)
      | .ok v => .ok (s1, v, b)

/-- A write of `n` bytes that the hardware makes at a virtual address with the checks of R24 and R25. -/
def State.hwWrite (s : State) (asid : BitVec 11) (secure sup : Bool) (va : Addr) (n v : Nat) : Except Refused State :=
  match s.leafFor asid va .write sup secure with
  | .error e => .error e
  | .ok (s1, t1) => match s1.dirty asid va .write sup secure t1 with
    | .error e => .error e
    | .ok (s2, t) =>
      let b : Bound := ⟨va, asid, secure, t.leaf, leafAddress t.leaf t.level va, s.ilvCur⟩
      if s2.target t.leaf != 0 then
        match s2.hubRefusal b with
        | some c => .error (c, 0)
        | none => match (s2.hwAsk asid va n true).bind (fun a => a.answer) with
          | some (_, some c) => .error (c, 0)
          | some (_, none) => .ok s2
          | none => .ok (s2.emit (.access true b n v))
      else if (s2.cellOf b.ver b.pa).isNone then .error (.notMapped, walkTvalue t.level 4)
      else match s2.writeHome b b.pa n v with
        | .error c => .error (c, 0)
        | .ok s3 => .ok s3

/-- The translation cache without the entries of one ASID that cover an address (R31). -/
def State.invalVa (s : State) (asid : BitVec 11) (va : Addr) : State :=
  s.setTlb (s.mu.tlb.filter (fun t => !t.covers asid va))
/-- The layout units of the package without the entries and leaves that satisfy a condition on ASID and slot (R31, R40). -/
def State.dropLayout (s : State) (p : BitVec 11 → BitVec 20 → Bool) : State :=
  { s with layout := s.layout.map (fun (n, u) =>
    (n, ⟨u.entries.filter (fun e => !p e.1 e.2.slot), u.leaves.filter (fun l => !p l.asid l.slot)⟩)) }
/-- The translation structures without the entries of one ASID (R31). -/
def State.invalAsid (s : State) (asid : BitVec 11) : State :=
  (s.setTlb (s.mu.tlb.filter (fun t => t.asid != asid))).dropLayout (fun a _ => a == asid)
/-- The translation structures empty (R31). -/
def State.invalAll (s : State) : State := (s.setTlb []).dropLayout (fun _ _ => true)

/-- The smallest scope that contains the core and the home of an access: 0 die, 1 pkg, 2 pod (R127, R139). -/
def State.homeScope (s : State) (b : Bound) : Nat :=
  if s.target b.leaf = 0 then (if s.homeDie b.ver b.pa = s.die then 0 else 1) else 2

/-- The counters of an access to the virtual byte space by where its home lies (R366, events 6 to 8). -/
def State.countAccess (s : State) (b : Bound) : State :=
  match s.homeScope b with
  | 0 => s.count 6 1
  | 1 => s.count 7 1
  | _ => s.count 8 1

/-- An access that goes to its home is counted, with its hops (R366). -/
def State.countRequest (s : State) (b : Bound) : State :=
  if s.target b.leaf = 0 then (s.countAccess b).countHops b.ver b.pa else s.countAccess b

end Sys2Proof.Machine
end

