-- ==== Sys2Proof/Machine/Claims.lean ====
section
/-! DEFINITION. Claims on checked pages (R146 to R149) and the store queue of the control sequencer (R140, R233). -/
namespace Sys2Proof.Machine

/-- The page of an access is checked: CHK in a leaf of a local or peer target (R146). -/
def State.checked (s : State) (b : Bound) : Bool := leafChk b.leaf && s.target b.leaf < 2

/-- A claim is held by a sequencer of the modelled core. -/
def State.owns (s : State) (q : Seq) (c : Claim) : Bool :=
  c.chip == s.chip && c.die == s.die && c.core == s.core && c.seq == q

/-- The claims of a sequencer's open region. -/
def State.ownClaims (s : State) (q : Seq) : List Claim := s.mem.claims.filter (fun c => s.owns q c && c.closed.isNone)

/-- The granule of an access: by its cell at a local home, so that every span placed on it is one location (R44, R138), by the chip and
the physical address at a peer, and by the address in host or pool memory. -/
def State.granuleOf (s : State) (b : Bound) : Nat :=
  match s.target b.leaf with
  | 0 => ((s.cellOf b.ver b.pa).getD 0) / 64
  | 1 => 2 ^ 54 * (1 + (leafChip b.leaf).toNat) + b.pa / 64
  | t => 2 ^ 64 * t + b.pa / 64

/-- The region of a sequencer holds a claim on a granule. -/
def State.holdsClaim (s : State) (q : Seq) (granule : Nat) : Bool :=
  (s.ownClaims q).any (fun c => c.unit == granule && !c.block)
/-- The region of a sequencer holds an exclusive claim on a granule. -/
def State.holdsExcl (s : State) (q : Seq) (granule : Nat) : Bool :=
  (s.ownClaims q).any (fun c => c.unit == granule && !c.block && c.excl)
/-- The claim list of a sequencer's region has no room for a claim on a granule (R149). -/
def State.claimFull (s : State) (q : Seq) (granule : Nat) : Bool :=
  !s.holdsClaim q granule && 1024 ≤ (s.ownClaims q).length

/-- Two units cover a common byte: granules of 64 bytes, blocks of 4 KiB (R146). -/
def unitsMeet (u : Nat) (ublk : Bool) (v : Nat) (vblk : Bool) : Bool :=
  if ublk == vblk then u == v else if ublk then u == v / 64 else u / 64 == v

/-- Claims of other regions that refuse an access to a unit: all for exclusive rights, else the exclusive ones (R146). -/
def State.conflicts (s : State) (q : Seq) (unit : Nat) (blk excl : Bool) : List Claim :=
  s.mem.claims.filter (fun c => !s.owns q c && unitsMeet c.unit c.block unit blk && (excl || c.excl))

/-- TVALUE of RACE (R148). -/
def raceTvalue (cs : List Claim) (excl : Bool) (blk handle : Nat) : Word64 :=
  let base := put (put (put (0 : Word64) 41 1 excl.toNat) 32 5 blk) 0 32 handle
  match cs.find? (fun c => c.excl) with
  | some c =>
    put (put (put (put (put (put base 54 10 c.chip.toNat) 52 2 c.die.toNat) 46 6 c.core.toNat) 44 2 (seqNum c.seq)) 43 1 1)
      42 1 c.block.toNat
  | none => put (put base 44 20 (2 ^ 20 - 1)) 42 1 (cs.any (fun c => c.block)).toNat

/-- The state with the claims replaced. -/
def State.setClaims (s : State) (l : List Claim) : State := { s with mem := { s.mem with claims := l } }

/-- The claim a sequencer's access takes on a granule (R146, R148, R149): CLAIM_FULL before any request, then RACE. -/
def State.takeClaim (s : State) (q : Seq) (granule : Nat) (excl : Bool) : Except Refused State :=
  if s.claimFull q granule then .error (.claimFull, 0)
  else
    match s.conflicts q granule false excl with
    | c :: cs => .error (.race, raceTvalue (c :: cs) excl 0 0)
    | [] =>
      if s.holdsClaim q granule then
        .ok (s.setClaims (s.mem.claims.map (fun c =>
          if s.owns q c && c.unit == granule && !c.block && c.closed.isNone then { c with excl := c.excl || excl } else c)))
      else .ok (s.setClaims (⟨granule, false, excl, s.chip, s.die, s.core, q, none⟩ :: s.mem.claims))

/-- The refusal of an access that takes no claim (R146). -/
def State.claimRefusal (s : State) (q : Seq) (granule : Nat) (excl : Bool) : Option Refused :=
  match s.conflicts q granule false excl with
  | [] => none
  | cs => some (.race, raceTvalue cs excl 0 0)

/-- An engine operation has still to read: a copy that has packets to send, or a collective that has not sent its buffer. -/
def EngOp.reading (o : EngOp) : Bool := !o.ended && (match o.coll with
  | some c => !c.sent
  | none => o.sent < o.total)

/-- The rows of the store queue, and the factor operations, of the bound task. -/
def State.ownRows (s : State) : List StoreRow := s.mu.storeQ.filter (fun r => r.task == s.task.id)
def State.ownOps (s : State) : List FactorOp := s.mu.factor.filter (fun o => o.task == s.task.id)

/-- The accesses of a sequencer that have not been performed, in issue order: stores without a time, factor operations without a
result, and engine operations that have still to read (R147). -/
def State.unperformed (s : State) (q : Seq) : List Nat × List Nat :=
  if q = .control then
    ((s.ownRows.filter (fun r => r.timed.isNone)).map (fun r => r.id),
     (s.ownOps.filter (fun o => o.result.isNone)).map (fun o => o.id))
  else ([], (s.eng.ops.filter (fun o => sideSeq o.side == q && o.reading)).map (fun o => o.id))

/-- A claim as it stands now; none where it is released: its region has closed, and every access of that region has been
performed (R147). -/
def State.claimNow (s : State) (c : Claim) : Option Claim :=
  match c.closed with
  | none => some c
  | some (rows, ops) =>
    let left := (rows.filter (fun r => (s.unperformed c.seq).1.contains r), ops.filter (fun o => (s.unperformed c.seq).2.contains o))
    if left.1.isEmpty && left.2.isEmpty then none else some { c with closed := some left }

/-- The claims of closed regions are released once the accesses of their region have been performed (R147). -/
def State.releaseClosed (s : State) : State := s.setClaims (s.mem.claims.filterMap s.claimNow)

/-- The region of a sequencer closes: its claims are released when its accesses have been performed (R147). -/
def State.closeRegion (s : State) (q : Seq) : State :=
  let s1 := { s with eng := { s.eng with ops := s.eng.ops.map (fun (o : EngOp) => if sideSeq o.side == q then { o with closed := true } else o) } }
  (s1.setClaims (s.mem.claims.map (fun c =>
    if s.owns q c && c.closed.isNone then { c with closed := some (s.unperformed q) } else c))).releaseClosed

/-- The regions of all four sequencers close: at the end of a phase, at the entry of a trap, at a save and at an exit (R147). -/
def State.closeRegions (s : State) : State :=
  (((s.closeRegion .load).closeRegion .compute).closeRegion .store).closeRegion .control

/-! The store queue and the orders of R140. -/

/-- An access of a task that comes before place `id` in issue order has still to be performed at a granule (R130, R140 item 4). -/
def State.pendingBefore (s : State) (task id granule : Nat) : Bool :=
  s.mu.storeQ.any (fun r => r.task == task && decide (r.id < id) && s.granuleOf r.bound == granule) ||
  s.mu.factor.any (fun o => o.task == task && decide (o.id < id) && o.result.isNone && s.granuleOf o.bound == granule)

/-- A command register as its last GO took it. -/
def State.running (s : State) (a : Nat) : Word64 := mget s.pkg.running 0 a
/-- The region of a waiting change of world (R393). -/
def State.changingRegion (s : State) : Nat := fld (s.running 0xB0) 0 18
/-- The slot of a waiting change of key (R394). -/
def State.changingSlot (s : State) : Nat := fld (s.running 0xB8) 0 10
/-- A change of a region's world or of a slot's key waits (R393, R394). -/
def State.changing (s : State) : Bool := (s.cfgOf 0xB0).getLsbD 63 || (s.cfgOf 0xB8).getLsbD 63
/-- The home of an access in the package admits nothing to its region, or through its key slot, until a waiting change is made (R393,
R394). -/
def State.barred (s : State) (b : Bound) : Bool :=
  s.target b.leaf == 0 && (((s.cfgOf 0xB0).getLsbD 63 && b.pa / 2 ^ 21 == s.changingRegion) ||
    ((s.cfgOf 0xB8).getLsbD 63 && leafKey b.leaf == s.changingSlot))

/-- An access has to wait: its home does not admit it, or an earlier access of the sequencer to its granule is not yet performed. -/
def State.pending (s : State) (b : Bound) : Bool := s.barred b || s.pendingBefore s.task.id s.mu.nextId (s.granuleOf b)

/-- A store is acknowledged at a scope, 0 die, 1 pkg or 2 pod, before its home has performed it: its home lies outside the core's
instance of the scope, whose boundary has accepted it, a die when it leaves the store queue, the package when it binds its group of
the fabric (R118, R140). -/
def State.rowAcked (s : State) (r : StoreRow) (scope : Nat) : Bool :=
  r.place != .queued && decide (scope < s.homeScope r.bound) &&
    (scope == 0 || s.pkg.fabric.all (fun f => f.what != .store r.id || f.group.isSome))

/-- A factor operation is acknowledged at a scope: it has its result, or its home lies outside the core's instance. -/
def State.opAcked (s : State) (o : FactorOp) (scope : Nat) : Bool := o.result.isSome || decide (scope < s.homeScope o.bound)

/-- Every store and factor operation of a task before place `id` is acknowledged at a scope (R140). -/
def State.ackedBefore (s : State) (task id scope : Nat) : Bool :=
  s.mu.storeQ.all (fun r => r.task != task || decide (id ≤ r.id) || s.rowAcked r scope) &&
  s.mu.factor.all (fun o => o.task != task || decide (id ≤ o.id) || s.opAcked o scope)

/-- Every earlier store and factor operation of the sequencer is acknowledged at a scope. -/
def State.acked (s : State) (scope : Nat) : Bool := s.ackedBefore s.task.id s.mu.nextId scope

/-- Every earlier factor operation of the sequencer has been performed: it counts as an atomic, after which no load is sent before
(R140 item 1, R242). -/
def State.opsPerformed (s : State) : Bool := s.mu.factor.all (fun o => o.task != s.task.id || o.result.isSome)

/-- The control sequencer holds no claim, or every access of its regions has been performed, so that a close releases its claims at
once: a release operation is performed only after that (R147). -/
def State.regionDone (s : State) : Bool :=
  s.mem.claims.all (fun c => !s.owns .control c) || ((s.unperformed .control).1.isEmpty && (s.unperformed .control).2.isEmpty)

/-- Claims of regions closed before place `id` in issue order are not yet released (R147). -/
def State.closedBefore (s : State) (id : Nat) : Bool :=
  s.mem.claims.any (fun c => s.owns .control c && match c.closed with
    | some (rows, ops) => (rows ++ ops).any (fun n => decide (n < id))
    | none => false)

/-- Rows taken in the store queue: those that have not left it (R140, R233). -/
def State.rowsTaken (s : State) : Nat := (s.mu.storeQ.filter (fun r => r.place == .queued)).length

/-- The state with the store queue replaced. -/
def State.setStoreQ (s : State) (l : List StoreRow) : State := { s with mu := { s.mu with storeQ := l } }

/-- A store enters the store queue in its next row and will leave it (R140, R233). -/
def State.enqueueStore (s : State) (b : Bound) (size : Nat) (v : Word64) (poison : Bool) (timed : Option Timed) : State :=
  let row : StoreRow := ⟨s.mu.nextId, s.mu.nextRow, s.task.id, b, size, v, poison, s.pcOf .control, timed, .queued⟩
  { s with mu := { s.mu with storeQ := s.mu.storeQ ++ [row], nextRow := (s.mu.nextRow + 1) % 32, nextId := s.mu.nextId + 1 } }.post
    .storeQueueDepart

/-- Stores that may now leave the store queue, arrive or be performed are looked at again. -/
def State.kick (s : State) : State :=
  let local_ (r : StoreRow) : Bool := r.place == .sent && s.target r.bound.leaf == 0
  let s1 := if s.mu.storeQ.any (fun r => r.place == .queued) then s.postOnce .storeQueueDepart else s
  let s2 := if s.mu.storeQ.any (fun r => local_ r && r.timed.isNone) then s1.postOnce .homeAccess else s1
  if s.mu.storeQ.any (fun r => local_ r && r.timed.isSome) then s2.postOnce .timedStoreArrival else s2

/-- The refusals of stores that wait are raised, oldest first, in place of this word (R26). -/
def State.withDeferred (s : State) (r : Res) : Res :=
  match s.mu.deferred with
  | [] => r
  | d :: ds => .late { s with mu := { s.mu with deferred := ds } } d

/-- What Fence(s) of R141 waits for: every earlier store and factor operation is acknowledged at its scope, the claims can be released,
and the logs are drained (R69, R105). Scratchpad accesses are performed as they issue. -/
def State.quiet (s : State) (scope : Nat) : Bool :=
  s.acked scope && s.regionDone && s.logs.overflow.isEmpty && s.logs.unlanded.isEmpty

/-- Fence(s) of R141 on the control sequencer, then `k`; refusals of earlier stores that have come back are raised here (R26). -/
def State.fenced (s : State) (scope : Nat) (k : State → Res) : Res :=
  if !s.quiet scope then .wait s else s.withDeferred (k s)

end Sys2Proof.Machine
end

