-- ==== Sys2Proof/Machine/Fabric.lean ====
section
/-! DEFINITION. The scale-up fabric (R369 to R378): SerDes groups, pool windows, routes to peer chips, and the requests that
are on their way. -/
namespace Sys2Proof.Machine

/-! Registers of a group. -/

/-- The address of SGCTL of a group; SGSTAT, SGKCTL, SGKT and SGKEY follow it (R14). -/
def sgBase (n : Nat) : Nat := 0x800 + 0x40 * n
def State.sgstat (s : State) (n : Nat) : Word64 := s.cfgOf (sgBase n + 8)
/-- STEP of a group (R371). -/
def State.sgStep (s : State) (n : Nat) : Nat := fld (s.sgstat n) 33 3
/-- The personality in force: off 0, CXL 1, UALink 2, Ultra Ethernet 3. -/
def State.sgCur (s : State) (n : Nat) : Nat := fld (s.sgstat n) 30 2

def Serdes.off : Serdes := ⟨0x80, none, 0xFF, [], 0, false, false⟩
def State.serdes (s : State) (n : Nat) : Serdes := mget s.pkg.groups .off n
def State.setSerdes (s : State) (n : Nat) (g : Serdes) : State :=
  { s with pkg := { s.pkg with groups := mset s.pkg.groups .off n g } }

/-- A group is up in a personality and carries requests of a world: none of the secure world while SEC = 0 (R370). -/
def State.sgUp (s : State) (n pers : Nat) (secure : Bool) : Bool :=
  s.sgStep n == 6 && s.sgCur n == pers && (!secure || (s.serdes n).ctl.getLsbD 7)

/-- The up groups of a personality in ascending order. -/
def State.upGroups (s : State) (pers : Nat) (secure : Bool) : List Nat := (List.range 16).filter (fun n => s.sgUp n pers secure)

/-! Routes. -/

/-- The group of a pool access: the lowest window that holds its address and names an up CXL group, and among those groups
number (address [52:12]) modulo their count (R374). -/
def State.poolRoute (s : State) (pa : Nat) (secure : Bool) : Option Nat :=
  let unit := pa / 2 ^ 29 % 2 ^ 24
  let groups (k : Nat) : List Nat :=
    let w := s.cfgOf (0x180 + 8 * k)
    if fld w 0 24 ≤ unit && unit ≤ fld w 24 24 then (s.upGroups 1 secure).filter (fun g => w.getLsbD (48 + g)) else []
  match ((List.range 16).map groups).find? (fun l => !l.isEmpty) with
  | none => none
  | some l => l[pa / 2 ^ 12 % 2 ^ 41 % l.length]?

/-- The up stations of a UALink group: station s is the half of four lanes from 4s on, and carries traffic on all of them or on none
(R369, R372). -/
def State.upStations (s : State) (g : Nat) : List Nat := (List.range 2).filter (fun n => fld (s.sgstat g) (40 + 4 * n) 4 == 15)

/-- The plane of a station of a group (R375). -/
def planeOf (group station : Nat) : Nat := 2 * group + station

/-- The group and station of the ordered channel of the modelled core to a chip (R376). -/
def State.channelRoute (s : State) (chip : BitVec 10) (secure : Bool) : Option (Nat × Nat) :=
  let u := s.upGroups 2 secure
  let c := s.core.toNat % 16
  match u[(chip.toNat + 4 * c + s.die.toNat) % u.length]? with
  | none => none
  | some g =>
    let l := s.upStations g
    (if (chip.toNat + c) % 2 = 0 then l.head? else l.getLast?).map (fun n => (g, n))

/-- Requests bound to a group and not answered: PEND (R371). -/
def State.boundTo (s : State) (n : Nat) : List FabricReq := s.pkg.fabric.filter (fun f => f.group == some n)

/-- Requests bound to a station of a group. -/
def State.boundAt (s : State) (g n : Nat) : Nat := (s.boundTo g).countP (fun f => f.station == n)

/-- The group and station of a relaxed request: those with the fewest bound requests, the lowest on a tie (R376). -/
def State.relaxedRoute (s : State) (secure : Bool) : Option (Nat × Nat) :=
  ((s.upGroups 2 secure).flatMap (fun g => (s.upStations g).map (fun n => (g, n)))).foldl (fun best x => match best with
    | none => some x
    | some b => if s.boundAt x.1 x.2 < s.boundAt b.1 b.2 then some x else some b) none

/-- Requests of the engines are relaxed; those of the control sequencer, and group operations, go on an ordered channel (R376). -/
def FabricWhat.relaxed : FabricWhat → Bool
  | .packet _ => true
  | .tile _ => true
  | .element _ => true
  | .image => true
  | _ => false

/-- The group and station that a request binds now; a CXL group has no stations, and its requests name station 0. An ordered channel
keeps its old route until what it sent there has been answered, and its new requests wait at the hub until then (R376). -/
def State.routeOf (s : State) (f : FabricReq) : Option (Nat × Nat) :=
  if f.pool then (s.poolRoute f.pa f.secure).map (fun g => (g, 0))
  else if f.what.relaxed then s.relaxedRoute f.secure
  else
    let r := s.channelRoute f.chip f.secure
    let old := s.pkg.fabric.any (fun x => !x.pool && x.chip == f.chip && x.group.isSome && x.group.map (fun g => (g, x.station)) != r &&
      !x.what.relaxed)
    if old then none else r

/-! Requests on their way. -/

def State.setFabric (s : State) (l : List FabricReq) : State := { s with pkg := { s.pkg with fabric := l } }

/-- A request that leaves the package takes the next number. -/
def State.number (s : State) : State := { s with pkg := { s.pkg with requests := s.pkg.requests + 1 } }

/-- A request bound to a route, or to none yet. -/
def FabricReq.on (f : FabricReq) (r : Option (Nat × Nat)) : FabricReq :=
  { f with group := r.map (fun x => x.1), station := (r.map (fun x => x.2)).getD 0 }

/-- A request comes to the hub with the next number, and binds a group, or waits there. -/
def State.sendFabric (s : State) (f : FabricReq) : State :=
  let s1 := s.number
  s1.setFabric (s1.pkg.fabric ++ [{ f.on (s.routeOf f) with sent := s.clk.toNat, id := s1.pkg.requests }])

/-- A request of the core to the target of a leaf goes out: over the fabric to a peer or pool memory, else to the host. -/
def State.sendBound (s : State) (b : Bound) (what : FabricWhat) : State :=
  match s.target b.leaf with
  | 1 => s.sendFabric { what := what, pool := false, chip := leafChip b.leaf, pa := b.pa, secure := b.secure }
  | 3 => s.sendFabric { what := what, pool := true, chip := 0, pa := b.pa, secure := b.secure }
  | _ => s.number

/-- Requests that wait at the hub bind a group as soon as they may. -/
def State.rebindStalled (s : State) : State :=
  (s.pkg.fabric.filter (fun f => f.group.isNone)).foldl (fun s f =>
    match s.routeOf f with
    | none => s
    | some r => s.setFabric (s.pkg.fabric.map (fun x => if x.id = f.id then { x.on (some r) with sent := s.clk.toNat } else x))) s

/-- A request has its answer, or its refusal (R376, R378). -/
def State.settle (s : State) (f : FabricReq) : State := (s.setFabric (s.pkg.fabric.filter (fun x => x.id != f.id))).rebindStalled

/-- The request of a number. -/
def State.request (s : State) (id : Nat) : Option FabricReq := s.pkg.fabric.find? (fun f => f.id == id)

/-- The request of a number has its answer; one that is not there has been refused before (R378). -/
def State.settleId (s : State) (id : Nat) : State :=
  match s.request id with
  | none => s
  | some f => s.settle f

/-- The request of a store or a factor operation has its answer. -/
def State.answered (s : State) (what : FabricWhat) : State :=
  match s.pkg.fabric.find? (fun f => f.what == what) with
  | none => s
  | some f => s.settle f

/-! What the hardware reads and writes for the core outside the package (R25). -/

/-- An access of the hardware for the core goes out to its home. -/
def State.askHw (s : State) (user : Nat) (b : Bound) (n : Nat) (write : Bool) (v : Nat) : State :=
  let s1 := (s.sendBound b .hw).emit (.access write b n v)
  { s1 with mu := { s1.mu with hw := s1.mu.hw ++ [⟨user, b.asid, b.va, n, write, s1.pkg.requests, none⟩] } }

/-- An access of the hardware has to wait: its home in the package does not admit it (R393, R394), or its home outside has not answered yet,
the request being sent where it has not been. Its page's own causes are those of the access. -/
def State.gate (s : State) (user : Nat) (asid : BitVec 11) (secure sup : Bool) (k : AccessKind) (va : Addr) (n v : Nat) : Option State :=
  match s.leafFor asid va k sup secure with
  | .error _ => none
  | .ok (s1, t) =>
    let b : Bound := ⟨va, asid, secure, t.leaf, leafAddress t.leaf t.level va, s.ilvCur⟩
    if s1.barred b then some s
    else if s1.target t.leaf = 0 || (s1.hubRefusal b).isSome then none
    else match s.hwAsk asid va n (k == .write) with
      | some a => if a.answer.isSome then none else some s
      | none => some (s1.askHw user b n (k == .write) v)

/-- Several accesses, one after another: all are asked for, and the first that waits holds them. -/
def State.gates (s : State) (user : Nat) (asid : BitVec 11) (secure sup : Bool) (k : AccessKind) (l : List (Addr × Nat)) : Option State :=
  l.foldl (fun (acc : Option State) x => match (acc.getD s).gate user asid secure sup k x.1 x.2 0 with
    | some t => some t
    | none => acc) none

/-- What a user of the hardware's accesses asked for is done with. -/
def State.doneHw (s : State) (user : Nat) : State :=
  { s with mu := { s.mu with hw := s.mu.hw.filter (fun a => a.user != user) } }

end Sys2Proof.Machine
end

