-- ==== Sys2Proof/Machine/Formats.lean ====
section
/-! DEFINITION. Number formats as exact values: decoding (R45 to R53), rounding (R56, R57), scale codes (R413) and block
encoding (R58 to R60). -/
namespace Sys2Proof.Machine

/-- An exact value: a finite one is (−1)^neg × m × 2^e, so zero keeps its sign. -/
inductive Val where
  | poison
  | nan
  | inf (neg : Bool)
  | fin (neg : Bool) (m : Nat) (e : Int)
deriving DecidableEq, Repr

/-- An overflow event of a conversion (R67). -/
inductive Event where
  | posSat
  | negSat
  | nanZero
deriving DecidableEq, Repr

/-- A converted element: its code, poison carried outside the code, and its event. -/
structure Coded where
  code : Nat
  poison : Bool := false
  event : Option Event := none
deriving DecidableEq, Repr

/-- The saturation event of a sign. -/
def satEvent (neg : Bool) : Event := if neg then .negSat else .posSat

/-- The value +0. -/
def Val.zero : Val := .fin false 0 0

/-- The value of an integer. -/
def Val.ofInt (i : Int) : Val := .fin (decide (i < 0)) i.natAbs 0

/-- 2^k as a rational factor: numerator and denominator. -/
def pow2 (k : Int) : Nat × Nat := if 0 ≤ k then (2 ^ k.toNat, 1) else (1, 2 ^ (-k).toNat)

/-- ⌊log2 (num/den × 2^e)⌋ for num, den > 0. -/
def floorLog2 (num den : Nat) (e : Int) : Int :=
  let l : Int := (Nat.log2 num : Int) - Nat.log2 den
  let (a, b) := pow2 l
  e + (if den * a ≤ num * b then l else l - 1)

/-- The integer nearest num/den × 2^e in direction `rm`, for a magnitude whose sign is `neg`; RNE ties to even
(R56). -/
def roundNat (rm : Nat) (neg : Bool) (num den : Nat) (e : Int) : Nat :=
  let (a, b) := pow2 e
  let n := num * a
  let d := den * b
  let q := n / d
  let r := n % d
  let up := match rm with
    | 0 => decide (d < 2 * r) || (decide (2 * r = d) && q % 2 == 1)
    | 1 => false
    | 2 => r != 0 && !neg
    | _ => r != 0 && neg
  if up then q + 1 else q

/-- A floating-point element format (R47). -/
structure FloatFmt where
  width : Nat
  mant : Nat
  bias : Int
  /-- Code of the largest finite value. -/
  largest : Nat
  /-- Code of +∞, where the format has one. -/
  infCode : Option Nat
  /-- Canonical NaN, where the format has NaN codes (R48). -/
  nanCode : Option Nat
  poisonCode : Option Nat
deriving DecidableEq, Repr

def fp32 : FloatFmt := ⟨32, 23, 127, 0x7F7FFFFF, some 0x7F800000, some 0x7FC00000, some 0x7FFFFFFF⟩
def bf16 : FloatFmt := ⟨16, 7, 127, 0x7F7F, some 0x7F80, some 0x7FC0, some 0x7FFF⟩
def fp16 : FloatFmt := ⟨16, 10, 15, 0x7BFF, some 0x7C00, some 0x7E00, some 0x7FFF⟩
def e4m3 : FloatFmt := ⟨8, 3, 7, 0x7E, none, some 0x7F, none⟩
def e5m2 : FloatFmt := ⟨8, 2, 15, 0x7B, some 0x7C, some 0x7E, none⟩
def e3m2 : FloatFmt := ⟨6, 2, 3, 0x1F, none, none, none⟩
def e2m3 : FloatFmt := ⟨6, 3, 1, 0x1F, none, none, none⟩
def e2m1 : FloatFmt := ⟨4, 1, 1, 0x7, none, none, none⟩

/-- The exponent of a format's unit at its subnormals. -/
def FloatFmt.emin (f : FloatFmt) : Int := 1 - f.bias - f.mant

/-- DecodeFloat (R47). -/
def decodeFloat (f : FloatFmt) (x : Nat) : Val :=
  let neg := x / 2 ^ (f.width - 1) % 2 == 1
  let mag := x % 2 ^ (f.width - 1)
  if f.poisonCode = some (x % 2 ^ f.width) then .poison
  else if f.infCode = some mag then .inf neg
  else if f.largest < mag then .nan
  else
    let ex := mag / 2 ^ f.mant
    let m := mag % 2 ^ f.mant
    if ex = 0 then .fin neg m f.emin else .fin neg (2 ^ f.mant + m) (f.emin + ex - 1)

/-- The code of num/den × 2^e rounded in direction `rm` with the format's mantissa and subnormals and no upper limit,
without its sign. -/
def roundCode (f : FloatFmt) (rm : Nat) (neg : Bool) (num den : Nat) (e : Int) : Nat :=
  if num = 0 then 0
  else
    let u := max (floorLog2 num den e - f.mant) f.emin
    (u - f.emin).toNat * 2 ^ f.mant + roundNat rm neg num den (e - u)

/-- The sign bit of a format. -/
def FloatFmt.sign (f : FloatFmt) (neg : Bool) : Nat := if neg then 2 ^ (f.width - 1) else 0

/-- Overflow under IEEE rules rounds to infinity in direction `rm` (R56). -/
def overflows (rm : Nat) (neg : Bool) : Bool :=
  match rm with
  | 0 => true
  | 1 => false
  | 2 => !neg
  | _ => neg

/-- RoundTo of an exact rational magnitude (R56). -/
def roundToRat (f : FloatFmt) (rm : Nat) (satd : Bool) (neg : Bool) (num den : Nat) (e : Int) : Coded :=
  let c := roundCode f rm neg num den e
  if c ≤ f.largest then { code := f.sign neg + c }
  else
    let limit := match f.infCode with
      | some i => if satd && overflows rm neg then i else f.largest
      | none => f.largest
    { code := f.sign neg + limit, event := some (satEvent neg) }

/-- A special source value in a float format (R57). -/
def encodeFloat (f : FloatFmt) (rm : Nat) (satd : Bool) : Val → Coded
  | .poison => match f.poisonCode with
    | some c => { code := c, poison := true }
    | none => { code := 0, poison := true }
  | .nan => match f.nanCode with
    | some c => { code := c }
    | none => { code := 0, event := some .nanZero }
  | .inf neg => match f.infCode with
    | some c => { code := f.sign neg + c }
    | none => { code := f.sign neg + f.largest, event := some (satEvent neg) }
  | .fin neg m e => roundToRat f rm satd neg m 1 e

/-- An exact value clamped into an integer range after RoundInt (R56). -/
def roundClamp (rm : Nat) (lo hi : Int) : Val → Int × Option Event
  | .poison => (0, none)
  | .nan => (0, some .nanZero)
  | .inf neg => (if neg then lo else hi, some (satEvent neg))
  | .fin neg m e =>
    let q := roundNat rm neg m 1 e
    let i : Int := if neg then -q else q
    if i < lo then (lo, some .negSat) else if hi < i then (hi, some .posSat) else (i, none)

/-- A conversion into an integer format of `width` bits (R56, R57). -/
def encodeInt (width : Nat) (lo hi : Int) (rm : Nat) (v : Val) : Coded :=
  let (i, ev) := roundClamp rm lo hi v
  { code := (i % 2 ^ width).toNat, poison := decide (v = .poison), event := ev }

/-- A two's-complement code of `width` bits as an integer. -/
def signedCode (width x : Nat) : Int :=
  let y := x % 2 ^ width
  if 2 ^ (width - 1) ≤ y then (y : Int) - 2 ^ width else y

/-- UE5M3 decoding (R50). -/
def decodeUE5M3 (x : Nat) : Val :=
  let y := x % 256
  if y = 0xFF then .poison
  else if y / 8 = 0 then .fin false (y % 8) (-17) else .fin false (8 + y % 8) ((y / 8 : Nat) - 18)

/-- E8M0 decoding (R50). -/
def decodeE8M0 (x : Nat) : Val := if x % 256 = 0xFF then .poison else .fin false 1 ((x % 256 : Nat) - 127)

/-- UE5M3 as a float format of three mantissa bits, subnormal unit 2^-17 (R413). -/
def ue5m3 : FloatFmt := ⟨9, 3, 15, 0xFE, none, none, none⟩

/-- A conversion into a UE5M3 place (R413). -/
def encodeUE5M3 (rm : Nat) : Val → Coded
  | .poison => { code := 0xFF, poison := true }
  | .nan => { code := 0, event := some .nanZero }
  | .inf neg => if neg then { code := 0, event := some .negSat } else { code := 0xFE, event := some .posSat }
  | .fin neg m e =>
    if m = 0 then { code := 0 }
    else if neg then { code := 0, event := some .negSat }
    else roundToRat ue5m3 rm false false m 1 e

/-- A positive finite value rounded to a power of two in direction `rm`, as its E8M0 code (R413). -/
def roundE8M0 (rm m : Nat) (e : Int) : Coded :=
  let l := floorLog2 m 1 e
  let (a, b) := pow2 (l - e)                      -- 2^l = a/b × 2^e
  let up := match rm with
    | 0 => decide (3 * a < 2 * m * b) || (decide (3 * a = 2 * m * b) && (l + 127) % 2 != 0)
    | 2 => decide (a < m * b)
    | _ => false
  let q := if up then l + 1 else l
  if 127 < q then { code := 0xFE, event := some .posSat }
  else if q < -127 then { code := 0 } else { code := (q + 127).toNat }

/-- A conversion into an E8M0 place (R413). -/
def encodeE8M0 (rm : Nat) : Val → Coded
  | .poison => { code := 0xFF, poison := true }
  | .nan => { code := 0, event := some .nanZero }
  | .inf neg => if neg then { code := 0, event := some .negSat } else { code := 0xFE, event := some .posSat }
  | .fin neg m e =>
    if m = 0 then { code := 0 } else if neg then { code := 0, event := some .negSat } else roundE8M0 rm m e

/-! Format codes (R45). -/

/-- The element width of a format code. -/
def fmtWidth : Nat → Nat
  | 0 => 32 | 1 => 16 | 2 => 16 | 3 => 8 | 4 => 8 | 5 => 6 | 6 => 6 | 7 => 4 | 8 => 8 | 9 => 4
  | 10 => 8 | 11 => 8 | 12 => 6 | 13 => 6 | 14 => 4 | 15 => 8 | 16 => 8 | 17 => 4 | 18 => 4 | 19 => 8
  | 20 => 16 | 21 => 32 | 22 => 32 | 23 => 16 | 24 => 32 | 25 => 8 | 26 => 8 | 27 => 16 | _ => 8

/-- A format code that R45 assigns. -/
def fmtKnown (f : Nat) : Bool := f ≤ 27
/-- A block-scaled format. -/
def fmtBlock (f : Nat) : Bool := 10 ≤ f && f ≤ 18
/-- The scale format of a block-scaled format. -/
def fmtScale (f : Nat) : Nat := if f = 16 || f = 17 then 27 else if f = 18 then 26 else 25
/-- A scale format. -/
def fmtIsScale (f : Nat) : Bool := 25 ≤ f && f ≤ 27
/-- A format the matrix engine accepts (R46). -/
def fmtMatrix (f : Nat) : Bool := f ≤ 6 || f = 8 || f = 9 || fmtBlock f
/-- Cycles of one matrix operation (R45). -/
def fmtCycles (f : Nat) : Nat := if f = 0 then 192 else if f = 5 || f = 6 || f = 12 || f = 13 then 128 else 96
/-- A format with no conversion to any other (R55). -/
def fmtFixed (f : Nat) : Bool := f = 23 || f = 24 || f = 27
/-- The width of a scale in bytes. -/
def scaleBytes (f : Nat) : Nat := if fmtScale f = 27 then 2 else 1

/-- The float format of a code, for plain floats and for the elements of MX and FS4 blocks. -/
def floatOf : Nat → Option FloatFmt
  | 0 => some fp32
  | 1 => some bf16
  | 2 => some fp16
  | 3 => some e4m3
  | 4 => some e5m2
  | 5 => some e3m2
  | 6 => some e2m3
  | 7 => some e2m1
  | 10 => some e4m3
  | 11 => some e5m2
  | 12 => some e3m2
  | 13 => some e2m3
  | 14 => some e2m1
  | 18 => some e2m1
  | _ => none

/-- A value times 2^k. -/
def Val.shift (v : Val) (k : Int) : Val :=
  match v with
  | .fin n m e => .fin n m (e + k)
  | v => v

/-- The exact product of two values, for a finite positive second one. -/
def Val.scaleBy (v s : Val) : Val :=
  match v, s with
  | .fin n m e, .fin _ m' e' => .fin n (m * m') (e + e')
  | _, .poison => .poison
  | v, _ => v

/-- A DXB element of `w` bits against its scale (R52); one with MAG = 0 is +0 whatever its sign: the model's choice (log entry 70). -/
def decodeDXB (w f : Nat) (x scale : Nat) : Val :=
  let ea := scale % 256
  let eb := scale / 256 % 256
  if ea = 0xFF || eb = 0xFF then .poison
  else
    let ex := if x / 2 ^ (w - 2) % 2 = 1 then eb else ea
    let mag := x % 2 ^ (w - 2)
    .fin (x / 2 ^ (w - 1) % 2 == 1 && mag != 0) mag ((ex : Int) - 127 - f)

/-- An element of a block-scaled format against its scale code (R51 to R53). -/
def decodeBlock (fmt x scale : Nat) : Val :=
  if fmt = 16 then decodeDXB 8 5 x scale
  else if fmt = 17 then decodeDXB 4 1 x scale
  else if fmt = 18 then (decodeFloat e2m1 x).scaleBy (decodeUE5M3 scale)
  else if fmt = 15 then ((Val.ofInt (signedCode 8 x)).shift (-6)).scaleBy (decodeE8M0 scale)
  else (decodeFloat ((floatOf fmt).getD fp32) x).scaleBy (decodeE8M0 scale)

/-- An element of a plain format other than L32 and the formats of bit patterns (R47, R49, R50). -/
def decodePlain (fmt x : Nat) : Val :=
  match fmt with
  | 8 => .ofInt (signedCode 8 x)
  | 9 => .ofInt (signedCode 4 x)
  | 19 => .ofInt (x % 256 : Nat)
  | 20 => .ofInt (signedCode 16 x)
  | 21 => .ofInt (signedCode 32 x)
  | 25 => decodeE8M0 x
  | 26 => decodeUE5M3 x
  | f => decodeFloat ((floatOf f).getD fp32) x

/-- A conversion into a plain format other than L32 and the formats of bit patterns (R56, R57, R413). -/
def encodePlain (fmt rm : Nat) (satd : Bool) (v : Val) : Coded :=
  match fmt with
  | 8 => encodeInt 8 (-128) 127 rm v
  | 9 => encodeInt 4 (-8) 7 rm v
  | 19 => encodeInt 8 0 255 rm v
  | 20 => encodeInt 16 (-32768) 32767 rm v
  | 21 => encodeInt 32 (-2 ^ 31) (2 ^ 31 - 1) rm v
  | 25 => encodeE8M0 rm v
  | 26 => encodeUE5M3 rm v
  | f => encodeFloat ((floatOf f).getD fp32) rm satd v

/-! Blocks (R58 to R60). An element without a source position is none. -/

/-- An encoded block: its elements, its scale code, and whether it is poison. -/
structure Block where
  elems : List Coded
  scale : Nat
  poison : Bool
deriving DecidableEq, Repr

/-- The larger magnitude of two finite ones, as m × 2^e. -/
def maxMag (x y : Nat × Int) : Nat × Int :=
  let d := x.2 - y.2
  let (a, b) := pow2 d
  if x.1 * a < y.1 * b then y else x

/-- The largest magnitude over the finite elements of a block. -/
def blockMax (xs : List (Option Val)) : Nat × Int :=
  xs.foldl (fun a x => match x with
    | some (.fin _ m e) => if m = 0 then a else if a.1 = 0 then (m, e) else maxMag a (m, e)
    | _ => a) (0, 0)

/-- An integer clamped. -/
def clampInt (lo hi x : Int) : Int := max lo (min hi x)

/-- EMAX of an MX element format (R58). -/
def emaxOf : Nat → Int
  | 10 => 8
  | 11 => 15
  | 12 => 4
  | 13 => 2
  | 14 => 2
  | _ => 0

/-- EncodeMX (R58). -/
def encodeMX (fmt rm : Nat) (xs : List (Option Val)) : Block :=
  let a := blockMax xs
  let sc : Int := if a.1 = 0 then 0 else clampInt 0 254 (floorLog2 a.1 1 a.2 - emaxOf fmt + 127)
  let one (x : Option Val) : Coded := match x with
    | none => { code := 0 }
    | some (.fin n m e) =>
      if fmt = 15 then encodeInt 8 (-127) 127 rm (.fin n m (e + 133 - sc))
      else encodeFloat ((floatOf fmt).getD fp32) rm false (.fin n m (e + 127 - sc))
    | some v => if fmt = 15 then encodeInt 8 (-127) 127 rm v else encodeFloat ((floatOf fmt).getD fp32) rm false v
  ⟨xs.map one, sc.toNat, false⟩

/-- EncodeDXB (R59) with element width `w`, F, G and MAX. -/
def encodeDXB (w f g mx rm : Nat) (xs : List (Option Val)) : Block :=
  let a := blockMax xs
  let ea : Int := if a.1 = 0 then 0 else clampInt 0 254 (floorLog2 a.1 1 a.2 + 127)
  let eb : Int := max (ea - g) 0
  let code (neg sel : Bool) (m : Nat) : Nat := (if neg then 2 ^ (w - 1) else 0) + (if sel then 2 ^ (w - 2) else 0) + m
  let one (x : Option Val) : Coded := match x with
    | some .nan => { code := 0, event := some .nanZero }
    | some (.inf neg) => { code := code neg false mx, event := some (satEvent neg) }
    | some (.fin neg m e) =>
      let mb := roundNat rm neg m 1 (e + 127 + f - eb)
      if 0 < mb && mb ≤ mx then { code := code neg true mb }
      else
        let ma := roundNat rm neg m 1 (e + 127 + f - ea)
        if mx < ma then { code := code neg false mx, event := some (satEvent neg) }
        else { code := code (neg && decide (0 < ma)) false ma }
    | _ => { code := 0 }
  ⟨xs.map one, (eb * 256 + ea).toNat, false⟩

/-- The smallest UE5M3 code whose value is at least a / 6 (R60). -/
def fs4Scale (a : Nat × Int) : Nat :=
  if a.1 = 0 then 0
  else
    let c := roundCode ue5m3 2 false a.1 6 a.2
    if c ≤ 0xFE then c else 0xFE

/-- The encoding of an FS4 block (R60). -/
def encodeFS4 (rm : Nat) (xs : List (Option Val)) : Block :=
  let a := blockMax xs
  let sc := fs4Scale a
  let one (x : Option Val) : Coded := match x with
    | none => { code := 0 }
    | some (.fin neg m e) =>
      if a.1 = 0 then { code := 0 }
      else match decodeUE5M3 sc with
        | .fin _ sm se => roundToRat e2m1 rm false neg m sm (e - se)
        | _ => { code := 0 }
    | some v => encodeFloat e2m1 rm false v
  ⟨xs.map one, sc, false⟩

/-- The encoding of one block from its exact source values (R58). -/
def encodeBlock (fmt rm : Nat) (xs : List (Option Val)) : Block :=
  if xs.any (fun x => x == some .poison) then
    ⟨xs.map (fun _ => { code := 0, poison := true }), if fmtScale fmt = 27 then 0xFFFF else 0xFF, true⟩
  else if fmt = 16 then encodeDXB 8 5 6 63 rm xs
  else if fmt = 17 then encodeDXB 4 1 2 3 rm xs
  else if fmt = 18 then encodeFS4 rm xs
  else encodeMX fmt rm xs

end Sys2Proof.Machine
end

