-- ==== Sys2Proof/Machine/Operands.lean ====
section
/-! DEFINITION. Memory operand forms of the control sequencer: base plus offset, post-increment and modulo
post-increment (R188, R231, R222), and the checks of a scratchpad operand (R72, R90). -/
namespace Sys2Proof.Machine

/-- The increment of a format M word: OFF counts units of 2^sz bytes (R188). -/
def increment (sz : BitVec 2) (off : BitVec 9) : Addr := off.signExtend 72 <<< sz.toNat

/-- ModStep (R222): the address register after a modulo post-increment, none where it faults. -/
def modStep (m : Word64) (a inc : Addr) : Option Addr :=
  let base : Int := fld m 0 22
  let len : Int := fld m 32 23
  let i : Int := inc.toInt
  let x : Int := fld a 0 22
  if len = 0 || len < i.natAbs then none
  else if x < base || base + len ≤ x then none
  else
    let y := x + i
    let z := if base + len ≤ y then y - len else if y < base then y + len else y
    some (put a 0 22 z.toNat)

/-- The effective address and the address register after a word of format M (R231); none: ModStep faults. -/
def State.operand (s : State) (a : BitVec 5) (mode : BitVec 2) (sz : BitVec 2) (mr : BitVec 3) (off : BitVec 9) :
    Option (Addr × Addr) :=
  let base := s.aReg a
  let inc := increment sz off
  if mode = 0 then some (base + inc, base)
  else if mode = 1 then some (base, base + inc)
  else (modStep (s.mReg mr) base inc).map (fun na => (base, na))

/-- Bytes of an access (R230). -/
def accessBytes (sz : BitVec 2) : Nat := 2 ^ sz.toNat

/-- A value of `n` bytes extended into a register (R231). -/
def extend (signed : Bool) (n v : Nat) : Word64 :=
  if signed then BitVec.ofInt 64 (signedCode (8 * n) v) else w64 (v % 2 ^ (8 * n))

end Sys2Proof.Machine
end

