-- ==== Sys2Proof/Machine/Flags.lean ====
section
/-! DEFINITION. Results that are one bit: compares to predicates (R214, R215), selects and branch conditions (R216,
R217), the loop close and its stage window (R219), and the write of a control register's W1C bits (R223). -/
namespace Sys2Proof.Machine

/-- The condition of a predicate field with its NEG bit (R216, R217). -/
def State.holds (s : State) (q : Seq) (n : BitVec 1) (p : BitVec 4) : Bool := s.pred q p != (n == 1#1)

/-- The conditions of cmpi (R215): 0 eq, 1 ne, 2 lt, 3 ge, 4 ltu, 5 geu. -/
def compare (cond : Nat) (a b : Word64) : Bool :=
  match cond with
  | 0 => a == b
  | 1 => a != b
  | 2 => a.slt b
  | 3 => !a.slt b
  | 4 => a.ult b
  | _ => !a.ult b

/-- The stage window shifted by one, `b` into p8 (R219). -/
def shiftWindow (p : BitVec 16) (b : Bool) : BitVec 16 :=
  put p 8 8 (2 * (fld p 8 8 % 128) + b.toNat)

/-- The loop close (R219). -/
def State.loopClose (s : State) (q : Seq) (rot : BitVec 1) (c : BitVec 2) (off : BitVec 21) : State :=
  let l := s.lcOf q c
  let live := l.rem != 0
  let taken := live || l.drain != 0
  let l' : LoopCounter := if live then ⟨l.rem - 1, l.drain⟩ else if l.drain != 0 then ⟨l.rem, l.drain - 1⟩ else l
  let s1 := s.setLc q c l'
  let s2 := if rot = 1#1 then s1.setSeq q { s1.seqOf q with p := shiftWindow (s1.seqOf q).p live } else s1
  if taken then s2.setPc q (s.branchTarget q off) else s2.advance q

/-- A loop counter set to `count` passes and `drain`; INIT sets p8 and clears p9 to p15 (R220). -/
def State.loopSet (s : State) (q : Seq) (init : BitVec 1) (c : BitVec 2) (count : Nat) (drain : BitVec 3) : State :=
  let s1 := s.setLc q c ⟨BitVec.ofNat 32 (count - 1), drain⟩
  if init = 1#1 then s1.setSeq q { s1.seqOf q with p := put (s1.seqOf q).p 8 8 1 } else s1

/-- A branch of a sequencer, in its word size (R217). -/
def State.branch (s : State) (q : Seq) (n : BitVec 1) (p : BitVec 4) (off : BitVec 21) : State :=
  if s.holds q n p then s.setPc q (s.branchTarget q off) else s.advance q

end Sys2Proof.Machine
end

