-- ==== Sys2Proof/Machine/LogCore.lean ====
section
/-! DEFINITION. The logarithmic cores (R276, R277), L32 codes (R54, R285, R286), renormalisation (R278), and the decoding
and encoding of an element of any format (R45 to R57). -/
namespace Sys2Proof.Machine

/-- The table T of R276, in units of 2^-24. -/
def logTable : List Nat :=
  [16777216, 16959908, 17144589, 17331282, 17520007, 17710787, 17903645, 18098603,
   18295684, 18494911, 18696307, 18899897, 19105703, 19313750, 19524063, 19736666] ++
  [19951585, 20168843, 20388467, 20610483, 20834917, 21061794, 21291142, 21522987,
   21757357, 21994279, 22233781, 22475891, 22720638, 22968049, 23218155, 23470984] ++
  [23726566, 23984932, 24246111, 24510133, 24777031, 25046835, 25319578, 25595290,
   25874004, 26155754, 26440571, 26728490, 27019544, 27313768, 27611195, 27911861] ++
  [28215802, 28523052, 28833647, 29147625, 29465022, 29785875, 30110222, 30438101,
   30769550, 31104608, 31443315, 31785710, 32131834, 32481727, 32835430, 33192984]

/-- T[i]. -/
def logT (i : Nat) : Nat := logTable.getD i 0

/-- LN2 of R277. -/
def ln2 : Nat := 2977044472
/-- LOG2E of R277. -/
def log2e : Nat := 3098164010

/-- The largest index whose entry is at most `m`, for m at least T[0]. -/
def logIndex (m : Nat) : Nat := (logTable.filter (fun t => t ≤ m)).length - 1

/-- LogCore (R277). -/
def logCore (m : Nat) : Nat :=
  let i := logIndex m
  let t := logT i
  let z := (m - t) * 2 ^ 30 / t
  let w := z - z * z / 2 ^ 31
  i * 2 ^ 16 + w * log2e / 2 ^ 39

/-- Pow2Core (R277). -/
def pow2Core (f : Nat) : Nat :=
  let i := f / 2 ^ 16
  let r := f % 2 ^ 16
  let y := r * ln2 / 2 ^ 24
  let q := y * y / 2 ^ 31
  logT i + logT i * (y + q) / 2 ^ 30

/-- Log2Fix (R277). -/
def log2Fix (n : Nat) : Nat :=
  let k := Nat.log2 n
  k * 2 ^ 22 + logCore (n * 2 ^ 24 / 2 ^ k)

/-- Pow2Val (R277) as m × 2^e. -/
def pow2Val (l : Int) : Nat × Int := (pow2Core (l % 2 ^ 22).toNat, l / 2 ^ 22 - 24)

/-! L32 (R54, R285). -/

/-- The log field of an L32 code. -/
def l32Log (x : Nat) : Int := signedCode 30 x
/-- The sign of an L32 code. -/
def l32Neg (x : Nat) : Bool := x / 2 ^ 31 % 2 == 1
/-- The zero flag of an L32 code. -/
def l32Zero (x : Nat) : Bool := x / 2 ^ 30 % 2 == 1
/-- The poison code of L32. -/
def l32Poison : Nat := 0x7FFFFFFF

/-- A zero of L32 with its sign. -/
def l32OfZero (neg : Bool) : Coded := { code := if neg then 0xC0000000 else 0x40000000 }

/-- A result of L32 with sign and log, saturated or flushed as R285 states. -/
def l32Of (neg : Bool) (l : Int) : Coded :=
  let s := if neg then 2 ^ 31 else 0
  if 2 ^ 29 - 1 < l then { code := s + (2 ^ 29 - 1), event := some (satEvent neg) }
  else if l < -2 ^ 29 then l32OfZero neg
  else { code := s + (l % 2 ^ 30).toNat }

/-- The exact value of an L32 code (R54, R286). -/
def decodeL32 (x : Nat) : Val :=
  if x % 2 ^ 32 = l32Poison then .poison
  else if l32Zero x then .fin (l32Neg x) 0 0
  else let p := pow2Val (l32Log x); .fin (l32Neg x) p.1 p.2

/-- e and m of R286 for a finite non-zero magnitude n × 2^k: the significand truncated to 25 bits. -/
def logParts (n : Nat) (k : Int) : Int × Nat :=
  let e := floorLog2 n 1 k
  let (a, b) := pow2 (k + 24 - e)
  (e, n * a / b)

/-- The conversion of an exact value into L32 (R286). -/
def encodeL32 (v : Val) : Coded :=
  match v with
  | .poison => { code := l32Poison, poison := true }
  | .nan => { code := 0x40000000, event := some .nanZero }
  | .inf neg => { code := (if neg then 2 ^ 31 else 0) + (2 ^ 29 - 1), event := some (satEvent neg) }
  | .fin neg n k =>
    if n = 0 then l32OfZero neg
    else
      let (e, m) := logParts n k
      if e < -128 then l32OfZero neg else l32Of neg (e * 2 ^ 22 + logCore m)

/-! Elements of any format. -/

/-- The exact value of an element of any format but DIRQ, LNORM and DXE, against its scale code where block-scaled. -/
def decodeElem (fmt x scale : Nat) : Val :=
  if fmtBlock fmt then decodeBlock fmt x scale
  else if fmt = 22 then decodeL32 x
  else decodePlain fmt x

/-- The conversion of an exact value into a format that is not block-scaled. -/
def encodeElem (fmt rm : Nat) (satd : Bool) (v : Val) : Coded :=
  if fmt = 22 then encodeL32 v else encodePlain fmt rm satd v

/-- Formats that move as bit patterns through ports: L32, DIRQ, LNORM, and the scale formats (R258, R259). -/
def fmtRaw (f : Nat) : Bool := 22 ≤ f
/-- Integer formats (R49). -/
def fmtInt (f : Nat) : Bool := f = 8 || f = 9 || f = 19 || f = 20 || f = 21

/-! Renormalisation (R278). -/

/-- A signed exact value n × 2^e. -/
abbrev Dyadic := Int × Int

/-- A dyadic value rounded to an integer, nearest with ties to even. -/
def Dyadic.round (d : Dyadic) : Int :=
  let q := roundNat 0 false d.1.natAbs 1 d.2
  if d.1 < 0 then -q else q

/-- A row of a directional register: its components, its norm and whether it logs POS_SAT. -/
structure DRow where
  comps : List Int
  norm : Word32
  event : Option Event := none
deriving DecidableEq, Repr

/-- Norm of the zero vector, of poison and of overflow (R273). -/
def normZero : Word32 := 0x80000000
def normPoison : Word32 := 0x7FFFFFFF
def normOver : Word32 := 0x7FFFFFFE

/-- A row of 64 zero components with a norm. -/
def DRow.zeros (n : Word32) : DRow := { comps := List.replicate 64 0, norm := n }

/-- Renorm (R278). -/
def renorm (v : List Dyadic) (base : Int) : DRow :=
  let mx := v.foldl (fun a d => if d.1 = 0 then a else if a.1 = 0 then (d.1.natAbs, d.2) else maxMag a (d.1.natAbs, d.2)) (0, 0)
  if mx.1 = 0 then .zeros normZero
  else
    let s := floorLog2 mx.1 1 mx.2 - 14
    let b := v.map (fun d => Dyadic.round (d.1, d.2 - s))
    let sum := b.foldl (fun a x => a + x.natAbs * x.natAbs) 0
    let h := log2Fix sum / 2
    let p := pow2Val (14 * 2 ^ 22 - h)
    let c := b.map (fun x => Dyadic.round (x * p.1, p.2))
    let n := base + s * 2 ^ 22 + h
    if 2 ^ 31 - 2 ≤ n then ⟨c, normOver, some .posSat⟩
    else if n ≤ -2 ^ 31 then .zeros normZero
    else ⟨c, BitVec.ofInt 32 n, none⟩

end Sys2Proof.Machine
end

