-- ==== Sys2Proof/Machine/Banks.lean ====
section
/-! DEFINITION. Bank formats (R61 to R63), elements of a bank (R62, R89, R90), and the overflow event queue (R67, R68). -/
namespace Sys2Proof.Machine

/-! BANKFMT (R61). -/

/-- BANKFMT of bank `n`. -/
def State.bankfmt (s : State) (n : Nat) : Word64 := s.csrOf (0x40 + n % 64)
/-- FMT of a bank. -/
def State.bankFmt (s : State) (n : Nat) : Nat := fld (s.bankfmt n) 0 5
/-- SMODE of a bank. -/
def State.bankSmode (s : State) (n : Nat) : Nat := fld (s.bankfmt n) 8 2
/-- SBANK of a bank. -/
def State.bankSbank (s : State) (n : Nat) : Nat := fld (s.bankfmt n) 10 6
/-- Byte offset of a bank's scales in its scale bank. -/
def State.bankSoff (s : State) (n : Nat) : Nat := 8192 * fld (s.bankfmt n) 16 3
/-- The element width of a bank. -/
def State.bankWidth (s : State) (n : Nat) : Nat := fmtWidth (s.bankFmt n)

/-- The format of a bank is consistent (R63, its first three conditions). -/
def State.bankConsistent (s : State) (n : Nat) : Bool :=
  if fmtBlock (s.bankFmt n) then
    s.bankSmode n == 1 && decide (s.bankSbank n < s.nbank) && s.bankSmode (s.bankSbank n) == 2 &&
      s.bankFmt (s.bankSbank n) == fmtScale (s.bankFmt n)
  else s.bankSmode n != 1

/-- The banks that an operation on bank `n` references: its data and its scale bank (R64). -/
def State.bankRefs (s : State) (n : Nat) : List Nat := if s.bankSmode n = 1 then [n, s.bankSbank n] else [n]

/-- A write of BANKFMT that waits covers bank `n` or its scale bank (R64). -/
def State.formatHeld (s : State) (n : Nat) : Bool :=
  s.scr.fmtPend.any (fun w => (s.bankRefs n).any (fun b => b == w.bank))

/-! Bits of a bank. A bit address is 8 × the issued byte address + the bit within the byte. -/

/-- The `w` bits at bit address `bit`, and whether a granule that holds them is poisoned. -/
def State.scrBits (s : State) (bit w : Nat) : Nat × Bool :=
  let first := bit / 8
  let last := (bit + w - 1) / 8
  ((getBytes (fun a => s.scrByte a) first (last + 1 - first) >>> (bit % 8)) % 2 ^ w,
    s.scrPoison first || s.scrPoison last)

/-- The state with the byte at an issued address written. -/
def State.setScrByte (s : State) (a : Nat) (v : Byte) : State :=
  { s with scr := { s.scr with bytes := mset s.scr.bytes 0 (s.scrAddr a) v } }

/-- The state with the `w` bits at bit address `bit` written. -/
def State.setScrBits (s : State) (bit w v : Nat) : State :=
  let first := bit / 8
  let last := (bit + w - 1) / 8
  (List.range (last + 1 - first)).foldl (fun s i =>
    let j := first + i
    let lo := if j * 8 < bit then bit - j * 8 else 0
    let hi := min 8 (bit + w - j * 8)
    let mask := (2 ^ hi - 1) - (2 ^ lo - 1)
    let part := (v * 2 ^ (bit % 8) / 2 ^ (8 * i)) % 256
    s.setScrByte j (BitVec.ofNat 8 (((s.scrByte j).toNat &&& (255 - mask)) ||| (part &&& mask)))) s

/-- The bit address of element `i` of a bank (R62). -/
def State.elemBit (s : State) (bank i : Nat) : Nat := bank * 65536 * 8 + s.bankWidth bank * i

/-- The bit address of the scale of block `j` of a bank (R62). -/
def State.scaleBit (s : State) (bank j : Nat) : Nat :=
  (s.bankSbank bank * 65536 + s.bankSoff bank + j * scaleBytes (s.bankFmt bank)) * 8

/-- The code of the scale of block `j` of a bank, and whether its granule is poisoned. -/
def State.elemScale (s : State) (bank j : Nat) : Nat × Bool :=
  s.scrBits (s.scaleBit bank j) (8 * scaleBytes (s.bankFmt bank))

/-- Elements of a bank as they move: code, scale code and poison carried by granules (R63, R90). -/
structure Stored where
  code : Nat
  scale : Nat
  poison : Bool
deriving DecidableEq, Repr

/-- Element `i` of a bank. -/
def State.stored (s : State) (bank i : Nat) : Stored :=
  let (c, p) := s.scrBits (s.elemBit bank i) (s.bankWidth bank)
  if fmtBlock (s.bankFmt bank) then
    let (x, p') := s.elemScale bank (i / 32)
    ⟨c, x, p || p'⟩
  else ⟨c, 0, p⟩

/-- The exact value of element `i` of a bank (R63, R90). -/
def State.elemVal (s : State) (bank i : Nat) : Val :=
  let e := s.stored bank i
  if e.poison then .poison else decodeElem (s.bankFmt bank) e.code e.scale

/-- A code to be written at a bit address, with poison carried outside it. -/
structure Place where
  bit : Nat
  width : Nat
  code : Nat
  poison : Bool
deriving DecidableEq, Repr

/-- The granules (64 bytes of issued addresses) that the places reach. -/
def placeGranules (ps : List Place) : List Nat :=
  (ps.flatMap (fun p => [p.bit / 512, (p.bit + p.width - 1) / 512])).eraseDups

/-- Bits of granule `g` that a place covers. -/
def Place.cover (p : Place) (g : Nat) : Nat := min (p.bit + p.width) (512 * g + 512) - max p.bit (512 * g)

/-- The state with codes written: a granule that receives poison is marked, and one written whole without poison is
cleared (R65, R89). What one write covers is all the places given, which are those of one packet, row or operation: the model's choice
(log entry 71). -/
def State.storePlaces (s : State) (ps : List Place) : State :=
  let s0 := (ps.map (fun p => p.bit / 524288)).eraseDups.foldl (fun s b => s.wrote b) s
  let s1 := ps.foldl (fun s p => s.setScrBits p.bit p.width p.code) s0
  (placeGranules ps).foldl (fun s g =>
    if ps.any (fun p => p.poison && p.cover g != 0) then s.setScrPoison (64 * g) true
    else if 512 ≤ (ps.map (fun p => p.cover g)).sum then s.setScrPoison (64 * g) false
    else s) s1

/-- An event of a conversion in a block (R67). -/
structure BlockEvent where
  block : Nat
  event : Event
deriving DecidableEq, Repr

/-- Insertion of a number into a rising list. -/
def insertNat (n : Nat) : List Nat → List Nat
  | [] => [n]
  | x :: r => if n ≤ x then n :: x :: r else x :: insertNat n r

/-- The numbers of a list in rising order. -/
def sortNats (l : List Nat) : List Nat := l.foldr insertNat []

/-- The event at the lowest position, of those given with their positions. -/
def firstOf (es : List (Nat × Event)) : Option Event :=
  (es.foldl (fun (best : Option (Nat × Event)) x => match best with
    | none => some x
    | some y => if x.1 < y.1 then some x else best) none).map (fun x => x.2)

/-- At most one event a block, that of the first element in element order, in ascending order of block (R67); each is given with its
position in its block. -/
def firstEvents (es : List (Nat × BlockEvent)) : List BlockEvent :=
  (sortNats (es.map (fun e => e.2.block)).eraseDups).filterMap (fun b =>
    (firstOf ((es.filter (fun e => e.2.block == b)).map (fun e => (e.1, e.2.event)))).map (fun v => ⟨b, v⟩))

/-- The state with exact values converted into elements of a bank, given by element index in rising order, and the events
of the conversion (R56 to R60, R65, R67). -/
def State.storeVals (s : State) (bank : Nat) (rm : Nat) (satd : Bool) (xs : List (Nat × Val)) : State × List BlockEvent :=
  let f := s.bankFmt bank
  let w := s.bankWidth bank
  if fmtBlock f then
    let blocks := (xs.map (fun x => x.1 / 32)).eraseDups
    let enc := blocks.map (fun j =>
      let vs := xs.filter (fun x => x.1 / 32 == j)
      let src := (List.range 32).map (fun i => (vs.find? (fun x => x.1 == 32 * j + i)).map (fun x => x.2))
      (j, encodeBlock f rm src))
    let places := enc.flatMap (fun (j, b) =>
      ((b.elems.zipIdx).filterMap (fun (c, i) =>
        let bit := s.elemBit bank (32 * j + i)
        if bit + w ≤ (bank + 1) * 65536 * 8 then some ⟨bit, w, c.code, b.poison⟩ else none)) ++
        [⟨s.scaleBit bank j, 8 * scaleBytes f, b.scale, b.poison⟩])
    (s.storePlaces places, firstEvents (enc.flatMap (fun (j, b) => b.elems.zipIdx.filterMap (fun (c, i) => c.event.map (fun e => (i, ⟨j, e⟩))))))
  else
    let enc := xs.map (fun x => (x.1, encodeElem f rm satd x.2))
    (s.storePlaces (enc.map (fun (i, c) => ⟨s.elemBit bank i, w, c.code, c.poison⟩)),
      firstEvents (enc.filterMap (fun (i, c) => c.event.map (fun e => (i % 32, ⟨i / 32, e⟩)))))

/-! The overflow event queue. -/

/-- REASON of an event (R67). -/
def Event.reason : Event → Nat
  | .posSat => 0
  | .negSat => 1
  | .nanZero => 2

/-- A record in its place in the queue: behind those that entered before its cycle, and among those of its cycle in the order of ORIGIN
(R67). -/
def insertRecord (r : BitVec 128) (l : List (BitVec 128)) : List (BitVec 128) :=
  let later (x : BitVec 128) : Bool := fld x 0 32 == fld r 0 32 && decide (fld r 108 4 < fld x 108 4)
  l.takeWhile (fun x => !later x) ++ [r] ++ l.dropWhile (fun x => !later x)

/-- The state with a record offered to the overflow event queue (R67, R68); a record that enters will be drained. Of the records of one
cycle, those that the queue has no room for are the last in the order of R67. -/
def State.logEvent (s : State) (stag origin place tile : Nat) (e : BlockEvent) : State :=
  let ctl := s.csrOf 0x17
  if !ctl.getLsbD 62 then s
  else
    let r : BitVec 128 := put (put (put (put (put (put (put (0 : BitVec 128) 112 16 stag) 108 4 origin) 104 4 e.event.reason)
      98 6 place) 64 32 e.block) 32 32 tile) 0 32 (s.clk.toNat % 2 ^ 32)
    let q := insertRecord r s.logs.overflow
    let s1 := { s with logs := { s.logs with overflow := q.take 32 } }
    if 32 < q.length then s1.setCsr 0x17 (putBit ctl 63 true) else (s1.post .overflowLogDrain).count 17 1

/-- The state with the events of a conversion logged in order. -/
def State.logEvents (s : State) (stag origin place tile : Nat) (es : List BlockEvent) : State :=
  es.foldl (fun s e => s.logEvent stag origin place tile e) s

end Sys2Proof.Machine
end

