-- ==== Sys2Proof/Machine/Tensor.lean ====
section
/-! DEFINITION. Tensors: the entry and its well-formedness (R33, R34), the layout (R36), tile tables (R37), binding,
pins and release (R38 to R40). -/
namespace Sys2Proof.Machine

/-- A cause of an operation through a handle: TVALUE[63:32] and FAULTADDR by R39. -/
structure TensorFault where
  cause : Cause
  high : Nat := 0
  addr : Nat := 0
deriving DecidableEq, Repr

/-- TVALUE of a tensor cause: the handle in [31:0] (R39). -/
def TensorFault.tvalue (f : TensorFault) (handle : Word32) : Word64 := w64 (f.high * 2 ^ 32 + handle.toNat)

/-! Fields of a tensor entry (R33). -/

def teExt (e : BitVec 512) (k : Nat) : Nat := fld e (416 + 24 * k) 24
def teTs (e : BitVec 512) (k : Nat) : Nat := fld e (12 + 5 * k) 5
def teRank (e : BitVec 512) : Nat := fld e 2 2 + 1
def teFmt (e : BitVec 512) : Nat := fld e 4 5
def teGen (e : BitVec 512) : Nat := fld e 52 12
def teRel (e : BitVec 512) : Bool := e.getLsbD 1
def teValid (e : BitVec 512) : Bool := e.getLsbD 0
def tePin (e : BitVec 512) : Nat := fld e 344 24
def teTord (e : BitVec 512) (j : Nat) : Nat := fld e (32 + 2 * j) 2
def teIord (e : BitVec 512) (j : Nat) : Nat := fld e (40 + 2 * j) 2
/-- The slot of a handle (R15). -/
def handleSlot (h : Word32) : BitVec 20 := BitVec.ofNat 20 (fld h 12 20)
/-- The generation of a handle. -/
def handleGen (h : Word32) : Nat := fld h 0 12

/-- ⌈a / b⌉. -/
def ceilDiv (a b : Nat) : Nat := (a + b - 1) / b

/-- The extent of dimension k; 1 beyond the rank (R34). -/
def extOf (e : BitVec 512) (k : Nat) : Nat := if k < teRank e then teExt e k else 1
/-- log2 of the tile extent of dimension k; 0 beyond the rank. -/
def tsOf (e : BitVec 512) (k : Nat) : Nat := if k < teRank e then teTs e k else 0
/-- Tiles along dimension k. -/
def gridOf (e : BitVec 512) (k : Nat) : Nat := ceilDiv (extOf e k) (2 ^ tsOf e k)

/-- The sum of TS that an element width requires (R34). -/
def tsSum (width : Nat) : Nat := if width = 32 then 15 else if width = 16 then 16 else if width = 4 then 18 else 17

/-- Conditions 1 to 5 of R34: the number of the first that fails. -/
def entryFault (e : BitVec 512) : Option Nat :=
  let dims := (List.range (teRank e))
  let perm (f : Nat → Nat) : Bool := (List.range 4).all (fun d => (List.range 4).any (fun j => f j == d))
  if dims.any (fun k => teExt e k == 0) then some 1
  else if !(perm (teTord e) && perm (teIord e)) then some 2
  else if !fmtKnown (teFmt e) then some 3
  else if (dims.map (teTs e)).sum != tsSum (fmtWidth (teFmt e)) then some 4
  else if 2 ^ 28 < ((List.range 4).map (gridOf e)).foldl (· * ·) 1 then some 5
  else none

/-! The layout units (R29): each holds 256 tensor entries and 4,096 tile leaves, the least recently used replaced (log entry 67). -/

/-- A layout unit that holds nothing. -/
def LayoutUnit.empty : LayoutUnit := ⟨[], []⟩
/-- The number of the layout unit that resolves a slot on a die: that of slice slot mod 16 (R38). -/
def unitOf (die : BitVec 2) (slot : BitVec 20) : Nat := 16 * die.toNat + slot.toNat % 16
/-- The layout unit that resolves a slot on a die. -/
def State.layoutOf (s : State) (die : BitVec 2) (slot : BitVec 20) : LayoutUnit := mget s.layout .empty (unitOf die slot)
/-- The state with a layout unit replaced. -/
def State.setLayout (s : State) (die : BitVec 2) (slot : BitVec 20) (u : LayoutUnit) : State :=
  { s with layout := mset s.layout .empty (unitOf die slot) u }

/-- The entry of a slot read from the tensor table, with order 1 of R38 on the slot. A WORLD or KEY_ABSENT of that read, for which
R39 has no row, has 0 in TVALUE[63:32] and FAULTADDR: the model's choice (log entry 68). -/
def State.readSlot (s : State) (asid : BitVec 11) (slot : BitVec 20) : Except TensorFault TensorEntry :=
  match s.descriptor asid with
  | .error (.notMapped, _) => .error { cause := .notMapped, high := 5 + 8 * 4 }
  | .error (c, _) => .error { cause := c }
  | .ok d =>
    if !d.getLsbD 0 || !d.getLsbD 2 || fld d 128 20 < slot.toNat then .error { cause := .notMapped }
    else
      let pa := fld d 80 44 * 2 ^ 16 + 64 * slot.toNat
      if (s.cellOf s.ilvCur pa).isSome && s.regionSecure pa != d.getLsbD 1 then .error { cause := .world }
      else match s.readTable pa 64 with
        | .error .notMapped => .error { cause := .notMapped, high := 7 + 8 * 4 }
        | .error c => .error { cause := c }
        | .ok v => .ok ⟨slot, BitVec.ofNat 512 v, pa⟩

/-- The entry of a slot for a requester on a die: from the tensor-table cache, whose entries are used on until they are invalidated
(R31, R32), else from memory (R38 step 2). -/
def State.tensorSlot (s : State) (die : BitVec 2) (asid : BitVec 11) (slot : BitVec 20) : Except TensorFault TensorEntry :=
  match (s.layoutOf die slot).entries.find? (fun e => e.1 == asid && e.2.slot == slot) with
  | some e => .ok e.2
  | none => s.readSlot asid slot

/-- The state with an entry in its tensor-table cache, where it is valid (R29). -/
def State.cacheEntry (s : State) (die : BitVec 2) (asid : BitVec 11) (e : TensorEntry) : State :=
  let u := s.layoutOf die e.slot
  let rest := u.entries.filter (fun x => !(x.1 == asid && x.2.slot == e.slot))
  s.setLayout die e.slot { u with entries := if teValid e.entry then ((asid, e) :: rest).take 256 else rest }

/-- TVALUE[63:32] of STALE_HANDLE (R39). -/
def staleHigh (e : BitVec 512) : Nat := teGen e + 2 ^ 12 * (teRel e).toNat + 2 ^ 13 * (teValid e).toNat

/-- The entry is stale for a generation (R38). -/
def entryStale (e : BitVec 512) (gen : Nat) : Bool := !teValid e || teRel e || teGen e != gen

/-- Condition 6 of R34 on a block-scaled entry: its scale tensor. A slot SCL that order 1 of R38 refuses fails condition 6 itself: the
model's choice (log entry 68). -/
def State.scaleFault (s : State) (die : BitVec 2) (asid : BitVec 11) (e : BitVec 512) : Except TensorFault (Option Nat) :=
  if !fmtBlock (teFmt e) then .ok none
  else match s.tensorSlot die asid (BitVec.ofNat 20 (fld e 324 20)) with
    | .error f => if f.cause = .notMapped && f.high = 0 then .ok (some 6) else .error f
    | .ok x =>
      let extents := (List.range 4).all (fun k =>
        extOf x.entry k == (if k = 0 then ceilDiv (extOf e 0) 32 else extOf e k))
      .ok (if teValid x.entry && teFmt x.entry == fmtScale (teFmt e) && teRank x.entry == teRank e && extents &&
          (entryFault x.entry).isNone then none
        else some 6)

/-- The checks of R38, orders 1 to 3, on a handle: its entry. -/
def State.tensorEntry (s : State) (die : BitVec 2) (asid : BitVec 11) (h : Word32) : Except TensorFault TensorEntry :=
  match s.tensorSlot die asid (handleSlot h) with
  | .error f => .error f
  | .ok e =>
    if entryStale e.entry (handleGen h) then .error { cause := .staleHandle, high := staleHigh e.entry }
    else match entryFault e.entry with
      | some n => .error { cause := .layoutMismatch, high := n }
      | none => match s.scaleFault die asid e.entry with
        | .error f => .error f
        | .ok (some n) => .error { cause := .layoutMismatch, high := n }
        | .ok none => .ok e

/-- Coordinates c0 to c3 of an element. -/
abbrev Coord := Nat × Nat × Nat × Nat

/-- Coordinate k. -/
def coord (c : Coord) : Nat → Nat
  | 0 => c.1
  | 1 => c.2.1
  | 2 => c.2.2.1
  | _ => c.2.2.2

/-- Order 4 of R38: the first coordinate outside the extents. -/
def boundsFault (e : BitVec 512) (c : Coord) : Option TensorFault :=
  ((List.range 4).find? (fun k => extOf e k ≤ coord c k)).map
    (fun k => { cause := .tensorBounds, high := k, addr := coord c k })

/-- Locate (R36): the tile and the bit offset within it of an element of `w` bits. -/
def locate (e : BitVec 512) (w : Nat) (c : Coord) : Nat × Nat :=
  let t := [3, 2, 1, 0].foldl (fun t j => let d := teTord e j; t * gridOf e d + coord c d / 2 ^ tsOf e d) 0
  let i := [3, 2, 1, 0].foldl (fun i j => let d := teIord e j; i * 2 ^ tsOf e d + coord c d % 2 ^ tsOf e d) 0
  (t, i * w)

/-- The swizzle of code `c` (R36). -/
def swz (c o : Nat) : Nat := o ^^^ ((o >>> (4 + c)) % 2 ^ c * 16)

/-- A cause of a tile's leaf, with its reason and the tile (R39). -/
def leafFault (c : Cause) (reason tile : Nat) : TensorFault := { cause := c, high := 8 * reason, addr := tile }

/-- The leaf of a tile read from its tile table, with the checks of R23 and R24 without SUP and EX (R37). -/
def State.readTile (s : State) (secure : Bool) (pa tile : Nat) (k : AccessKind) : Except TensorFault (BitVec 128) :=
  if (s.cellOf s.ilvCur pa).isSome && s.regionSecure pa != secure then .error (leafFault .world 0 tile)
  else match s.readTable pa 16 with
    | .error .notMapped => .error (leafFault .notMapped 4 tile)
    | .error c => .error (leafFault c 0 tile)
    | .ok v =>
      let l := BitVec.ofNat 128 v
      if !l.getLsbD 0 then .error (leafFault .notMapped 0 tile)
      else if !l.getLsbD 1 then .error (leafFault .notMapped 3 tile)
      else if leafTarget l = 0 && 2 ^ 22 ≤ leafFrame l then .error (leafFault .notMapped 2 tile)
      else match checkLeaf l k true secure with
        | some c => .error (leafFault c 0 tile)
        | none => .ok l

/-- A leaf enters, or is used in, the tile-table cache of its tensor's layout unit. -/
def State.cacheLeaf (s : State) (die : BitVec 2) (l : TileLeaf) : State :=
  let u := s.layoutOf die l.slot
  s.setLayout die l.slot
    { u with leaves := (l :: u.leaves.filter (fun x => !(x.asid == l.asid && x.slot == l.slot && x.tile == l.tile))).take 4096 }

/-- A leaf read from memory takes ACC, and DIRTY before a write, and enters the cache (R28, R29). -/
def State.freshTile (s : State) (t : Tensor) (e : TensorEntry) (tile : Nat) (k : AccessKind) : Except TensorFault (State × BitVec 128) :=
  let pa := fld e.entry 368 48 * 2 ^ 12 + 16 * tile
  match s.readTile t.secure pa tile k with
  | .error f => .error f
  | .ok l =>
    let l' := putBit (if k = .read then l else putBit l 12 true) 11 true
    let s1 := if l' = l then s else s.writeTable pa 16 l'.toNat
    .ok (s1.cacheLeaf t.die ⟨t.asid, e.slot, tile, l', pa⟩, l')

/-- The leaf of a tile with its checks: through the tile-table cache, where a cause that R31 has confirmed takes a fresh read, as a
DIRTY does whose compare fails (R28, R29), else from memory. -/
def State.tileEntry (s : State) (t : Tensor) (e : TensorEntry) (tile : Nat) (k : AccessKind) : Except TensorFault (State × BitVec 128) :=
  match (s.layoutOf t.die e.slot).leaves.find? (fun x => x.asid == t.asid && x.slot == e.slot && x.tile == tile) with
  | none => s.freshTile t e tile k
  | some x =>
    match checkLeaf x.leaf k true t.secure with
    | some c => if confirmed c then s.freshTile t e tile k else .error (leafFault c 0 tile)
    | none =>
      if k = .read || x.leaf.getLsbD 12 then .ok (s.cacheLeaf t.die x, x.leaf)
      else match s.readTable x.pa 16 with
        | .error c => .error (leafFault c 0 tile)
        | .ok v =>
          if v = x.leaf.toNat then
            let l' := putBit x.leaf 12 true
            .ok ((s.writeTable x.pa 16 l'.toNat).cacheLeaf t.die { x with leaf := l' }, l')
          else s.freshTile t e tile k

/-- A tile of a tensor bound for an access: its leaf and its frame (R37); the hub refuses one in pool memory whose key slot is not
loaded (R25). -/
def State.tileLeaf (s : State) (t : Tensor) (e : TensorEntry) (tile : Nat) (k : AccessKind) : Except TensorFault (State × Bound) :=
  match s.tileEntry t e tile k with
  | .error f => .error f
  | .ok (s1, l) =>
    let b : Bound := ⟨BitVec.ofNat 72 tile, t.asid, t.secure, l, leafFrame l * 2 ^ 17, s.ilvCur⟩
    if s.target l = 0 && (s.cellOf b.ver b.pa).isNone then .error (leafFault .notMapped 4 tile)
    else match s.hubRefusal b with
      | some c => .error (leafFault c 0 tile)
      | none => .ok (s1, b)

/-- The bits of an element of `w` bits at bit `b` of a tile, and its poison, at a local home (R36, R90). -/
def State.tileRead (s : State) (b : Bound) (e : BitVec 512) (w bit : Nat) : Except Cause (Nat × Bool) :=
  let sw := fld e 9 3
  let first := bit / 8
  let last := (bit + w - 1) / 8
  let one (j : Nat) : Except Cause (Nat × Bool) :=
    let pa := b.pa + swz sw j
    match s.homeRefusal b pa false with
    | some c => .error c
    | none => match s.cellOf b.ver pa with
      | none => .error .notMapped
      | some c => .ok (if (s.granule c).owner.isNone then 0 else (s.cell c).toNat, (s.granule c).poison)
  let r := (List.range (last + 1 - first)).foldr (fun i acc =>
    match acc, one (first + i) with
    | .ok (v, p), .ok (x, p') => .ok (x + 256 * v, p || p')
    | .error c, _ => .error c
    | _, .error c => .error c) (Except.ok (0, false))
  match r with
  | .error c => .error c
  | .ok (v, p) => .ok ((v >>> (bit % 8)) % 2 ^ w, p)

/-- A granule at a local home marked poisoned (R90). -/
def State.poisonCell (s : State) (c : Nat) : State := s.setGranule c { s.granule c with poison := true }

/-- The state with an element of `w` bits written at bit `b` of a tile at a local home, its granules poisoned where it is
poison (R65, R90). -/
def State.tileWrite (s : State) (b : Bound) (e : BitVec 512) (w bit v : Nat) (poison : Bool) : Except Cause State :=
  let sw := fld e 9 3
  let first := bit / 8
  let last := (bit + w - 1) / 8
  (List.range (last + 1 - first)).foldl (fun acc i =>
    match acc with
    | .error c => .error c
    | .ok s =>
      let j := first + i
      let pa := b.pa + swz sw j
      match s.homeRefusal b pa true with
      | some c => .error c
      | none => match s.cellOf b.ver pa with
        | none => .error .notMapped
        | some c =>
          let old := if (s.granule c).owner = some (s.slotEpoch (leafKey b.leaf)) then (s.cell c).toNat else 0
          let lo := if j * 8 < bit then bit - j * 8 else 0
          let hi := min 8 (bit + w - j * 8)
          let part := (v * 2 ^ (bit % 8) / 2 ^ (8 * i)) % 256
          let mask := (2 ^ hi - 1) - (2 ^ lo - 1)
          let byte := (old &&& (255 - mask)) ||| (part &&& mask)
          let s := s.writeCell c 1 byte (s.slotEpoch (leafKey b.leaf))
          .ok (if poison then s.poisonCell c else s)) (.ok s)

/-- PinAtHome (R38) on the entry at a physical address: the state with the entry pinned, none where it is stale. -/
def State.pinAtHome (s : State) (pa gen : Nat) : Option State :=
  match s.readTable pa 64 with
  | .error _ => none
  | .ok v =>
    let e := BitVec.ofNat 512 v
    if entryStale e gen then none else some (s.writeTable pa 64 (put e 344 24 (tePin e + 1)).toNat)

/-- An entry is freed: Finish (R40); the tag completes for the task that released it. -/
def State.finishEntry (s : State) (ver : Bool) (e : BitVec 512) (pa : Nat) (tag : Option (Nat × Nat)) : State :=
  let s := s.writeTableAt ver pa 64 (putBit (putBit e 0 false) 1 false).toNat
  match tag with
  | some (task, t) => s.tagDoneOf task t
  | none => s

/-- UnpinAtHome (R40) on the entry at a physical address: it loses a pin, and is freed when a release waits for the last one. -/
def State.unpinAtHome (s : State) (pa : Nat) : State :=
  match s.readTable pa 64 with
  | .error _ => s
  | .ok v =>
    let e := BitVec.ofNat 512 v
    let e' := put e 344 24 (tePin e - 1)
    if tePin e ≤ 1 && teRel e then
      let s1 := s.finishEntry s.ilvCur e' pa (mget s.mu.releases none pa)
      { s1 with mu := { s1.mu with releases := mset s1.mu.releases none pa none } }
    else s.writeTable pa 64 e'.toNat

/-- The scale tensor of an entry that is block-scaled (R35). -/
def State.scaleEntry (s : State) (die : BitVec 2) (asid : BitVec 11) (e : BitVec 512) : Option TensorEntry :=
  if fmtBlock (teFmt e) then
    match s.tensorSlot die asid (BitVec.ofNat 20 (fld e 324 20)) with
    | .ok x => some x
    | .error _ => none
  else none

/-- A requester on a die binds and pins the tensor of a handle (R35, R38); `named` are coordinates that its operation names. Which entry
TVALUE[45:32] shows where a pin answers STALE the spec leaves open (R39): it is the entry as the die's layout unit read it, which may have
held it in its cache, and for a scale tensor the scale entry's GEN, REL and V stand beside the main handle, by the model's choice (log
entry 78). -/
def State.bindTensor (s : State) (die : BitVec 2) (asid : BitVec 11) (secure : Bool) (h : Word32) (named : List Coord) :
    Except TensorFault (State × Tensor) :=
  match s.tensorEntry die asid h with
  | .error f => .error f
  | .ok e =>
    match named.findSome? (boundsFault e.entry) with
    | some f => .error f
    | none =>
      let x := s.scaleEntry die asid e.entry
      let s1 := s.cacheEntry die asid e
      let pinned := match x with
        | none => some s1
        | some x => (s1.cacheEntry die asid x).pinAtHome x.pa (teGen x.entry)
      match pinned with
      | none => .error { cause := .staleHandle, high := (x.map (fun y => staleHigh y.entry)).getD 0 }
      | some s2 => match s2.pinAtHome e.pa (handleGen h) with
        | none => .error { cause := .staleHandle, high := staleHigh e.entry }
        | some s3 => .ok (s3, ⟨asid, secure, die, e, x⟩)

/-- An operation unpins its tensor, by the entries that it bound (R38). -/
def State.unbindTensor (s : State) (t : Tensor) : State :=
  let s1 := s.unpinAtHome t.main.pa
  match t.scale with
  | some x => s1.unpinAtHome x.pa
  | none => s1

end Sys2Proof.Machine
end

