-- ==== Sys2Proof/Machine/Rings.lean ====
section
/-! DEFINITION. Operand rings (R76 to R80): the fields of a descriptor, its validity, the place of a byte, and the way of
a slot from its reservation to its pop. -/
namespace Sys2Proof.Machine

/-- RINGDESC of a ring as stored; RDY is computed when it is read (R77). -/
def State.ringDesc (s : State) (k : Nat) : Word64 := s.csrOf (0x80 + k % 16)

def ringHead (d : Word64) : Nat := fld d 56 8
def ringTail (d : Word64) : Nat := fld d 48 8
def ringCnt (d : Word64) : Nat := fld d 40 8
def ringTc (d : Word64) : Nat := fld d 32 8
def ringOffu (d : Word64) : Nat := fld d 24 8
def ringFb (d : Word64) : Nat := fld d 18 6
def ringNbl (d : Word64) : Nat := fld d 15 3
def ringSwz (d : Word64) : Nat := fld d 12 3
def ringFmt (d : Word64) : Nat := fld d 7 5
def ringV (d : Word64) : Bool := d.getLsbD 0
/-- NB of a ring. -/
def ringNb (d : Word64) : Nat := 2 ^ ringNbl d
/-- The banks of a ring. -/
def ringBanks (d : Word64) : List Nat := (List.range (ringNb d)).map (fun i => ringFb d + i)

/-- The bytes of an operand tile. -/
def tileBytes : Nat := 24576

/-- RingByte of R76, in the descriptor's geometry. -/
def ringByte (d : Word64) (j r b : Nat) : Nat :=
  let nb := ringNb d
  (ringFb d + r % nb) * 65536 + 384 * (ringOffu d + j * (64 / nb) + r / nb) + swz (ringSwz d) b

/-- The condition of R76 that a descriptor fails: FIELD_RANGE first, then NOT_MAPPED. -/
def State.ringFault (s : State) (d : Word64) : Option Cause :=
  if ringTc d = 0 || ringTc d ≤ ringTail d || ringTc d ≤ ringHead d || 3 < ringSwz d || !fmtMatrix (ringFmt d) ||
      64 < ringFb d + ringNb d || 65536 < 384 * ringOffu d + ringTc d * tileBytes / ringNb d then some .fieldRange
  else if s.nbank < ringFb d + ringNb d then some .notMapped
  else none

/-- The bits of an operand tile. -/
def tileBits : Nat := 8 * tileBytes

/-- A tile of a slot has wholly landed (R79). -/
def State.slotReady (s : State) (k j : Nat) : Bool := tileBits ≤ mget s.scr.landed 0 (256 * k + j)

/-- RINGDESC as it reads (R77). -/
def State.ringRead (s : State) (k : Nat) : Word64 :=
  let d := s.ringDesc k
  putBit d 1 (ringV d && ringCnt d != 0 && s.slotReady k (ringHead d))

/-- The state with the bits landed of a slot set. -/
def State.setLanded (s : State) (k j n : Nat) : State :=
  { s with scr := { s.scr with landed := mset s.scr.landed 0 (256 * k + j) n } }

/-- The state with every slot of a ring without a tile, but for those given, which are ready. -/
def State.readySlots (s : State) (k : Nat) (l : List Nat) : State :=
  (List.range 256).foldl (fun s j => s.setLanded k j (if l.contains j then tileBits else 0)) s

/-- A tile takes the next slot of a ring (R79, R179); none where it is full. -/
def State.reserveSlot (s : State) (k : Nat) : Option (Nat × State) :=
  let d := s.ringDesc k
  if !ringV d || ringTc d ≤ ringCnt d + mget s.scr.ringHeld 0 k then none
  else
    let j := ringTail d
    let d' := put (put d 48 8 ((j + 1) % ringTc d)) 40 8 (ringCnt d + 1)
    some (j, (s.setCsr (0x80 + k) d').setLanded k j 0)

/-- `n` tiles of a ring are popped (R79); their slots are not reserved before the phase commits (R179). -/
def State.popSlots (s : State) (k n : Nat) : State :=
  let d := s.ringDesc k
  if !ringV d then s
  else
    let d' := put (put d 56 8 ((ringHead d + n) % ringTc d)) 40 8 (ringCnt d - n)
    let s1 := (List.range n).foldl (fun s i => s.setLanded k ((ringHead d + i) % ringTc d) 0) (s.setCsr (0x80 + k) d')
    { s1 with scr := { s1.scr with ringHeld := mset s1.scr.ringHeld 0 k (mget s1.scr.ringHeld 0 k + n) } }

/-- A descriptor is written by system software (R77): its cause, or the ring with its CNT slots ready. -/
def State.writeRing (s : State) (k : Nat) (v : Word64) : Except Cause State :=
  let d := putBit (put v 2 5 0) 1 false
  if ringV d && (s.ringFault d).isSome then .error .fieldRange
  else
    let ready := if ringV d then (List.range (ringCnt d)).map (fun i => (ringHead d + i) % ringTc d) else []
    let s1 := (s.setCsr (0x80 + k) d).readySlots k ready
    .ok { s1 with scr := { s1.scr with ringHeld := mset s1.scr.ringHeld 0 k 0 } }

/-- A ring is initialised (R316, R76, R80): its cause, or the ring empty. -/
def State.initRing (s : State) (k geom fmt : Nat) : Except Cause State :=
  let d : Word64 := put (put (put (put (put (put (1 : Word64) 7 5 fmt) 12 3 (geom / 2 ^ 25)) 15 3 (geom / 2 ^ 22)) 18 6
    (geom / 2 ^ 16)) 24 8 (geom / 2 ^ 8)) 32 8 geom
  match s.ringFault d with
  | some c => .error c
  | none =>
    if ringCnt (s.ringDesc k) ≠ 0 then .error .ringOverrun
    else
      let s1 := (s.setCsr (0x80 + k) d).readySlots k []
      .ok { s1 with scr := { s1.scr with ringHeld := mset s1.scr.ringHeld 0 k 0 } }

end Sys2Proof.Machine
end

