-- ==== Sys2Proof/Machine/Convert.lean ====
section
/-! DEFINITION. Transfers between formats (R55, R65, R67): elements in transit, packets and their boxes (R91, R310), and
the encoding of elements into the blocks of their destination. -/
namespace Sys2Proof.Machine

/-- An element that enters a block of its destination: the block and the position there, its code and the code of its
scale in the source format, poison carried outside the code, the block and position it had at its source, and a number
by which its place is found. -/
structure Piece where
  key : Nat
  pos : Nat
  code : Nat
  scale : Nat
  poison : Bool
  sblk : Nat
  spos : Nat
  tag : Nat
deriving DecidableEq, Repr

/-- The exact value of an element in format `f`. -/
def Piece.val (p : Piece) (f : Nat) : Val :=
  if p.poison then .poison else if fmtFixed f then .zero else decodeElem f p.code p.scale

/-- What an encoding writes: the codes of the elements, positions of blocks that no element carries, and the scales, each with its
poison. -/
structure Encoding where
  elems : List (Piece × Coded)
  fills : List (Nat × Nat)
  scales : List (Nat × Nat × Bool)

/-- The events of an encoding, one a block at most (R67); `at_` gives the block and the position of an element. -/
def Encoding.events (e : Encoding) (at_ : Piece → Nat × Nat) : List BlockEvent :=
  firstEvents (e.elems.filterMap (fun (p, c) => c.event.map (fun v => ((at_ p).2, ⟨(at_ p).1, v⟩))))

/-- The scale code of a block-scaled format means poison (R50, R52). -/
def scaleReserved (f x : Nat) : Bool := x % 256 == 0xFF || (fmtScale f == 27 && x / 256 % 256 == 0xFF)

/-- The encoding of the elements of one block, of which `size` exist at the destination (R65). A block-scaled transfer in one format
moves bits where it covers a whole destination block by elements of one source block at their places, and else encodes: that it
encodes where it covers a part is the model's reading (log entry 70). -/
def encodeOne (src dst rm : Nat) (satd : Bool) (key size : Nat) (ps : List Piece) : Encoding :=
  if fmtBlock dst then
    let at_ (i : Nat) : Option Piece := ps.find? (fun p => p.pos == i)
    let empty := ((List.range 32).filter (fun i => (at_ i).isNone)).map (fun i => (key, i))
    let aligned := ps.all (fun p => p.pos == p.spos && some p.sblk == (ps.head?.map (fun q => q.sblk)))
    if src = dst && size ≤ ps.length && aligned then
      let scale := (ps.head?.map (fun p => p.scale)).getD 0
      ⟨ps.map (fun p => (p, { code := p.code, poison := p.val src == .poison })), empty, [(key, scale, scaleReserved dst scale)]⟩
    else
      let b := encodeBlock dst rm ((List.range 32).map (fun i => (at_ i).map (fun p => p.val src)))
      ⟨ps.map (fun p => (p, b.elems.getD p.pos { code := 0 })), empty, [(key, b.scale, b.poison)]⟩
  else
    ⟨ps.map (fun p => (p, if src = dst then { code := p.code, poison := p.val src == .poison } else encodeElem dst rm satd (p.val src))),
      [], []⟩

/-- The encoding of elements into their blocks, in ascending order of block; `size` gives the elements that a block has. -/
def encodePieces (src dst rm : Nat) (satd : Bool) (size : Nat → Nat) (ps : List Piece) : Encoding :=
  (sortNats (ps.map (fun p => p.key)).eraseDups).foldr (fun k acc =>
    let e := encodeOne src dst rm satd k (size k) (ps.filter (fun p => p.key == k))
    ⟨e.elems ++ acc.elems, e.fills ++ acc.fills, e.scales ++ acc.scales⟩) ⟨[], [], []⟩

/-- A conversion that R55 forbids: one of the formats moves as bit patterns only. -/
def conversionForbidden (src dst : Nat) : Bool := src != dst && (fmtFixed src || fmtFixed dst)

/-! Boxes and packets. Coordinates and extents are lists of four, dimension 0 first. -/

/-- Entry `k` of a list of four numbers. -/
def at4 (l : List Nat) (k : Nat) : Nat := l.getD k 0

/-- Element `j` of a box, dimension 0 fastest: its place in the box. -/
def boxPlace (n : List Nat) (j : Nat) : List Nat :=
  [j % at4 n 0, j / at4 n 0 % at4 n 1, j / (at4 n 0 * at4 n 1) % at4 n 2, j / (at4 n 0 * at4 n 1 * at4 n 2) % at4 n 3]

/-- The elements of a box. -/
def boxSize (n : List Nat) : Nat := at4 n 0 * at4 n 1 * at4 n 2 * at4 n 3

/-- The coordinates of element `j` of a packet. -/
def Packet.coord (p : Packet) (j : Nat) : List Nat := List.zipWith (· + ·) p.c (boxPlace p.n j)

/-- BYTES of a packet (R91). -/
def Packet.bytes (p : Packet) : Nat := (boxSize p.n * fmtWidth p.wfmt.toNat + 7) / 8

/-- The bytes of scales that a packet carries. -/
def Packet.scaleBytes (p : Packet) : Nat :=
  if fmtBlock p.wfmt.toNat then ceilDiv (boxSize p.n) 32 * Machine.scaleBytes p.wfmt.toNat else 0

/-- What a held packet occupies in a hold (R101). -/
def Packet.heldBytes (p : Packet) : Nat := 32 + p.bytes + p.scaleBytes

/-- Element `j` of a packet as it enters position `pos` of block `key` of its destination. -/
def Packet.piece (p : Packet) (j key pos : Nat) : Piece :=
  let e := p.elems.getD j ⟨0, false⟩
  ⟨key, pos, e.code.toNat, (p.scales.getD (j / 32) 0).toNat, e.poison, j / 32, j % 32, j⟩

/-! Bank regions (R99). -/

/-- The bank and the bit within it of bit `n` of a bank region. -/
def regionBit (fb nbl off rowu swzc n : Nat) : Nat × Nat :=
  let row := n / (128 * rowu)
  let col := n % (128 * rowu)
  (fb + row % 2 ^ nbl, 8 * (off + 16 * rowu * (row / 2 ^ nbl) + swz swzc (col / 8)) + col % 8)

/-- The places of the bits from `n` on of an element of `w` bits, where `at_` gives the bank and bit of each: elements
of 6 bits bit by bit, since they may pass from one 16-byte unit into the next. -/
def placesOf (at_ : Nat → Nat × Nat) (w n code : Nat) (poison : Bool) : List Place :=
  let one (k len c : Nat) : Place := let (b, y) := at_ k; ⟨524288 * b + y, len, c, poison⟩
  if w = 6 then (List.range 6).map (fun k => one (n + k) 1 (code / 2 ^ k % 2)) else [one n w code]

/-- Zeros written at the positions of bank blocks that no element carries (R65), and scales: block `key` is block
`key mod 2^20` of bank `key div 2^20`. -/
def State.blockPlaces (s : State) (e : Encoding) (w : Nat) : List Place :=
  e.fills.filterMap (fun (key, i) =>
    let bank := key / 2 ^ 20
    let y := w * (32 * (key % 2 ^ 20) + i)
    if y + w ≤ 524288 then some ⟨524288 * bank + y, w, 0, false⟩ else none) ++
  e.scales.map (fun (key, x, p) =>
    ⟨s.scaleBit (key / 2 ^ 20) (key % 2 ^ 20), 8 * scaleBytes (s.bankFmt (key / 2 ^ 20)), x, p⟩)

/-- The elements of block `key` of a bank of elements of `w` bits: the last one may be short (R62). -/
def bankBlockSize (w key : Nat) : Nat := min 32 (524288 / w - 32 * (key % 2 ^ 20))

/-- The block of a bank that a bit of it belongs to, with its position there. -/
def bankBlock (w : Nat) (b : Nat × Nat) : Nat × Nat := (2 ^ 20 * b.1 + b.2 / w / 32, b.2 / w % 32)

/-! Tensors. -/

/-- The coordinates of the scale of an element's block in the scale tensor (R35). -/
def scaleCoord (c : Coord) : Coord := (coord c 0 / 32, coord c 1, coord c 2, coord c 3)

/-- The coordinates of a list of four. -/
def coordOf (l : List Nat) : Coord := (at4 l 0, at4 l 1, at4 l 2, at4 l 3)

/-- One element of a tensor read at its coordinates: its bits and its poison (R36, R37), with the hops of a request of the core for it
counted (log entry 66). A frame outside the package yields a free value (log entry 3). -/
def State.readElem (s : State) (counted : Bool) (t : Tensor) (x : TensorEntry) (c : Coord) : Except TensorFault (State × Nat × Bool) :=
  let w := fmtWidth (teFmt x.entry)
  let (tile, bit) := locate x.entry w c
  match s.tileLeaf t x tile .read with
  | .error f => .error f
  | .ok (s1, b) =>
    if s1.target b.leaf != 0 then
      let (v, s2) := s1.draw
      .ok (s2, v.toNat % 2 ^ w, false)
    else match s1.tileRead b x.entry w bit with
      | .error c => .error { cause := c, addr := tile }
      | .ok (v, p) => .ok (if counted then s1.countHops b.ver b.pa else s1, v, p)

/-- The access to a tile outside the package that an element of a tensor needs, if it does. -/
def State.elemOutside (s : State) (t : Tensor) (x : TensorEntry) (k : AccessKind) (c : Coord) : Option Bound :=
  if (boundsFault x.entry c).isSome then none
  else
    let (tile, bit) := locate x.entry (fmtWidth (teFmt x.entry)) c
    match s.tileLeaf t x tile k with
    | .error _ => none
    | .ok (s1, b) => if s1.target b.leaf = 0 then none else some { b with pa := b.pa + swz (fld x.entry 9 3) (bit / 8) }

/-- The home of one of some elements of a tensor, or of their scales, does not admit the access (R393, R394). -/
def State.tilesBarred (s : State) (t : Tensor) (k : AccessKind) (cs : List Coord) : Bool :=
  let at_ (x : TensorEntry) (c : Coord) : Bool :=
    let (tile, bit) := locate x.entry (fmtWidth (teFmt x.entry)) c
    (boundsFault x.entry c).isNone && match s.tileLeaf t x tile k with
      | .error _ => false
      | .ok (s1, b) => s1.barred { b with pa := b.pa + swz (fld x.entry 9 3) (bit / 8) }
  s.changing && cs.any (fun c => at_ t.main c || t.scale.any (fun x => at_ x (scaleCoord c)))

/-- The claims that a landing into a checked granule meets, those of the sequencer that installed its map among them (R146,
R320). -/
def State.landingRefusal (s : State) (granule : Nat) : Option Refused :=
  match s.mem.claims.filter (fun c => unitsMeet c.unit c.block granule false) with
  | [] => none
  | cs => some (.race, raceTvalue cs true 0 0)

/-- What is written of a tensor: its entry or that of its scale tensor, the coordinates, the code and its poison. -/
abbrev ElemWrite := TensorEntry × Coord × Nat × Bool

/-- The parts of an element of `w` bits from bit `bit` of its tile on: those of 6 bits may pass from one 16-byte unit into the next, which
swizzling places elsewhere (R36). -/
def elementParts (bit w v : Nat) : List (Nat × Nat × Nat) :=
  let n := min w (128 - bit % 128)
  if n = w then [(bit, w, v)] else [(bit, n, v % 2 ^ n), (bit + n, w - n, v / 2 ^ n)]

/-- One element of a tensor written at its coordinates by a write, or by a reduction, which needs RD and WR (R36, R37); an element of
a tile outside the package leaves for its home as one of the landing that runs. -/
def State.writeElem (s : State) (t : Tensor) (k : AccessKind) (x : TensorEntry) (c : Coord) (v : Nat) (poison : Bool) :
    Except TensorFault State :=
  let w := fmtWidth (teFmt x.entry)
  let (tile, bit) := locate x.entry w c
  match s.tileLeaf t x tile k with
  | .error f => .error f
  | .ok (s1, b) =>
    let here (bit : Nat) : Bound := { b with pa := b.pa + swz (fld x.entry 9 3) (bit / 8) }
    if s1.target b.leaf != 0 then
      .ok ((elementParts bit w v).foldl (fun s (i, n, u) =>
        (s.sendBound (here i) (.element s.pkg.landings)).emit (.element (here i) (i % 8) n u poison)) s1)
    else
      match [bit, bit + w - 1].findSome? (fun i => if s1.checked (here i) then s1.landingRefusal (s1.granuleOf (here i)) else none) with
      | some (c, _) => .error { cause := c, addr := tile }
      | none => match s1.tileWrite b x.entry w bit v poison with
        | .error c => .error { cause := c, addr := tile }
        | .ok s2 => .ok s2

/-- Elements written in order, up to the first cause: the state then, and the cause. -/
def State.writeElems (s : State) (t : Tensor) (k : AccessKind) : List ElemWrite → State × Option TensorFault
  | [] => (s, none)
  | (x, c, v, p) :: rest =>
    match boundsFault x.entry c with
    | some f => (s, some f)
    | none => match s.writeElem t k x c v p with
      | .error f => (s, some f)
      | .ok s1 => s1.writeElems t k rest

/-- The granules at a local home that an element reaches, with the bits that it has in each (R36). -/
def State.elemCells (s : State) (t : Tensor) (k : AccessKind) (x : TensorEntry) (c : Coord) : List (Nat × Nat) :=
  let w := fmtWidth (teFmt x.entry)
  let (tile, bit) := locate x.entry w c
  match s.tileLeaf t x tile k with
  | .error _ => []
  | .ok (s1, b) =>
    if s1.target b.leaf != 0 then []
    else (List.range ((bit + w - 1) / 8 + 1 - bit / 8)).filterMap (fun i =>
      let j := bit / 8 + i
      (s1.cellOf b.ver (b.pa + swz (fld x.entry 9 3) j)).map (fun y => (y / 64, min (8 * j + 8) (bit + w) - max (8 * j) bit)))

/-- Granules whose 64 bytes are all written without poison are cleared of it (R89, R90). -/
def State.clearCovered (s : State) (t : Tensor) (k : AccessKind) (ws : List ElemWrite) : State :=
  let add (m : SMap Nat) (x : ElemWrite) : SMap Nat :=
    if x.2.2.2 then m
    else (s.elemCells t k x.1 x.2.1).foldl (fun m (g, n) => mset m 0 g (mget m 0 g + n)) m
  (ws.foldl add []).foldl (fun s (g, n) =>
    if 512 ≤ n then s.setGranule (64 * g) { s.granule (64 * g) with poison := false } else s) s

/-- The event block of an element of a tensor, its tile and its in-tile index over 32, as one number, with its place there (R67). -/
def eventPlace (e : BitVec 512) (c : Coord) : Nat × Nat :=
  let w := fmtWidth (teFmt e)
  let (tile, bit) := locate e w c
  (2 ^ 32 * tile + bit / w / 32, bit / w % 32)

/-- Events of a tensor with the tiles of their blocks. -/
def tiledEvents (es : List BlockEvent) : List (Nat × BlockEvent) :=
  es.map (fun e => (e.block / 2 ^ 32, { e with block := e.block % 2 ^ 32 }))

/-- A packet's elements land in a tensor at coordinates given for each (R65, R99), by a write or a reduction; the third component is
its events, by element. An element outside the extents or a leaf cause ends the landing, and bytes written before it remain. Which those
are the spec leaves open, and it is the model's choice (log entry 78): elements are written in ascending order of their destination block,
and where the tensor is block-scaled every coordinate is checked before any is written. -/
def State.landTensor (s : State) (t : Tensor) (k : AccessKind) (p : Packet) (rm : Nat) (satd : Bool) (dst : Nat → List Nat) :
    State × Option TensorFault × List (Nat × BlockEvent) :=
  let e := t.main.entry
  let f := teFmt e
  let js := List.range (boxSize p.n)
  let blocks := ceilDiv (extOf e 0) 32
  match js.findSome? (fun j => if fmtBlock f then boundsFault e (coordOf (dst j)) else none) with
  | some x => (s, some x, [])
  | none =>
    let place (j : Nat) : Nat × Nat :=
      if fmtBlock f then
        let c := dst j
        (((at4 c 3 * extOf e 2 + at4 c 2) * extOf e 1 + at4 c 1) * blocks + at4 c 0 / 32, at4 c 0 % 32)
      else eventPlace e (coordOf (dst j))
    let size (key : Nat) : Nat := min 32 (extOf e 0 - 32 * (key % blocks))
    let enc := encodePieces p.wfmt.toNat f rm satd size (js.map (fun j => let k := place j; p.piece j k.1 k.2))
    let base (key : Nat) : List Nat :=
      let r := key / blocks
      [32 * (key % blocks), r % extOf e 1, r / extOf e 1 % extOf e 2, r / (extOf e 1 * extOf e 2)]
    let fills : List ElemWrite := enc.fills.filterMap (fun (key, i) =>
      let b := base key
      if at4 b 0 + i < extOf e 0 then some (t.main, coordOf (b.set 0 (at4 b 0 + i)), 0, false) else none)
    let scales : List ElemWrite := match t.scale with
      | some x => enc.scales.map (fun (key, v, q) => let b := base key; (x, coordOf (b.set 0 (at4 b 0 / 32)), v, q))
      | none => []
    let ws := enc.elems.map (fun (q, c) => (t.main, coordOf (dst q.tag), c.code, c.poison)) ++ fills ++ scales
    let (s1, fault) := s.writeElems t k ws
    let events := enc.elems.filterMap (fun (q, c) =>
      c.event.map (fun v => let y := eventPlace e (coordOf (dst q.tag)); (y.2, (⟨y.1, v⟩ : BlockEvent))))
    match fault with
    | some x => (s1, some x, events)
    | none => (s1.clearCovered t k ws, none, events)

end Sys2Proof.Machine
end

