-- ==== Sys2Proof/Machine/Wharf.lean ====
section
/-! DEFINITION. Wharves (R91 to R108): map records and their validity, matching and binding, landing, the hold, unlanded
records, map operations at their boundary, barrier objects and vacating. -/
namespace Sys2Proof.Machine

/-! The wharves of the machine and the fields of a map record (R94). -/

/-- The place of a wharf in the state. -/
def wharfKey : WharfId → Nat
  | .core => 0
  | .mem d => 1 + d.toNat

def Wharf.empty : Wharf := ⟨[], [], [], []⟩
def State.wharf (s : State) (w : WharfId) : Wharf := mget s.wharves .empty (wharfKey w)
def State.setWharf (s : State) (w : WharfId) (x : Wharf) : State :=
  { s with wharves := mset s.wharves .empty (wharfKey w) x }

/-- Map slots of a wharf (R93). -/
def wharfSlots : WharfId → Nat
  | .core => 32
  | .mem _ => 256

/-- A slot that is FREE. -/
def MapSlot.free : MapSlot :=
  { st := 0, map := 0, secure := false, asid := 0, own := false, task := 0, side := .load, tag := none, tensor := none, tiles := []
    bound := 0, shadow := 0 }

def Wharf.slot (x : Wharf) (n : Nat) : MapSlot := mget x.slots .free n
def State.mapSlot (s : State) (w : WharfId) (n : Nat) : MapSlot := (s.wharf w).slot n
def State.setMapSlot (s : State) (w : WharfId) (n : Nat) (m : MapSlot) : State :=
  s.setWharf w { s.wharf w with slots := mset (s.wharf w).slots .free n m }

def mapHi (m : BitVec 512) (k : Nat) : Nat := fld m (416 + 24 * k) 24
def mapLo (m : BitVec 512) (k : Nat) : Nat := fld m (320 + 24 * k) 24
def mapTo (m : BitVec 512) (k : Nat) : Nat := fld m (224 + 24 * k) 24
def mapHandle (m : BitVec 512) : Word32 := BitVec.ofNat 32 (fld m 192 32)
def mapRowu (m : BitVec 512) : Nat := fld m 180 12
def mapStag (m : BitVec 512) : Nat := fld m 48 16
def mapDord (m : BitVec 512) (j : Nat) : Nat := fld m (40 + 2 * j) 2
def mapBo (m : BitVec 512) : Nat := fld m 36 4
def mapBoen (m : BitVec 512) : Bool := m.getLsbD 35
def mapReplicate (m : BitVec 512) : Bool := m.getLsbD 34
def mapKind (m : BitVec 512) : Nat := fld m 32 2
def mapSwz (m : BitVec 512) : Nat := fld m 29 3
def mapNbl (m : BitVec 512) : Nat := fld m 26 3
def mapFb (m : BitVec 512) : Nat := fld m 20 6
def mapRing (m : BitVec 512) : Nat := fld m 16 4
def mapOff (m : BitVec 512) : Nat := fld m 0 16

/-- The window extent of target dimension j (R96). -/
def mapExt (m : BitVec 512) (j : Nat) : Nat := mapHi m (mapDord m j) - mapLo m (mapDord m j)

/-- The record checks of R95 on a wharf's kind, and the check of R72 after them. -/
def State.mapFault (s : State) (core : Bool) (m : BitVec 512) : Option Cause :=
  let nb := 2 ^ mapNbl m
  let cells := (List.range 4).foldl (fun n j => n * mapExt m j) 1
  let d := s.ringDesc (mapRing m)
  let common := (List.range 4).any (fun k => mapHi m k ≤ mapLo m k) ||
    !(List.range 4).all (fun v => (List.range 4).any (fun j => mapDord m j == v)) || fld m 64 116 != 0 ||
    (if core then decide (1 < mapKind m) else mapKind m != 2)
  if common then some .fieldRange
  else if mapKind m = 0 then
    let rows := ceilDiv (4 * cells) (128 * mapRowu m)
    if 64 < mapFb m + nb || mapRowu m = 0 || mapRowu m % 2 ^ mapSwz m != 0 || mapOff m % 16 != 0 ||
        65536 < mapOff m + 16 * mapRowu m * ceilDiv rows nb then some .fieldRange
    else if s.nbank < mapFb m + nb then some .notMapped
    else none
  else if mapKind m = 1 then
    if mapExt m 0 * fmtWidth (ringFmt d) != 3072 || mapExt m 1 % 64 != 0 || !ringV d then some .fieldRange
    else if s.nbank < ringFb d + ringNb d then some .notMapped
    else none
  else none

/-- A header matches a map: its stream tag, and the whole box within the window (R96). -/
def mapMatches (m : BitVec 512) (p : Packet) : Bool :=
  mapStag m == p.stag.toNat &&
    (List.range 4).all (fun k => mapLo m k ≤ at4 p.c k && at4 p.c k + at4 p.n k ≤ mapHi m k)

/-- Target coordinates of R96. -/
def mapTarget (m : BitVec 512) (c : List Nat) : List Nat :=
  (List.range 4).map (fun j => at4 c (mapDord m j) - mapLo m (mapDord m j))

/-- The linear index of R96. -/
def mapIndex (m : BitVec 512) (u : List Nat) : Nat :=
  ((at4 u 3 * mapExt m 2 + at4 u 2) * mapExt m 1 + at4 u 1) * mapExt m 0 + at4 u 0

/-- The window tile of a ring target that an element enters (R99). -/
def mapTile (m : BitVec 512) (u : List Nat) : Nat :=
  (at4 u 3 * mapExt m 2 + at4 u 2) * (mapExt m 1 / 64) + at4 u 1 / 64

/-- The banks of the whole set of a map (R98). -/
def State.mapBanks (s : State) (m : BitVec 512) : List Nat :=
  match mapKind m with
  | 0 => (List.range (2 ^ mapNbl m)).map (fun i => mapFb m + i)
  | 1 => ringBanks (s.ringDesc (mapRing m))
  | _ => []

/-- The format of a map's destination. -/
def State.mapFmt (s : State) (x : MapSlot) : Nat :=
  match x.tensor with
  | some t => teFmt t.main.entry
  | none => s.bankFmt ((s.mapBanks x.map).headD 0)

/-- The bank and the bit within it of bit `k` of an element of `w` bits at a record of a core wharf; `d` is the descriptor of its ring
and `slot` the ring slot of its tile. -/
def bitOfMap (m : BitVec 512) (w : Nat) (d : Word64) (slot : Nat) (u : List Nat) (k : Nat) : Nat × Nat :=
  if mapKind m = 0 then regionBit (mapFb m) (mapNbl m) (mapOff m) (mapRowu m) (mapSwz m) (mapIndex m u * w + k)
  else
    let n := at4 u 0 * w + k
    let a := ringByte d slot (at4 u 1 % 64) (n / 8)
    (a / 65536, 8 * (a % 65536) + n % 8)

/-- The bank and the bit within it of bit `k` of an element, at a core wharf's map. -/
def State.mapBit (s : State) (x : MapSlot) (slot : Nat) (u : List Nat) (k : Nat) : Nat × Nat :=
  bitOfMap x.map (fmtWidth (s.mapFmt x)) (s.ringDesc (mapRing x.map)) slot u k

/-- The banks that a packet reaches at a map. -/
def State.reachedBanks (s : State) (x : MapSlot) (p : Packet) : List Nat :=
  if x.tensor.isSome then []
  else
    let w := fmtWidth (s.mapFmt x)
    ((List.range (boxSize p.n)).flatMap (fun j =>
      let u := mapTarget x.map (p.coord j)
      [(s.mapBit x 0 u 0).1, (s.mapBit x 0 u (w - 1)).1])).eraseDups

/-! Unlanded records (R104, R105). -/

/-- The reasons of R104 in the order of their codes. -/
inductive Unlanded where
  | noMatch | holdFull | ringFull | format | shape | world | tensor | pending | vacated
deriving DecidableEq, Repr

/-- An unlanded record (R104); `slot` is none for a drop without a bound map. -/
def unlandedRecord (p : Packet) (why : Unlanded) (cause : Nat) (slot : Option Nat) (waited time : Nat) : BitVec 256 :=
  let c := (List.range 4).foldl (fun r k => put r (160 + 24 * k) 24 (at4 p.c k)) (0 : BitVec 256)
  let a := put (put (put (put (put c 144 16 p.stag.toNat) 134 10 p.chip.toNat) 132 2 p.die.toNat) 126 6 p.stn.toNat) 124 2
    p.skind.toNat
  let b := put (put (put a 120 4 why.ctorIdx) 114 6 cause) 104 10 (slot.getD 0x3FF)
  put (put (put b 64 32 p.bytes) 32 32 (min waited (2 ^ 32 - 1))) 0 32 time

/-- A record offered to the core's unlanded queue (R105). -/
def State.logUnlanded (s : State) (r : BitVec 256) : State :=
  let ctl := s.csrOf 0x18
  if !ctl.getLsbD 62 then s
  else if 16 ≤ s.logs.unlanded.length then s.setCsr 0x18 (putBit ctl 63 true)
  else { s with logs := { s.logs with unlanded := s.logs.unlanded ++ [r] } }.post .unlandedLogDrain

/-- A record offered to a memory wharf's unlanded queue (R105). -/
def State.logMemUnlanded (s : State) (d : BitVec 2) (r : BitVec 256) : State :=
  let a := dieCfg d 0x10
  let ctl := s.cfgOf a
  let q := mget s.logs.memUnlanded [] d.toNat
  if !ctl.getLsbD 62 then s
  else if 16 ≤ q.length then s.setCfg a (putBit ctl 63 true)
  else { s with logs := { s.logs with memUnlanded := mset s.logs.memUnlanded [] d.toNat (q ++ [r]) } }.post .mwulogDrain
    { die := d }

/-- Ticks that a packet has spent in the hold. -/
def State.waited (s : State) (t : Transit) : Nat := if t.held then s.clk.toNat - t.taken else t.stayed

/-- A drop without a bound map is recorded at its wharf (R104). -/
def State.recordDrop (s : State) (w : WharfId) (t : Transit) (why : Unlanded) : State :=
  let r := unlandedRecord t.packet why 0 none (s.waited t) (s.clk.toNat % 2 ^ 32)
  match w with
  | .core => (s.count 12 1).logUnlanded r
  | .mem d => s.logMemUnlanded d r

/-- A refusal at a map is recorded at the core that installed it. -/
def State.recordRefusal (s : State) (w : WharfId) (t : Transit) (slot : Nat) (why : Unlanded) (cause : Nat) : State :=
  let x := s.mapSlot w slot
  if !x.own then s
  else
    let s1 := if w = .core then s.count 12 1 else s
    s1.logUnlanded (unlandedRecord t.packet why cause (some slot) (s.waited t) (s.clk.toNat % 2 ^ 32))

/-! Completion. -/

/-- A record enters cq (R305); one pushed by an operation of an earlier phase is kept by a cancellation (R179). -/
def State.pushCq (s : State) (v : Word64) (tag : Nat) (fresh : Bool) : State :=
  let r := (v, BitVec.ofNat 6 tag)
  { s with eng := { s.eng with cq := s.eng.cq ++ [r] }
           phase := { s.phase with cqNew := if fresh then s.phase.cqNew else s.phase.cqNew ++ [r] } }

/-- The tag of an operation completes, with its record where it pushes one (R305). -/
def State.complete (s : State) (tag : Nat) (record : Bool) (v : Word64) (fresh : Bool) : State :=
  let s1 := s.tagDone tag
  if record then s1.pushCq v tag fresh else s1

/-- The completion of a map operation, for the task that issued it: the bound one, or a parked one in its saved context. -/
def State.completeMap (s : State) (t : MapTag) (v : Word64) : State :=
  if s.isBound t.task then s.complete t.tag t.cq v t.fresh
  else
    let s1 := s.tagDoneOf t.task t.tag
    if t.cq then { s1 with disp := { s1.disp with parked := s1.disp.parked.map (fun p => if p.context.task.id == t.task then
        { p with context := { p.context with eng := { p.context.eng with cq := p.context.eng.cq ++ [(v, BitVec.ofNat 6 t.tag)] } } } else p) } }
    else s1

/-- A RETIRING slot whose bound packets are gone: its tensor is unpinned, it is FREE, and its tag is set (R106). -/
def State.freeSlot (s : State) (w : WharfId) (n : Nat) : State :=
  let x := s.mapSlot w n
  if x.st != 2 || x.bound != 0 then s
  else
    let s1 := match x.tensor with
      | some t => s.unbindTensor t
      | none => s
    let s2 := s1.setMapSlot w n .free
    match x.tag with
    | some t => if x.own then s2.completeMap t 0 else s2
    | none => s2

/-- A packet bound to a slot has performed its last byte there or has been refused there (R100). -/
def State.unbindPacket (s : State) (w : WharfId) (n : Nat) : State :=
  let x := s.mapSlot w n
  (s.setMapSlot w n { x with bound := x.bound - 1 }).freeSlot w n

/-- A packet of an engine operation of the modelled core. -/
def State.ownPacket (s : State) (p : Packet) : Bool := p.skind == 0 && p.chip == s.chip && p.die == s.die && p.stn == s.core

/-- A packet of an operation that was issued before the current phase, or of another sender (R179). -/
def State.oldPacket (s : State) (p : Packet) : Bool :=
  !s.ownPacket p || s.eng.ops.any (fun o => o.id == p.opid && !o.fresh)

/-- A packet receives its answer (R92). -/
def State.answerPacket (s : State) (p : Packet) (discarded : Bool) : State :=
  if s.ownPacket p then
    s.post .packetAnswer { n := p.opid, flag := discarded, w := w64 s.core.toNat }
  else s.emit (.answer p.chip p.die p.stn p.opid discarded)

/-- Two packets are of one operation of one sender. -/
def Packet.sameOp (p q : Packet) : Bool := p.chip == q.chip && p.die == q.die && p.stn == q.stn && p.opid == q.opid

/-- The last packet of a sender's operation is answered: its events are forgotten, or, where others of its packets are still here, with the
answer of the oldest of those (R67). -/
def State.forgetEvents (s : State) (w : WharfId) (t : Transit) : State :=
  let p := t.packet
  let x := s.wharf w
  if !t.last then s
  else match x.transit.findIdx? (fun u => u.packet.sameOp p) with
    | some i => s.setWharf w { x with transit := x.transit.modify i (fun u => { u with last := true }) }
    | none => s.setWharf w { x with logged := x.logged.filter (fun l => !(l.chip == p.chip && l.die == p.die && l.stn == p.stn && l.opid == p.opid)) }

/-! Barrier objects (R108). -/

/-- A credit to barrier object `n` (R100, R108). -/
def State.credit (s : State) (n bytes stag : Nat) : State :=
  let x := s.csrOf (0xA0 + n)
  let c := s.csrOf (0xB0 + n)
  let armed := c.getLsbD 63
  let count := fld c 0 48 + bytes
  let done := armed && fld x 0 48 ≤ count
  let s1 := s.setCsr (0xB0 + n) (putBit (put c 0 48 count) 63 (armed && !done))
  let s2 := if done then s1.tagDone (fld x 48 6) else s1
  if !armed || fld x 0 48 < count then s2.async ⟨.barrierOvercount, .control, w64 (n + stag * 2 ^ 16), 0, none⟩ else s2

/-! Binding (R97, R98) and the hold (R101). -/

/-- Free bytes of a wharf's hold. -/
def State.holdFree (s : State) (w : WharfId) : Nat :=
  65536 - (((s.wharf w).transit.filter (fun t => t.held)).map (fun t => t.packet.heldBytes)).sum

/-- The hold time that a packet binds at its entry (R102). -/
def State.holdTime (s : State) (w : WharfId) : Nat :=
  match w with
  | .core => fld (s.csrOf 0x16) 0 23
  | .mem d => fld (s.cfgOf (dieCfg d 8)) 0 23

/-- A packet enters the hold, or finds it without room (R101). -/
def State.enterHold (s : State) (w : WharfId) (t : Transit) : Option Transit :=
  if t.held then some t
  else if s.holdFree w < t.packet.heldBytes then none
  else some { t with held := true, expiry := t.taken + s.holdTime w }

/-- The checks of orders 1 and 2 of R98. -/
def State.bindRefusal (s : State) (x : MapSlot) (p : Packet) : Option Unlanded :=
  let f := s.mapFmt x
  let banks := s.mapBanks x.map
  let w := fmtWidth f
  let us := (List.range (boxSize p.n)).map (fun j => mapTarget x.map (p.coord j))
  if conversionForbidden p.wfmt.toNat f || banks.any (fun b => s.bankFmt b != f || !s.bankConsistent b) then some .format
  else if mapKind x.map = 1 && 1 < (us.map (mapTile x.map)).eraseDups.length then some .shape
  else if mapKind x.map = 0 && us.any (fun u => (List.range w).any (fun k => 524288 ≤ (s.mapBit x 0 u k).2)) then some .shape
  else none

/-- The window tile of a packet at a ring target. -/
def packetTile (m : BitVec 512) (p : Packet) : Nat := mapTile m (mapTarget m (p.coord 0))

/-- A write of BANKFMT that waits covers a bank of the map's whole set: its headers wait (R64). Order 3 of R98 names the banks that the
packet reaches; the model holds for the wider set of R64 (log entry 72). -/
def State.mapHeld (s : State) (w : WharfId) (n : Nat) : Bool := (s.mapBanks (s.mapSlot w n).map).any s.formatHeld

/-- What a packet waits for at a slot whose formats are settled (order 4 of R98), with the ring slot of its tile; a tile without a slot
takes one here (R79, R99). -/
def State.bindPlace (s : State) (w : WharfId) (n : Nat) (p : Packet) : HoldWait × Nat × State :=
  let x := s.mapSlot w n
  if mapKind x.map = 1 then
    let k := packetTile x.map p
    match mget x.tiles none k with
    | some j => (.no, j, s)
    | none => match s.reserveSlot (mapRing x.map) with
      | none => (.ring, 0, s)
      | some (j, s1) =>
        let s2 := if s.oldPacket p then { s1 with phase := { s1.phase with slotsNew := (256 * mapRing x.map + j) :: s1.phase.slotsNew } } else s1
        (.no, j, s2.setMapSlot w n { x with tiles := mset x.tiles none k (some j) })
  else (.no, 0, s)

/-- What a packet waits for at a slot (orders 3 and 4 of R98). -/
def State.bindWaits (s : State) (w : WharfId) (n : Nat) (p : Packet) : HoldWait × Nat × State :=
  if s.mapHeld w n then (.format, 0, s) else s.bindPlace w n p

/-- A packet is refused at a slot (R98, R104); ring full also raises RING_OVERRUN (R80). -/
def State.refuseAt (s : State) (w : WharfId) (t : Transit) (n : Nat) (why : Unlanded) (cause : Nat) : State :=
  let x := s.mapSlot w n
  let s1 := s.recordRefusal w t n why cause
  let s2 := if why = .ringFull then
      s1.async ⟨.ringOverrun, sideSeq x.side, w64 (mapRing x.map + t.packet.stag.toNat * 2 ^ 16), 0, none⟩ else s1
  s2.unbindPacket w n

/-- A packet binds slot `n`: refused, waiting, or about to land. -/
def State.bindAt (s : State) (w : WharfId) (t : Transit) (n : Nat) : State × Transit :=
  match s.bindRefusal (s.mapSlot w n) t.packet with
  | some why => (s.refuseAt w t n why 0, t)
  | none =>
    match s.bindWaits w n t.packet with
    | (.no, j, s1) => (s1.postOnce .packetBeat { wharf := w }, { t with binds := t.binds ++ [⟨n, .no, j⟩] })
    | (why, _, s1) => match s1.enterHold w t with
      | some t1 => (s1, { t1 with binds := t1.binds ++ [⟨n, why, 0⟩] })
      | none => (s1.refuseAt w t n .holdFull 0, t)

/-- It is in the hold that a packet waits for this. -/
def HoldWait.inHold (h : HoldWait) : Bool := h == .format || h == .ring

/-- A packet leaves the hold when it waits for nothing, and is answered when it has neither a bound map nor a place in
the hold: none (R92, R102). -/
def State.settleTransit (s : State) (w : WharfId) (t : Transit) : State × Option Transit :=
  if t.unbound then (s, some t)
  else if t.binds.isEmpty then ((s.answerPacket t.packet (!t.landed)).forgetEvents w t, none)
  else
    let held := t.binds.any (fun b => b.waits.inHold) && t.held
    (s, some { t with held := held, stayed := if held then 0 else s.waited t })

/-- A packet is dropped (R92, R104). -/
def State.dropPacket (s : State) (w : WharfId) (t : Transit) (why : Unlanded) : State × Option Transit :=
  (((s.recordDrop w t why).answerPacket t.packet true).forgetEvents w t, none)

/-- Matching and binding of a header by the maps in force (R97, R101). -/
def State.matchPacket (s : State) (w : WharfId) (t : Transit) : State × Option Transit :=
  let p := t.packet
  let live := (List.range (wharfSlots w)).filter (fun n => (s.mapSlot w n).st == 1 && mapMatches (s.mapSlot w n).map p)
  let m := if w = .core then live else live.filter (fun n => (s.mapSlot w n).secure == p.world)
  if (if w = .core then p.world != s.taskSecure else m.isEmpty && !live.isEmpty) then s.dropPacket w t .world
  else
    let ex := m.filter (fun n => !mapReplicate (s.mapSlot w n).map)
    let b := m.filter (fun n => mapReplicate (s.mapSlot w n).map || some n == ex.head?)
    if b.isEmpty then
      match s.enterHold w t with
      | some t1 => (s, some { t1 with unbound := true })
      | none => s.dropPacket w t .holdFull
    else
      let s1 := ex.tail.foldl (fun s n => s.setMapSlot w n { s.mapSlot w n with shadow := (s.mapSlot w n).shadow + 1 }) s
      let s2 := b.foldl (fun s n => s.setMapSlot w n { s.mapSlot w n with bound := (s.mapSlot w n).bound + 1 }) s1
      let (s3, t1) := b.foldl (fun (x : State × Transit) n => x.1.bindAt w x.2 n) (s2, { t with unbound := false })
      s3.settleTransit w t1

/-- The state with packet `i` of a wharf processed outside the list and put back. -/
def State.withTransit (s : State) (w : WharfId) (i : Nat) (f : State → Transit → State × Option Transit) : State :=
  match (s.wharf w).transit[i]? with
  | none => s
  | some t =>
    let s1 := s.setWharf w { s.wharf w with transit := (s.wharf w).transit.eraseIdx i }
    match f s1 t with
    | (s2, none) => s2
    | (s2, some t1) => s2.setWharf w { s2.wharf w with transit := (s2.wharf w).transit.insertIdx i t1 }

/-- Packets of a wharf processed oldest first, from packet `i` on, `n` at most. -/
def State.eachTransit (w : WharfId) (f : State → Transit → State × Option Transit) : Nat → Nat → State → State
  | 0, _, s => s
  | n + 1, i, s =>
    let s1 := s.withTransit w i f
    State.eachTransit w f n (if (s1.wharf w).transit.length < (s.wharf w).transit.length then i else i + 1) s1

/-- Every packet of a wharf processed, oldest first. -/
def State.allTransits (s : State) (w : WharfId) (f : State → Transit → State × Option Transit) : State :=
  State.eachTransit w f (s.wharf w).transit.length 0 s

/-- A header is taken into matching (R97). At a core wharf without a bound task, whose world the spec does not give, the model compares
with the non-secure world, and the packet finds no map and waits in the hold: the model's choice (log entry 72). -/
def State.takeHeader (s : State) (w : WharfId) (p : Packet) : State :=
  match s.matchPacket w ⟨p, s.clk.toNat, 0, false, [], false, 0, false, p.lastp⟩ with
  | (s1, none) => s1
  | (s1, some t) => s1.setWharf w { s1.wharf w with transit := (s1.wharf w).transit ++ [t] }

/-! Landing (R99, R100). -/

/-- Events of a landing, each block at most once for an operation and map (R67): place, tile and event. -/
def State.logLanding (s : State) (w : WharfId) (n : Nat) (p : Packet) (evs : List (Nat × Nat × BlockEvent)) : State :=
  evs.foldl (fun s (place, tile, e) =>
    let l : Logged := ⟨p.chip, p.die, p.stn, p.opid, n, if w = .core then place else tile, e.block⟩
    if (s.wharf w).logged.contains l || !(s.mapSlot w n).own then s
    else (s.setWharf w { s.wharf w with logged := l :: (s.wharf w).logged }).logEvent p.stag.toNat
      (if w = .core then 0 else 1) place tile e) s

/-- A landing entered in a refetch list: the operation at its place in go order, and the map that its packet bound. -/
def Refetch.note (r : Refetch) (o : EngOp) (m : BitVec 512) (slot : List (List Nat × Word64 × Nat)) : Refetch :=
  let maps := ((r.ops.find? (fun x => x.id == o.id)).map (fun x => x.maps)).getD []
  let maps1 := if maps.any (fun x => x.map == m) then maps.map (fun x => if x.map = m then { x with slots := x.slots ++ slot } else x)
    else maps ++ [⟨m, slot⟩]
  let ops := r.ops.filter (fun x => decide (x.id < o.id)) ++ [⟨o.id, o.img, maps1⟩] ++ r.ops.filter (fun x => decide (o.id < x.id))
  ⟨r.complete && ops.length ≤ 8 && maps1.length ≤ 2, ops⟩

/-- An arrival or a gather of the core lands in banks by a map: it enters the refetch list of a back half that it reaches,
in place of the mark that another agent's write leaves; at most 8 operations with at most 2 maps each (R359). -/
def State.noteLanding (s : State) (before : SMap Refetch) (p : Packet) (m : BitVec 512) (slot : Nat) (banks : List Nat) : State :=
  match s.eng.ops.find? (fun o => s.ownPacket p && o.id == p.opid && (fld o.img 0 6 == 1 || fld o.img 0 6 == 2)) with
  | none => s
  | some o =>
    let place := if mapKind m = 1 then [(p.c, s.ringDesc (mapRing m), slot)] else []
    let table := (banks.filterMap s.backHalf).eraseDups.foldl (fun (t : SMap Refetch) n =>
      mset t ⟨true, []⟩ n ((mget before ⟨true, []⟩ n).note o m place)) before
    { s with eng := { s.eng with refetch := table } }

/-- A packet lands in the banks of a core wharf's map: the state and its events. -/
def State.landBanks (s : State) (x : MapSlot) (slot : Nat) (p : Packet) : State × List (Nat × Nat × BlockEvent) :=
  let f := s.mapFmt x
  let w := fmtWidth f
  let at_ (j k : Nat) : Nat × Nat := s.mapBit x slot (mapTarget x.map (p.coord j)) k
  let enc := encodePieces p.wfmt.toNat f p.rm.toNat p.satd (bankBlockSize w) ((List.range (boxSize p.n)).map (fun j =>
    let k := bankBlock w (at_ j 0)
    p.piece j k.1 k.2))
  let ps := enc.elems.flatMap (fun (q, c) => placesOf (at_ q.tag) w 0 c.code c.poison)
  let all := ps ++ s.blockPlaces enc w
  ((s.storePlaces all).noteLanding s.eng.refetch p x.map slot (all.map (fun q => q.bit / 524288)).eraseDups,
    (enc.events (fun q => (q.key, q.pos))).map (fun e => (e.block / 2 ^ 20, 0, { e with block := e.block % 2 ^ 20 })))

/-- A packet of an operation that a cancellation has discarded: it lands, but the tile is the rerun's to fill (R179, R358). -/
def State.orphan (s : State) (p : Packet) : Bool := s.ownPacket p && !s.eng.ops.any (fun o => o.id == p.opid)

/-- Bits of a window tile have landed (R79, R99): a whole tile is ready, and its place in the window is open again. -/
def State.landTile (s : State) (w : WharfId) (n k slot bits : Nat) (old : Bool) : State :=
  let x := s.mapSlot w n
  let key := 256 * mapRing x.map + slot
  let got := mget s.scr.landed 0 key + bits
  let s0 := s.setLanded (mapRing x.map) slot (min got tileBits)
  let s1 := if old then { s0 with phase := { s0.phase with landedNew := mset s0.phase.landedNew 0 key (mget s0.phase.landedNew 0 key + bits) } } else s0
  if tileBits ≤ got then
    (if mget x.tiles none k = some slot then s1.setMapSlot w n { x with tiles := mset x.tiles none k none } else s1).postOnce .mmaKStep
  else s1

/-- Where the elements of a packet land in the tensor of a map (R96, R99). -/
def landPlace (m : BitVec 512) (p : Packet) (j : Nat) : List Nat := (List.range 4).map (fun k => at4 (mapTarget m (p.coord j)) k + mapTo m k)

/-- The last byte of a packet has been performed at a map (R100). -/
def State.credited (s : State) (w : WharfId) (p : Packet) (n : Nat) : State :=
  let x := s.mapSlot w n
  let s1 := if mapBoen x.map && x.own then s.credit (mapBo x.map) p.bytes p.stag.toNat else s
  (if w = .core then s1.count 11 p.bytes else s1).unbindPacket w n

/-- The next landing in a tensor begins: elements of it that leave the package name its number (log entry 2). -/
def State.newLanding (s : State) : State := { s with pkg := { s.pkg with landings := s.pkg.landings + 1 } }

/-- Elements of a landing are on their way to homes outside the package. -/
def State.landingOpen (s : State) (n : Nat) : Bool := s.pkg.fabric.any (fun f => f.what == .element n)

/-- The landing of a packet at a bound map: its bytes are performed there, or refused (R99, R100); where elements have left for homes
outside the package, it has landed when those have answered. -/
def State.landAt (s : State) (w : WharfId) (t : Transit) (b : Bind) : State × Transit :=
  let n := b.slot
  let x := s.mapSlot w n
  let p := t.packet
  let t1 := { t with binds := t.binds.filter (fun b => b.slot != n) }
  let logged (evs : List (Nat × BlockEvent)) : List (Nat × Nat × BlockEvent) :=
    (tiledEvents (firstEvents evs)).map (fun (tile, e) => (0, tile, e))
  match x.tensor with
  | some ten =>
    match s.newLanding.landTensor ten .write p p.rm.toNat p.satd (landPlace x.map p) with
    | (s1, some f, evs) =>
      ((s1.logLanding w n p (logged evs)).refuseAt w t n .tensor f.cause.code.toNat, t1)
    | (s1, none, evs) =>
      let s2 := s1.logLanding w n p (logged evs)
      if s2.landingOpen s2.pkg.landings then (s2, { t1 with binds := t1.binds ++ [⟨n, .home, s2.pkg.landings⟩] })
      else (s2.credited w p n, { t1 with landed := true })
  | none =>
    let (s1, evs) := s.landBanks x b.place p
    let s2 := s1.logLanding w n p evs
    let s3 := if mapKind x.map = 1 && !s.orphan p then
        s2.landTile w n (packetTile x.map p) b.place (boxSize p.n * fmtWidth (s.mapFmt x)) (s.oldPacket p) else s2
    (s3.credited w p n, { t1 with landed := true })

/-- The homes of a landing's elements have all answered, or one has refused with a cause (R25, R99, R100). -/
def State.landingDone (s : State) (land : Nat) (refusal : Option Cause) : State :=
  let one (w : WharfId) (s : State) (t : Transit) : State × Option Transit :=
    match t.binds.find? (fun b => b.waits == .home && b.place == land) with
    | none => (s, some t)
    | some b =>
      let t1 := { t with binds := t.binds.filter (fun x => x.slot != b.slot) }
      match refusal with
      | some c => (s.refuseAt w t b.slot .tensor c.code.toNat).settleTransit w t1
      | none =>
        if s.landingOpen land then (s, some t)
        else (s.credited w t.packet b.slot).settleTransit w { t1 with landed := true }
  [WharfId.core, .mem 0, .mem 1, .mem 2, .mem 3].foldl (fun s w => s.allTransits w (one w)) s

/-- Waiting packets of a wharf try their maps again (R98). One that waited for a bank's format is judged anew by the format then in force,
since it counts as an operation in flight only from that cycle (R64); one that waits for a ring slot stays in flight (log entry 72). -/
def State.retryBinds (s : State) (w : WharfId) (t : Transit) : State × Transit :=
  t.binds.foldl (fun (x : State × Transit) b =>
    let stays (s : State) (b : Bind) : State × Transit := (s, { x.2 with binds := x.2.binds ++ [b] })
    let place : State × Transit := let (why, j, s1) := x.1.bindPlace w b.slot t.packet; stays s1 ⟨b.slot, why, j⟩
    match b.waits with
    | .no => stays x.1 b
    | .home => stays x.1 b
    | .ring => place
    | .format =>
      if x.1.mapHeld w b.slot then stays x.1 b
      else match x.1.bindRefusal (x.1.mapSlot w b.slot) t.packet with
        | some why => (x.1.refuseAt w t b.slot why 0, x.2)
        | none => place) (s, { t with binds := [] })

/-- A packet may land at a map that it has bound: it waits for nothing, and the homes of its elements admit it (R98, R393, R394). -/
def State.mayLand (s : State) (w : WharfId) (p : Packet) (b : Bind) : Bool :=
  let x := s.mapSlot w b.slot
  b.waits == .no && !(s.changing && x.tensor.any (fun t =>
    s.tilesBarred t .write ((List.range (boxSize p.n)).map (fun j => coordOf (landPlace x.map p j)))))

/-- The packets of every wharf are looked at again. -/
def State.kickWharves (s : State) : State :=
  [WharfId.core, .mem 0, .mem 1, .mem 2, .mem 3].foldl (fun (s : State) w => s.postOnce .packetBeat { wharf := w }) s

/-- One packet lands at one map: the oldest that can (R99). -/
def State.landNext (s : State) (w : WharfId) : State :=
  let s1 := s.allTransits w (fun s t => let (s1, t1) := s.retryBinds w t; s1.settleTransit w t1)
  let ready (s : State) (t : Transit) : Bool := t.binds.any (s.mayLand w t.packet)
  match (s1.wharf w).transit.findIdx? (ready s1) with
  | none => s1
  | some i =>
    let s2 := s1.withTransit w i (fun s t =>
      match t.binds.find? (s.mayLand w t.packet) with
      | none => (s, some t)
      | some b => let (s1, t1) := s.landAt w t b; s1.settleTransit w t1)
    let s3 := if s2.scr.fmtPend.isEmpty then s2 else s2.postOnce .bankfmtEffect
    if (s3.wharf w).transit.any (ready s3) then s3.postOnce .packetBeat { wharf := w } else s3

/-- Hold times that have ended (R102). -/
def State.expireHold (s : State) (w : WharfId) : State :=
  let late (s : State) (t : Transit) : Bool := t.held && t.expiry ≤ s.clk.toNat
  let one (s : State) (t : Transit) : State × Option Transit :=
    if !late s t then (s, some t)
    else if t.unbound then s.dropPacket w t .noMatch
    else
      let s1 := t.binds.foldl (fun s b => match b.waits with
        | .no => s
        | .home => s
        | .format => s.refuseAt w t b.slot .pending 0
        | .ring => s.refuseAt w t b.slot .ringFull 0) s
      s1.settleTransit w { t with binds := t.binds.filter (fun b => !b.waits.inHold) }
  s.allTransits w one

/-- A packet in the hold of a wharf has reached the end of its hold time. -/
def State.holdDue (s : State) (w : WharfId) : Bool :=
  (s.wharf w).transit.any (fun t => t.held && t.expiry ≤ s.clk.toNat)

/-! Map operations (R106). -/

/-- The value that a query reads (R315). -/
def queryValue (x : MapSlot) : Word64 :=
  put (put (put (0 : Word64) 32 32 (min x.shadow (2 ^ 32 - 1))) 8 24 x.bound) 0 2 x.st

/-- A slot made LIVE with the record of an operation. -/
def State.installMap (s : State) (w : WharfId) (n : Nat) (o : MapOp) : State :=
  s.setMapSlot w n { MapSlot.free with st := 1, map := o.map, secure := o.secure, asid := o.asid, own := o.own, task := o.task
                                       side := o.side
                                       tensor := o.tensor }

/-- A slot made RETIRING with the tag of an operation; FREE at once when no packet is bound (R106). -/
def State.retireMap (s : State) (w : WharfId) (n : Nat) (tag : Option MapTag) : State :=
  (s.setMapSlot w n { s.mapSlot w n with st := 2, tag := tag }).freeSlot w n

/-- An operation takes effect at its boundary. -/
def State.applyMapOp (s : State) (w : WharfId) (o : MapOp) : State :=
  let done (s : State) (v : Word64) : State := match o.tag with
    | some t => s.completeMap t v
    | none => s
  match o.kind with
  | 8 => done (s.installMap w o.slot o) 0
  | 9 => (s.retireMap w o.slot o.tag).installMap w o.slot2 o
  | 10 => s.retireMap w o.slot o.tag
  | _ => done s (queryValue (s.mapSlot w o.slot))

/-- The boundary at which the operations that wait take effect in issue order; where a map becomes LIVE, unbound packets
of the hold are matched again, oldest first (R103, R106). -/
def State.mapBoundary (s : State) (w : WharfId) : State :=
  let ops := (s.wharf w).ops
  let s1 := ops.foldl (fun s o => s.applyMapOp w o) (s.setWharf w { s.wharf w with ops := [] })
  if ops.any (fun o => o.kind == 8 || o.kind == 9) then
    s1.allTransits w (fun s t => if t.unbound then s.matchPacket w t else (s, some t))
  else s1

/-- The state of a slot counting the operations already issued to it (R315). -/
def State.plannedSlot (s : State) (w : WharfId) (n : Nat) : Nat :=
  (s.wharf w).ops.foldl (fun st o =>
    if (o.kind = 8 && o.slot = n) || (o.kind = 9 && o.slot2 = n) then 1
    else if (o.kind = 9 || o.kind = 10) && o.slot = n then 2 else st) (s.mapSlot w n).st

/-- A map operation of a side of the bound task is on its way to its completion. -/
def State.mapBusy (s : State) (side : Side) : Bool :=
  let mine (t : Option MapTag) : Bool := t.any (fun t => t.task == s.task.id)
  s.wharves.any (fun w => w.2.ops.any (fun o => mine o.tag && o.side == side) ||
    w.2.slots.any (fun x => x.2.st == 2 && x.2.side == side && mine x.2.tag))

/-! Vacating (R107). -/

/-- Packets bound at the core wharf. -/
def State.boundPackets (s : State) : Bool := (s.wharf .core).transit.any (fun t => !t.binds.isEmpty)

/-- Unbound packets of the core wharf's hold are dropped with reason VACATED (R107). -/
def State.emptyHold (s : State) : State :=
  s.allTransits .core (fun s t => if t.unbound then s.dropPacket .core t .vacated else (s, some t))

/-- The LIVE memory-wharf slots that meet a condition are retired with no tag (R106). -/
def State.retireWhere (s : State) (p : MapSlot → Bool) : State :=
  [0, 1, 2, 3].foldl (fun s d =>
    let w := WharfId.mem (BitVec.ofNat 2 d)
    ((s.wharf w).slots.filter (fun x => x.2.st == 1 && p x.2)).foldl (fun s x => s.retireMap w x.1 none) s) s

/-- Memory-wharf slots that a task of the core installed are retired with no tag (R107). -/
def State.retireOwn (s : State) (task : Nat) : State := s.retireWhere (fun m => m.own && m.task == task)

end Sys2Proof.Machine
end

