-- ==== Sys2Proof/Machine/Copy.lean ====
section
/-! DEFINITION. Copies (R309 to R313): the fields of a copy template, its box and its packets, the elements that each kind
reads, and the checks of a go. -/
namespace Sys2Proof.Machine

/-! Fields of an engine template (R198, R308, R309). -/

def opKind (t : BitVec 512) : Nat := fld t 0 6
/-- Copy kinds, which pack their fields. -/
def kindCopy (k : Nat) : Bool := 1 ≤ k && k ≤ 6
/-- Map kinds and ring.init. -/
def kindMap (k : Nat) : Bool := 8 ≤ k && k ≤ 12
/-- Collective kinds. -/
def kindColl (k : Nat) : Bool := 16 ≤ k && k ≤ 20
/-- CTL. -/
def opCtl (t : BitVec 512) : BitVec 16 := BitVec.ofNat 16 (fld t (if kindCopy (opKind t) then 8 else 32) 16)
def ctlTag (c : BitVec 16) : Nat := fld c 0 6
def ctlRm (c : BitVec 16) : BitVec 2 := BitVec.ofNat 2 (fld c 6 2)
def ctlSatd (c : BitVec 16) : Bool := c.getLsbD 8
def ctlCq (c : BitVec 16) : Bool := c.getLsbD 9
def ctlOp (c : BitVec 16) : Nat := fld c 10 3
def ctlStat (c : BitVec 16) : Bool := c.getLsbD 13
def ctlVrec (c : BitVec 16) : Bool := c.getLsbD 14
def ctlVchk (c : BitVec 16) : Bool := c.getLsbD 15
def cpStag (t : BitVec 512) : BitVec 16 := BitVec.ofNat 16 (fld t 24 16)
def cpHandle (t : BitVec 512) : Word32 := BitVec.ofNat 32 (fld t 40 32)
/-- The origin of the box, dimension 0 first. -/
def cpC (t : BitVec 512) : List Nat := (List.range 4).map (fun k => fld t (72 + 24 * k) 24)
/-- The extents of the box. -/
def cpX (t : BitVec 512) : List Nat := (List.range 4).map (fun k => fld t (168 + 24 * k) 24)
/-- The packet extents. -/
def cpP (t : BitVec 512) : List Nat := (List.range 4).map (fun k => fld t (264 + 13 * k) 13)
def cpWfmt (t : BitVec 512) : Nat := fld t 316 5
def cpDst (t : BitVec 512) : BitVec 19 := BitVec.ofNat 19 (fld t 321 19)
/-- The multicast mask. -/
def cpMask (t : BitVec 512) : Word64 := w64 (fld t 340 64)
def cpSwz (t : BitVec 512) : Nat := fld t 429 3
def cpNbl (t : BitVec 512) : Nat := fld t 426 3
def cpFb (t : BitVec 512) : Nat := fld t 420 6
def cpOff (t : BitVec 512) : Nat := fld t 404 16
def cpSrowu (t : BitVec 512) : Nat := fld t 432 12
def cpVal (t : BitVec 512) : Word32 := BitVec.ofNat 32 (fld t 444 32)
def cpIdx (t : BitVec 512) : Nat := fld t 476 22

/-- The tag of an operation. -/
def opTag (t : BitVec 512) : Nat := ctlTag (opCtl t)
/-- An operation pushes a record to cq: CQ = 1, or map.query (R305). -/
def opPushes (t : BitVec 512) : Bool := ctlCq (opCtl t) || opKind t == 11

/-! The box and its packets (R310). -/

/-- Packets along dimension `k`. -/
def cpGrid (t : BitVec 512) (k : Nat) : Nat := ceilDiv (at4 (cpX t) k) (at4 (cpP t) k)
/-- The packets of a copy. -/
def cpCount (t : BitVec 512) : Nat := cpGrid t 0 * cpGrid t 1 * cpGrid t 2 * cpGrid t 3
/-- The place of packet `j` in the grid, dimension 0 fastest. -/
def cpIndex (t : BitVec 512) (j : Nat) : List Nat := boxPlace ((List.range 4).map (cpGrid t)) j
/-- The origin of packet `j`, relative to the box. -/
def cpOrigin (t : BitVec 512) (j : Nat) : List Nat := List.zipWith (· * ·) (cpIndex t j) (cpP t)
/-- The extents of packet `j`. -/
def cpExtent (t : BitVec 512) (j : Nat) : List Nat :=
  (List.range 4).map (fun k => min (at4 (cpP t) k) (at4 (cpX t) k - at4 (cpOrigin t j) k))

/-- The banks of the source region, or of the gather's index list. -/
def cpBanks (t : BitVec 512) : List Nat :=
  match opKind t with
  | 2 => [cpIdx t / 65536]
  | 3 => (List.range (2 ^ cpNbl t)).map (fun i => cpFb t + i)
  | 4 => (List.range (2 ^ cpNbl t)).map (fun i => cpFb t + i)
  | 5 => (List.range (2 ^ cpNbl t)).map (fun i => cpFb t + i)
  | _ => []

/-- An element as it leaves its source: code, scale code, poison, and the block and position there. -/
structure Sourced where
  code : Nat
  scale : Nat
  poison : Bool
  blk : Nat
  pos : Nat
deriving DecidableEq, Repr

/-- The state with the element of a source region at a place of the box (R311). -/
def State.regionElem (s : State) (t : BitVec 512) (u : List Nat) : Sourced :=
  let x := cpX t
  let w := s.bankWidth (cpFb t)
  let i := ((at4 u 3 * at4 x 2 + at4 u 2) * at4 x 1 + at4 u 1) * at4 x 0 + at4 u 0
  let at_ (k : Nat) : Nat × Nat := regionBit (cpFb t) (cpNbl t) (cpOff t) (cpSrowu t) (cpSwz t) (i * w + k)
  let b := at_ 0
  let bit (k len : Nat) : Nat × Bool := let (n, y) := at_ k; s.scrBits (524288 * n + y) len
  let (c, p) := if w = 6 then
      (List.range 6).foldr (fun k (a : Nat × Bool) => let (v, q) := bit k 1; (2 * a.1 + v, a.2 || q)) (0, false)
    else bit 0 w
  let blk := b.2 / w / 32
  if fmtBlock (s.bankFmt b.1) then
    let (x, q) := s.elemScale b.1 blk
    ⟨c, x, p || q, 2 ^ 20 * b.1 + blk, b.2 / w % 32⟩
  else ⟨c, 0, p, 2 ^ 20 * b.1 + blk, b.2 / w % 32⟩

/-- One element of a tensor with its scale (R35); `counted` says that the request is the core's (log entry 66). -/
def State.tensorElem (s : State) (counted : Bool) (t : Tensor) (c : Coord) : Except TensorFault (State × Sourced) :=
  match boundsFault t.main.entry c with
  | some f => .error f
  | none => match s.readElem counted t t.main c with
    | .error f => .error f
    | .ok (s1, v, p) =>
      let e := t.main.entry
      let blk := ((coord c 3 * extOf e 2 + coord c 2) * extOf e 1 + coord c 1) * ceilDiv (extOf e 0) 32 + coord c 0 / 32
      match t.scale with
      | none => .ok (s1, ⟨v, 0, p, blk, coord c 0 % 32⟩)
      | some x => match s1.readElem counted t x (scaleCoord c) with
        | .error f => .error f
        | .ok (s2, sc, q) => .ok (s2, ⟨v, sc, p || q, blk, coord c 0 % 32⟩)

/-- The row that entry `j` of a gather's list names (R311): POISON where the list is poisoned, with the entry's address
in FAULTADDR (log entry 36). -/
def State.gatherRow (s : State) (t : BitVec 512) (j : Nat) : Except TensorFault Nat :=
  let a := cpIdx t + 4 * j
  if s.scrPoison a then .error { cause := .poison, addr := a }
  else .ok (s.scrRead a 4)

/-- The coordinates in its tensor of element `u` of the box of a copy (R311). -/
def State.boxCoord (s : State) (t : BitVec 512) (u : List Nat) : Except TensorFault Coord :=
  if opKind t = 2 then
    match s.gatherRow t (at4 u 1) with
    | .error f => .error f
    | .ok r => .ok (at4 (cpC t) 0 + at4 u 0, r, at4 (cpC t) 2, at4 (cpC t) 3)
  else .ok (coordOf (List.zipWith (· + ·) (cpC t) u))

/-- The places in its box of the elements of packet `j`. -/
def packetPlaces (t : BitVec 512) (j : Nat) : List (List Nat) :=
  (List.range (boxSize (cpExtent t j))).map (fun i => List.zipWith (· + ·) (cpOrigin t j) (boxPlace (cpExtent t j) i))

/-- The elements of a packet, read in order (R311): a cause ends it (R313). -/
def State.readBox (s : State) (t : BitVec 512) (ten : Option Tensor) (j : Nat) : Except TensorFault (State × List Sourced) :=
  let us := packetPlaces t j
  match ten with
  | some x =>
    us.foldl (fun acc u => match acc with
      | .error f => .error f
      | .ok (s, l) => match s.boxCoord t u with
        | .error f => .error f
        | .ok c => match s.tensorElem true x c with
          | .error f => .error f
          | .ok (s1, e) => .ok (s1, l ++ [e])) (.ok (s, []))
  | none =>
    if opKind t = 6 then .ok (s, us.map (fun _ => ⟨(cpVal t).toNat, 0, false, 0, 0⟩))
    else .ok (s, us.map (s.regionElem t))

/-- The accesses to tiles outside the package that elements of a tensor need, up to the first cause, one for each tile of each of its
tensors (R37). -/
def State.outsideTiles (s : State) (t : Tensor) (cs : List Coord) : List Bound :=
  let one (c : Coord) : List (Nat × Bound) :=
    let at_ (x : TensorEntry) (c : Coord) : List (Nat × Bound) :=
      ((s.elemOutside t x .read c).map (fun b => (2 * (locate x.entry (fmtWidth (teFmt x.entry)) c).1 + (x.slot != t.main.slot).toNat, b))).toList
    at_ t.main c ++ (match t.scale with
      | some x => at_ x (scaleCoord c)
      | none => [])
  (cs.foldl (fun (l : List (Nat × Bound)) c => (one c).foldl (fun l x => if l.any (fun y => y.1 == x.1) then l else l ++ [x]) l) []).map
    (fun x => x.2)

/-- Those of packet `j` of a copy. -/
def State.packetOutside (s : State) (t : BitVec 512) (ten : Option Tensor) (j : Nat) : List Bound :=
  match ten with
  | none => []
  | some x => s.outsideTiles x ((packetPlaces t j).filterMap (fun u => (s.boxCoord t u).toOption))

/-- The homes of packet `j` of a copy do not admit its reads (R393, R394). -/
def State.packetBarred (s : State) (t : BitVec 512) (ten : Option Tensor) (j : Nat) : Bool :=
  s.changing && ten.any (fun x => s.tilesBarred x .read ((packetPlaces t j).filterMap (fun u => (s.boxCoord t u).toOption)))

/-- The format in which a copy reads its source; a fill's VAL is FP32 for float and block-scaled wire formats, else
INT32 (R309). -/
def State.sourceFmt (s : State) (t : BitVec 512) (ten : Option Tensor) : Nat :=
  match ten with
  | some x => teFmt x.main.entry
  | none => if opKind t = 6 then (if fmtInt (cpWfmt t) || 22 ≤ cpWfmt t then 21 else 0) else s.bankFmt (cpFb t)

/-- A packet's elements encoded into the wire format, whose blocks begin at its first element, with the events of the elements, each with
its position and its block (R65, R67, R310). -/
def encodeWire (src dst : Nat) (rm : BitVec 2) (satd : Bool) (l : List Sourced) :
    List Elem × List (BitVec 16) × List (Nat × BlockEvent) :=
  let size (key : Nat) : Nat := min 32 (l.length - 32 * key)
  let e := encodePieces src dst rm.toNat satd size
    (l.zipIdx.map (fun (x, j) => ⟨j / 32, j % 32, x.code, x.scale, x.poison, x.blk, x.pos, j⟩))
  (e.elems.map (fun c => ⟨BitVec.ofNat 32 c.2.code, c.2.poison⟩), e.scales.map (fun x => BitVec.ofNat 16 x.2.1),
    e.elems.filterMap (fun (q, c) => c.event.map (fun v => (q.pos, ⟨q.key, v⟩))))

/-- Packet `j` of a copy, with the first events of its wire blocks. -/
def State.packetOf (s : State) (t : BitVec 512) (ten : Option Tensor) (opid j : Nat) :
    Except TensorFault (State × Packet × List BlockEvent) :=
  match s.readBox t ten j with
  | .error f => .error f
  | .ok (s1, l) =>
    let c := opCtl t
    let (elems, scales, evs) := encodeWire (s.sourceFmt t ten) (cpWfmt t) (ctlRm c) (ctlSatd c) l
    .ok (s1, { c := List.zipWith (· + ·) (cpC t) (cpOrigin t j), n := cpExtent t j, wfmt := BitVec.ofNat 5 (cpWfmt t)
               rm := ctlRm c, satd := ctlSatd c, world := s.taskSecure, lastp := j + 1 == cpCount t, skind := 0, chip := s.chip
               die := s.die, stn := s.core, opid := opid, stag := cpStag t, elems := elems, scales := scales }, firstEvents evs)

/-! The checks of a go (R312). -/

/-- Order 2 of R312. -/
def copyRange (t : BitVec 512) : Bool :=
  let k := opKind t
  let x := cpX t
  let p := cpP t
  x.any (fun v => v == 0) || p.any (fun v => v == 0 || decide (4096 < v)) || 32768 < boxSize p * fmtWidth (cpWfmt t) ||
    2 ^ 27 < cpCount t || (k = 2 && (at4 x 2 != 1 || at4 x 3 != 1 || at4 p 1 != 1 || at4 p 2 != 1 || at4 p 3 != 1)) ||
    (k = 4 && cpMask t == 0) || (k = 5 && cpDst t != 0) || !fmtKnown (cpWfmt t)

/-- Orders 5 and 6 of R312 on the source region or the index list. -/
def State.copySource (s : State) (t : BitVec 512) (ten : Option Tensor) : Option Cause :=
  let k := opKind t
  let banks := cpBanks t
  let fault (range absent format : Bool) : Option Cause :=
    if range then some .fieldRange else if absent then some .notMapped else if format then some .formatMismatch else none
  let absent := banks.any (fun b => s.nbank ≤ b)
  let convert := conversionForbidden (s.sourceFmt t ten) (cpWfmt t)
  if k = 2 then
    fault (cpIdx t % 4 != 0 || 65536 < cpIdx t % 65536 + 4 * at4 (cpX t) 1) absent
      (s.bankFmt (cpIdx t / 65536) != 21 || !s.bankConsistent (cpIdx t / 65536) || convert)
  else if banks.isEmpty then fault false false (k != 6 && convert || k = 6 && fmtFixed (cpWfmt t))
  else
    let nb := 2 ^ cpNbl t
    let w := s.bankWidth (cpFb t)
    let rows := ceilDiv (boxSize (cpX t) * w) (128 * cpSrowu t)
    fault (cpSrowu t = 0 || cpOff t % 16 != 0 || cpSrowu t % 2 ^ cpSwz t != 0 || 64 < cpFb t + nb ||
        65536 < cpOff t + 16 * cpSrowu t * ceilDiv rows nb) absent
      (banks.any (fun b => s.bankFmt b != s.bankFmt (cpFb t) || !s.bankConsistent b) || convert)

/-- The range-checker entry of a copy: from the lowest to the highest granule of its region or its list (R83, R312). Of a region the units of
16 bytes, which a swizzle moves whole, are taken one by one (R99). -/
def State.copyRanges (s : State) (t : BitVec 512) : List Range :=
  match opKind t with
  | 2 => [⟨cpIdx t / 64, (cpIdx t + 4 * at4 (cpX t) 1 - 1) / 64, true, false⟩]
  | _ =>
    if (cpBanks t).isEmpty then []
    else
      let gs := (List.range (ceilDiv (boxSize (cpX t) * s.bankWidth (cpFb t)) 128)).map (fun u =>
        let (b, y) := regionBit (cpFb t) (cpNbl t) (cpOff t) (cpSrowu t) (cpSwz t) (128 * u)
        (65536 * b + y / 8) / 64)
      [⟨gs.foldl min (gs.headD 0), gs.foldl max 0, true, false⟩]

/-- The box of a copy in coordinates: its first and last element, which bound the whole box; a gather's dimension 1 is
checked at each row (R312). Of a box that leaves the extents, the first of the two that does so is reported: the model's choice (log
entry 68). -/
def copyNamed (t : BitVec 512) : List Coord :=
  let c := cpC t
  let last := List.zipWith (fun a x => a + x - 1) c (cpX t)
  if opKind t = 2 then [(at4 last 0, 0, at4 c 2, at4 c 3)] else [coordOf c, coordOf last]

/-- The 4 KiB blocks of checked tiles that hold bits of elements of a tensor or of its scale tensor, each with its tile and its number in the
tile (R146, R159, R312): a tile whose leaf gives a cause claims nothing, since the cause is raised when it is reached. -/
def State.entryBlocks (s : State) (t : Tensor) (x : TensorEntry) (k : AccessKind) (cs : List Coord) : List (Nat × Nat × Nat) :=
  let e := x.entry
  let w := fmtWidth (teFmt e)
  (cs.flatMap (fun c =>
    if (boundsFault e c).isSome then []
    else
      let (tile, bit) := locate e w c
      match s.tileLeaf t x tile k with
      | .error _ => []
      | .ok (s1, b) =>
        let one (n : Nat) : List (Nat × Nat × Nat) :=
          let here : Bound := { b with pa := b.pa + n * 4096 }
          if !s1.checked b || leafSeal b.leaf || (s1.target b.leaf = 0 && (s1.cellOf here.ver here.pa).isNone) then []
          else [(s1.granuleOf here / 64, tile, n)]
        one (bit / 8 / 4096) ++ one ((bit + w - 1) / 8 / 4096))).eraseDups

/-- Those of elements of a tensor and of their scales (R35). -/
def State.tensorBlocks (s : State) (t : Tensor) (k : AccessKind) (cs : List Coord) : List (Nat × Nat × Nat) :=
  s.entryBlocks t t.main k cs ++ (match t.scale with
    | none => []
    | some x => s.entryBlocks t x k (cs.map scaleCoord))

/-- The blocks of what a copy reads of its tensor, a gather by the rows of its list (R311). -/
def State.copyBlocks (s : State) (t : BitVec 512) (ten : Tensor) : List (Nat × Nat × Nat) :=
  s.tensorBlocks ten .read ((List.range (boxSize (cpX t))).map (fun i =>
    let u := boxPlace (cpX t) i
    let c := List.zipWith (· + ·) (cpC t) u
    if opKind t = 2 then (at4 c 0, s.scrRead (cpIdx t + 4 * at4 u 1) 4, at4 c 2, at4 c 3) else coordOf c))

/-- The block claims of an engine operation, all of them or none (R146, R148, R149): the cause with TVALUE and FAULTADDR, or
the state with the claims and the units that it reads. -/
def State.claimBlocks (s : State) (q : Seq) (handle : Word32) (bs : List (Nat × Nat × Nat)) :
    Except (Cause × Word64 × Nat) (State × List Nat) :=
  let held (u : Nat) : Bool := (s.ownClaims q).any (fun c => c.block && c.unit == u)
  let units := (bs.map (fun b => b.1)).eraseDups
  let fresh := units.filter (fun u => !held u)
  if 1024 < (s.ownClaims q).length + fresh.length then .error (.claimFull, 0, 0)
  else match bs.find? (fun b => !(s.conflicts q b.1 true false).isEmpty) with
    | some (u, tile, n) => .error (.race, raceTvalue (s.conflicts q u true false) false n handle.toNat, tile)
    | none => .ok (s.setClaims (fresh.map (fun u => ⟨u, true, false, s.chip, s.die, s.core, q, none⟩) ++ s.mem.claims), units)

end Sys2Proof.Machine
end

