-- ==== Sys2Proof/Machine/Group.lean ====
section
/-! DEFINITION. Group records (R167) and the operations on them (R168), with the memberships of a task (R169). -/
namespace Sys2Proof.Machine

/-- A group record. -/
abbrev GroupRecord := BitVec 256

def grpEpoch (g : GroupRecord) : Word32 := BitVec.ofNat 32 (fld g 224 32)
def grpExpect (g : GroupRecord) : Nat := fld g 204 20
def grpArrived (g : GroupRecord) : Nat := fld g 184 20
def grpMembers (g : GroupRecord) : Nat := fld g 164 20
/-- STATE is open. -/
def grpOpen (g : GroupRecord) : Bool := fld g 0 2 == 1

/-- OpenEpoch. -/
def openEpoch (g : GroupRecord) : GroupRecord :=
  put (put (put g 224 32 (grpEpoch g).toNat.succ) 184 20 0) 204 20 (grpMembers g)

/-- Join: the record and the new membership. -/
def joinGroup (g : GroupRecord) (va : Addr) : GroupRecord × Member :=
  let n := grpMembers g + 1
  let g1 := put g 164 20 n
  if grpExpect g = 0 then (put g1 204 20 n, ⟨va, grpEpoch g, true, none⟩) else (g1, ⟨va, grpEpoch g, false, none⟩)

/-- CountedNow. -/
def countedNow (g : GroupRecord) (m : Member) : Bool := m.joined != grpEpoch g || m.counted

/-- One more party counted as arrived; the last opens the next epoch. -/
def countArrival (g : GroupRecord) : GroupRecord :=
  let g1 := put g 184 20 (grpArrived g + 1)
  if grpArrived g + 1 = grpExpect g then openEpoch g1 else g1

/-- Arrive: none is GROUP_STATE. -/
def arriveGroup (g : GroupRecord) (m : Member) : Option (GroupRecord × Member) :=
  if !countedNow g m || m.arrived == some (grpEpoch g) then none
  else some (countArrival g, { m with arrived := some (grpEpoch g) })

/-- Leave. -/
def leaveGroup (g : GroupRecord) (m : Member) : GroupRecord :=
  let g1 := put g 164 20 (grpMembers g - 1)
  if countedNow g m && m.arrived != some (grpEpoch g) then countArrival g1 else g1

/-- The membership of a task in the group at an address. -/
def State.member (s : State) (va : Addr) : Option Member := s.task.members.find? (fun m => m.va == va)

/-- The state with the membership of a group replaced. -/
def State.setMember (s : State) (m : Member) : State :=
  { s with task := { s.task with members := s.task.members.map (fun x => if x.va = m.va then m else x) } }

/-! What the home of a record knows of an epoch's parties (R318). -/

/-- What a party of a bar.arrive registers: kind 0. -/
def Registration.bar (pa : Nat) (epoch : Word32) (chip : BitVec 10) (die : BitVec 2) (core : BitVec 6) (secure : Bool) : Registration :=
  { pa := pa, epoch := epoch, chip := chip, die := die, core := core, rank := 0, peer := 0, kind := 0, op := 0, wfmt := 0, secure := secure
    extents := [], ctl := 0, spaddr := 0, rextents := [], ranks := (0, 0), fmts := (0, 0), same := false, tableFmt := none, tableAbsent := false }

/-- The parties registered in an epoch of the record at an address. -/
def State.registered (s : State) (pa : Nat) (epoch : Word32) : List Registration :=
  s.pkg.colls.filter (fun r => r.pa == pa && r.epoch == epoch)

/-- A party is registered; those of earlier epochs of the record are forgotten. -/
def State.register (s : State) (r : Registration) : State :=
  { s with pkg := { s.pkg with colls := s.pkg.colls.filter (fun x => x.pa != r.pa || x.epoch == r.epoch) ++ [r] } }

/-- A task of an ASID and a world leaves a group (R168, R362). -/
def State.leaveAs (s : State) (asid : BitVec 11) (secure : Bool) (m : Member) : State :=
  match s.leafFor asid m.va .both true secure with
  | .error _ => s
  | .ok (s1, t) =>
    let b : Bound := ⟨m.va, asid, secure, t.leaf, leafAddress t.leaf t.level m.va, s.ilvCur⟩
    if s1.target t.leaf != 0 then s1.emit (.group 1 b 0)
    else match s1.readHome b b.pa 32 with
      | .error _ => s1
      | .ok v => match s1.writeHome b b.pa 32 (leaveGroup (BitVec.ofNat 256 v) m).toNat with
        | .error _ => s1
        | .ok s2 => s2

end Sys2Proof.Machine
end

