-- ==== Sys2Proof/Machine/Phase.lean ====
section
/-! DEFINITION. Phases (R170 to R180): the record of a phase, the commit state and its live items, cancellation (R179, R260,
R303, R358), and fault records (R363). -/
namespace Sys2Proof.Machine

/-! Phase records (R173 to R175). -/

def recLbank (r : BitVec 256) : BitVec 64 := BitVec.ofNat 64 (fld r 192 64)
def recLring (r : BitVec 256) : BitVec 16 := BitVec.ofNat 16 (fld r 176 16)
def recLmask (r : BitVec 256) : BitVec 8 := BitVec.ofNat 8 (fld r 168 8)
def recLdir (r : BitVec 256) : BitVec 16 := BitVec.ofNat 16 (fld r 152 16)
def recLacc (r : BitVec 256) : BitVec 4 := BitVec.ofNat 4 (fld r 148 4)
def recLvec (r : BitVec 256) : BitVec 48 := BitVec.ofNat 48 (fld r 100 48)
def recSig (r : BitVec 256) : Nat := fld r 64 32
def recClass (r : BitVec 256) : Nat := fld r 32 3
def recSigen (r : BitVec 256) : Bool := r.getLsbD 31
def recCycen (r : BitVec 256) : Bool := r.getLsbD 30
def recExpcyc (r : BitVec 256) : Nat := fld r 0 19

/-- A record is malformed (R174). -/
def State.recMalformed (s : State) (r : BitVec 256) : Bool :=
  fld r 96 4 != 0 || fld r 35 29 != 0 || fld r 19 11 != 0 ||
    (recCycen r && (recExpcyc r == 0 || decide (262144 < recExpcyc r))) || decide (2 ^ s.nbank ≤ (recLbank r).toNat)

/-- PHTBASE (R173). -/
def State.phtBase (s : State) : Addr := ((s.csrOf 0xB).setWidth 8 : BitVec 8) ++ s.csrOf 0xA

/-- The record of an index is read from the phase table in the task's ASID (R174): unread while its home has not answered. -/
def State.readRecord (s : State) (index : Nat) : State × PhaseRec :=
  let va := s.phtBase + BitVec.ofNat 72 (32 * index)
  match s.gate 4 s.asid s.taskSecure false .read va 32 0 with
  | some t => (t, .unread)
  | none => match s.hwRead s.asid s.taskSecure false .read va 32 with
    | .error (c, tv) => (s.doneHw 4, .bad c tv va)
    | .ok (s1, v, _) =>
      let r := BitVec.ofNat 256 v
      if s1.recMalformed r then (s1.doneHw 4, .bad .liveRecord 0 0) else (s1.doneHw 4, .got index r)

/-- The index that an X-slot word names if it is phase.begin (R174). -/
def beginIndex (x : Word32) : Option Nat := if fld x 8 24 = 0x780000 then some (fld x 0 8) else none

/-- The record of the phase whose first group stands at the compute sequencer's program counter (R174, R175). A fetch that fails has no
other effect: the group's own fetch finds what is amiss, and its record is read as it issues. -/
def State.nextRecord (s : State) : State × PhaseRec :=
  if !s.seqs.compute.run then s.readRecord 0
  else match s.hwRead s.asid s.taskSecure s.sup .fetch (s.pcOf .compute + 12) 4 with
    | .error _ => (s, .unread)
    | .ok (s1, x, _) => s1.readRecord ((beginIndex (BitVec.ofNat 32 x)).getD 0)

/-- What a commit waits for at homes outside the package, or at one that does not admit it: the word that names the record of the next
phase, whose first group stands at an address, and then the record (R174, R175, R25). -/
def State.recordGate (s : State) (pc : Addr) : Option State :=
  let record (s : State) (index : Nat) : Option State :=
    s.gate 4 s.asid s.taskSecure false .read (s.phtBase + BitVec.ofNat 72 (32 * index)) 32 0
  if !s.seqs.compute.run then record s 0
  else match s.gate 4 s.asid s.taskSecure s.sup .fetch (pc + 12) 4 0 with
    | some t => some t
    | none => match s.hwRead s.asid s.taskSecure s.sup .fetch (pc + 12) 4 with
      | .error _ => none
      | .ok (s1, x, _) => record s1 ((beginIndex (BitVec.ofNat 32 x)).getD 0)

/-- The live items of a record; where none is read, or its reading failed, every item is kept (R175). -/
def PhaseRec.live : PhaseRec → BitVec 256
  | .got _ r => r
  | _ => BitVec.allOnes 256

/-- Reached swaps: bit 0 load, 1 compute, 2 store. A sequencer that has no code is idle and counts as having reached
every swap (R162). -/
def State.allReached (s : State) : Bool :=
  (s.phase.reached.getLsbD 0 || !s.seqs.load.run) && (s.phase.reached.getLsbD 1 || !s.seqs.compute.run) &&
    (s.phase.reached.getLsbD 2 || !s.seqs.store.run)

/-! The commit state (R179). -/

/-- CSRs that a commit keeps: FMODE, HOLDT, TAGS, TAGPEND, BANKFMT, the ring descriptors and DBUF. -/
def commitCsr (n : Nat) : Bool :=
  n = 0x14 || n = 0x16 || n = 0x19 || n = 0x1A || (0x40 ≤ n && n < 0x98)

/-- The entries of a map whose key meets a condition. -/
def keep {α : Type} (m : SMap α) (f : Nat → Bool) : SMap α := m.filter (fun x => f x.1)

/-- Entries of `new` where a condition holds on the key, those of `old` elsewhere. -/
def mergeMaps {α : Type} [DecidableEq α] (d : α) (old new : SMap α) (f : Nat → Bool) : SMap α :=
  (keep new f).foldl (fun m x => mset m d x.1 x.2) (keep old (fun k => !f k))

/-- Registers of the vector file that a record names. -/
def liveFile (f : VecFile) (r : BitVec 256) : VecFile :=
  { v := keep f.v (fun n => (recLvec r).getLsbD n), k := keep f.k (fun n => (recLmask r).getLsbD n)
    d := keep f.d (fun n => (recLdir r).getLsbD n) }

/-- The commit state as it stands, with the live items of `r`. -/
def State.commitState (s : State) (r : BitVec 256) : Commit :=
  { seqs := s.seqs, g := s.sc.g, a := s.sc.a, m := s.sc.m, q := s.q, csr := keep s.csr commitCsr
    landed := keep s.scr.landed (fun n => (recLring r).getLsbD (n / 256)), mq := s.mat.mq, fq := s.mu.fq, cq := s.eng.cq
    file := liveFile s.vec.file r, acc := keep s.mat.acc (fun n => (recLacc r).getLsbD n)
    flags := keep s.mat.flags (fun n => (recLacc r).getLsbD n), inp := s.vec.inp, out := s.vec.out, live := r }

/-- A tag of a map operation that was not issued in the current phase (R179). -/
def MapTag.old (t : MapTag) : MapTag := { t with fresh := false }

/-- The map operations of the phase that ends are those of an earlier phase. -/
def State.settleMaps (s : State) : State :=
  { s with wharves := s.wharves.map (fun (n, w) => (n, { w with
      ops := w.ops.map (fun o => { o with tag := o.tag.map MapTag.old })
      slots := w.slots.map (fun (k, x) => (k, { x with tag := x.tag.map MapTag.old })) })) }

/-- The bound task issued a map operation in the current phase. -/
def State.freshTag (s : State) (t : Option MapTag) : Bool := t.any (fun t => t.fresh && t.task == s.task.id)

/-- What a new phase begins with: its record, counts of zero, and no sequencer at its swap (R171). -/
def State.beginPhase (s : State) (rec : PhaseRec) : State :=
  let index := match rec with
    | .got i _ => i
    | _ => 0
  let cls := match rec with
    | .got _ r => recClass r
    | _ => 0
  let stat : Word64 := put (put 0 19 8 index) 27 3 cls
  let s1 := (s.setCsr 0xC stat).setCsr 0xD 0
  let s2 := s1.settleMaps
  let s3 := if (s2.wharf .core).transit.any (fun t => t.binds.any (fun b => b.waits == .ring)) then s2.postOnce .packetBeat else s2
  { s3 with
    vec := { s3.vec with latch := [] }
    eng := { s3.eng with ops := s3.eng.ops.map (fun o => { o with fresh := false }) }
    scr := { s3.scr with ringHeld := [] }
    phase := { s3.phase with reached := 0, marked := false, yields := false, first := true, swapping := none, record := rec, asked := none
                             granted := false, commit := s1.commitState rec.live, fqNew := [], cqNew := []
                             tagsOld := s1.csrOf 0x1A, tagsNew := 0, landedNew := [], slotsNew := [] } }

/-- What an engine operation has pinned is unpinned as it leaves (R38). -/
def State.dropOp (s : State) (o : EngOp) : State := o.tensors.foldl (fun s t => s.unbindTensor t) s

/-- Map operations that the phase issued are discarded: those that wait have no effect, and a retirement under way loses its tag. -/
def State.dropFreshMaps (s : State) : State :=
  s.wharves.foldl (fun s (n, w) =>
    let gone := w.ops.filter (fun o => s.freshTag o.tag)
    let s1 := gone.foldl (fun s o => match o.tensor with
      | some t => s.unbindTensor t
      | none => s) s
    { s1 with wharves := mset s1.wharves .empty n { w with
        ops := w.ops.filter (fun o => !s.freshTag o.tag)
        slots := w.slots.map (fun (k, x) => (k, if s.freshTag x.tag then { x with tag := none } else x)) } }) s

/-- Output ports as a cancellation leaves them: bound as at the commit, with the images that have begun (R260). -/
def State.cancelOut (s : State) (out : SMap OutPort) : SMap OutPort :=
  mtab 4 ⟨none, 0, []⟩ (fun n => { mget out ⟨none, 0, []⟩ n with
    images := (mget s.vec.out ⟨none, 0, []⟩ n).images.filter (fun i => i.done != 0) })

/-- The slots that tiles of earlier operations took since the commit, in a row from TAIL on, as many as there are: they stay reserved
(log entry 15). -/
def State.keptSlots (s : State) (k : Nat) (d : Word64) : Nat :=
  ((List.range (ringTc d - ringCnt d)).takeWhile (fun i => s.phase.slotsNew.contains (256 * k + (ringTail d + i) % ringTc d))).length

/-- The ring descriptors of the commit, with the slots kept. -/
def State.cancelRings (s : State) (csr : SMap Word64) : SMap Word64 :=
  (List.range 16).foldl (fun m k =>
    let d := mget m 0 (0x80 + k)
    if !ringV d then m
    else mset m 0 (0x80 + k) (put (put d 48 8 ((ringTail d + s.keptSlots k d) % ringTc d)) 40 8 (ringCnt d + s.keptSlots k d))) csr

/-- A slot of a ring holds a tile or is reserved for one. -/
def ringHolds (d : Word64) (j : Nat) : Bool := ringV d && (List.range (ringCnt d)).any (fun i => (ringHead d + i) % ringTc d == j)

/-- What has landed of the tiles of the live rings: what had at the commit, and what packets of earlier operations have brought since. -/
def State.cancelLanded (s : State) : SMap Nat :=
  let c := s.phase.commit
  let old := mergeMaps 0 s.scr.landed c.landed (fun n => (recLring c.live).getLsbD (n / 256))
  s.phase.landedNew.foldl (fun m (n, bits) =>
    if (recLring c.live).getLsbD (n / 256) then mset m 0 n (min tileBits (mget c.landed 0 n + bits)) else m) old

/-- The window tiles of the core wharf's maps whose slots a cancellation has taken back are open again. -/
def State.reopenTiles (s : State) : State :=
  s.setWharf .core { s.wharf .core with slots := (s.wharf .core).slots.map (fun (n, x) =>
    (n, { x with tiles := x.tiles.filter (fun (_, j) => j.any (ringHolds (s.ringDesc (mapRing x.map)))) })) }

/-- Cancellation of a phase (R179, R260, R303, R358): operations issued in it are discarded, and the commit state is
restored; of earlier phases' operations, tags that completed since the commit stay complete, and tiles that landed or took a slot stay
(log entry 15). -/
def State.cancelPhase (s : State) (rerun : Bool) : State :=
  let c := s.phase.commit
  let fresh := s.eng.ops.filter (fun o => o.fresh)
  let s0 := (fresh.foldl (fun s o => s.dropOp o) s).dropFreshMaps
  let s1 := { s0 with eng := { s0.eng with ops := s0.eng.ops.filter (fun o => !o.fresh), cq := c.cq ++ s0.phase.cqNew, remote := [] } }
  let csr := s1.cancelRings (mergeMaps 0 s1.csr c.csr commitCsr)
  let s2 := { s1 with
    seqs := c.seqs, sc := { s1.sc with g := c.g, a := c.a, m := c.m }, q := c.q, csr := csr
    task := { s1.task with launching := none }
    cycle := { s1.cycle with puts := [], again := [], held := none }
    scr := { s1.scr with
      landed := s1.cancelLanded, ringHeld := [], fmtPend := [] }
    mu := { s1.mu with fq := c.fq ++ s1.phase.fqNew, remote := .idle, notBefore := none, hw := [] }
    vec := { s1.vec with
      file := { v := mergeMaps [] s1.vec.file.v c.file.v (fun n => (recLvec c.live).getLsbD n)
                k := mergeMaps 0 s1.vec.file.k c.file.k (fun n => (recLmask c.live).getLsbD n)
                d := mergeMaps ⟨[], []⟩ s1.vec.file.d c.file.d (fun n => (recLdir c.live).getLsbD n) }
      image := none, latch := [], ready := [], ports := [], accept := []
      inp := c.inp.map (fun (x : Nat × InPort) => (x.1, { x.2 with images := [] }))
      out := s1.cancelOut c.out }
    mat := { s1.mat with
      acc := mergeMaps [] s1.mat.acc c.acc (fun n => (recLacc c.live).getLsbD n)
      flags := mergeMaps 0 s1.mat.flags c.flags (fun n => (recLacc c.live).getLsbD n)
      ops := [], mq := c.mq, wordDone := [], opDone := [], ne := 0, nr := 0, stored := 0, starts := [], pops := [], banks := [] }
    phase := { s1.phase with reached := 0, marked := false, yields := false, first := true, swapping := none, asked := none, granted := false } }
  let s3 := (s2.setCsr 0x1A s1.phase.tagsOld).setCsr 0x19 (mget c.csr 0 0x19 ||| s1.phase.tagsNew)
  let s4 := s3.reopenTiles.closeRegions
  let stat := put (putBit (put (s4.csrOf 0xC) 32 32 0) 31 false) 0 19 0
  let s5 := s4.setCsr 0xC (if rerun then putBit stat 30 true else stat)
  ((List.range 8).foldl (fun (s : State) (n : Nat) => if (mget s.vec.inp (InPort.mk none 0 []) n).bound.isSome then s.postOnce .portRowRead { n := n } else s)
    s5).postOnce .packetBeat

/-! Fault records (R363). -/

/-- A record written at a physical page of the hardware's own in a region of a world: the count of `size`-byte records at its head,
`cap` of them; none where a home refuses it. A granule without an owner is read as it stands (log entry 51). -/
def State.appendRecord (s : State) (secure : Bool) (page size cap : Nat) (r : Nat) : Option State :=
  match s.logCell secure page with
  | none => none
  | some c =>
    let n := getBytes s.cell c 8
    let at_ := page + size * (1 + n % cap)
    match s.logCell secure at_ with
    | none => none
    | some _ => some ((s.writeTable at_ size r).writeTable page 8 ((n + 1) % 2 ^ 64))

/-- DISP of a fault record. -/
inductive Disp where
  | parked | rerun | contained | aborted | recorded | preempted | stop | halt
deriving DecidableEq, Repr

/-- The fields of a fault record that name a task: LAUNCH, STAGE, ACT and ASID, from TASKID and ASCTX. -/
def taskFields (task : Word64) (asid : Nat) (r : BitVec 512) : BitVec 512 :=
  put (put (put (put r 224 16 (fld task 40 16)) 221 3 (fld task 37 3)) 189 32 (fld task 0 32)) 178 11 asid

/-- A fault record of the bound task or of another is written to the ring of a world (R363), and signalled by PF 0 where it was written and
that ring is one the host may read: the non-secure one (R13, R390). -/
def State.faultRecord (s : State) (secure : Bool) (disp : Disp) (c : Cause) (tv : Word64) (fa pc : Addr) (q : Seq)
    (task : Word64) (asid : Nat) : State :=
  let base := fld (s.cfgOf (if secure then 0x58 else 0x50)) 17 43
  let r0 : BitVec 512 := put (put (put (put (0 : BitVec 512) 448 64 s.clk.toNat) 384 64 tv.toNat) 312 72 fa.toNat) 240 72 pc.toNat
  let r1 := taskFields task asid r0
  let r2 := put (put (put r1 168 10 s.chip.toNat) 166 2 s.die.toNat) 160 6 s.core.toNat
  let r := put (put (put r2 158 2 (seqNum q)) 152 6 c.code.toNat) 149 3 disp.ctorIdx
  match (if base = 0 then none else s.appendRecord secure (base * 2 ^ 17) 64 2047 r.toNat) with
  | none => s
  | some t => if secure then t else t.emit (.msix 0 0)

/-- A fault record of the bound task, in the ring of the world that R354 chooses. -/
def State.faultOfTask (s : State) (disp : Disp) (c : Cause) (tv : Word64) (fa pc : Addr) (q : Seq) : State :=
  s.faultRecord (s.handlerWorld c) disp c tv fa pc q (s.csrOf 8) s.asid.toNat

end Sys2Proof.Machine
end

