-- ==== Sys2Proof/Machine/Frame.lean ====
section
/-! DEFINITION. Save frames (R364): what a save keeps of a core, the layout of a frame, and the save and restore of it. -/
namespace Sys2Proof.Machine

/-- An item of a frame: its offset, its bytes, and its value in a context and as a restore puts it back. -/
structure FrameItem where
  off : Nat
  len : Nat
  get : Context → Nat
  put : Context → Nat → Context

/-- The items of one sequencer, 56 bytes: PC, predicates and loop counters. -/
def seqItems (q : Seq) : List FrameItem :=
  let base := 0x40 + 56 * seqNum q
  let regs (c : Context) : SeqRegs := match q with
    | .load => c.seqs.load
    | .compute => c.seqs.compute
    | .store => c.seqs.store
    | .control => c.seqs.control
  let set (c : Context) (r : SeqRegs) : Context := { c with seqs := c.seqs.set q r }
  [⟨base, 16, fun c => (regs c).pc.toNat, fun c v => set c { regs c with pc := BitVec.ofNat 72 v }⟩,
   ⟨base + 16, 8, fun c => (regs c).p.toNat ||| 1, fun c v => set c { regs c with p := putBit (BitVec.ofNat 16 v) 0 false }⟩] ++
  (List.range 4).map (fun i => ⟨base + 24 + 8 * i, 8,
    fun c => let l := mget (regs c).lc LoopCounter.zero i; l.rem.toNat + 2 ^ 32 * l.drain.toNat,
    fun c v => set c { regs c with lc := mset (regs c).lc LoopCounter.zero i ⟨BitVec.ofNat 32 v, BitVec.ofNat 3 (v / 2 ^ 32)⟩ }⟩)

/-- The items of a map of words, one in each `len` bytes from `off` on, for the keys from `first` on; a restore takes the bits of a mask
(R10). -/
def wordItems {w : Nat} (off len first n : Nat) (get : Context → SMap (BitVec w)) (put : Context → SMap (BitVec w) → Context)
    (mask : BitVec w := BitVec.allOnes w) : List FrameItem :=
  (List.range n).map (fun i => ⟨off + len * i, len, fun c => (mget (get c) 0 (first + i)).toNat,
    fun c v => put c (mset (get c) 0 (first + i) (BitVec.ofNat w v &&& mask))⟩)

/-- A list of at most `n` entries: its count in `lead` bytes, then its entries of `len` bytes. -/
def listItems {α : Type} (off lead len n : Nat) (d : α) (get : Context → List α) (put : Context → List α → Context)
    (enc : α → Nat) (dec : α → Nat → α) : List FrameItem :=
  ⟨off, lead, fun c => (get c).length, fun c v => put c ((get c ++ List.replicate n d).take (min v n))⟩ ::
  (List.range n).map (fun i => ⟨off + lead + len * i, len, fun c => (((get c)[i]?).map enc).getD 0,
    fun c v => put c (match (get c)[i]? with
      | none => get c
      | some x => (get c).set i (dec x v))⟩)

/-- A value queue. -/
def queueItems (off : Nat) (get : Context → List Word64) (put : Context → List Word64 → Context) : List FrameItem :=
  listItems off 8 8 8 0 get put (fun x => x.toNat) (fun _ v => w64 v)

/-- An entry of a result queue: its value, and its status from byte 8 on. -/
def entryWord (x : Word64 × BitVec 6) : Nat := x.1.toNat + 2 ^ 64 * x.2.toNat
def wordEntry (v : Nat) : Word64 × BitVec 6 := (w64 v, BitVec.ofNat 6 (v / 2 ^ 64))

/-- A membership (R169): VA at 0, the epoch of joining at 12, whether it is counted at 16, whether it has arrived at 17, and the epoch of
its arrival at 20 (log entry 16); a VA of zero names none. -/
def memberWord (m : Member) : Nat :=
  m.va.toNat + 2 ^ 96 * m.joined.toNat + 2 ^ 128 * m.counted.toNat + 2 ^ 136 * m.arrived.isSome.toNat +
    2 ^ 160 * (m.arrived.getD 0).toNat
def wordMember (v : Nat) : Member :=
  ⟨BitVec.ofNat 72 v, BitVec.ofNat 32 (v / 2 ^ 96), v / 2 ^ 128 % 2 == 1,
   if v / 2 ^ 136 % 2 = 1 then some (BitVec.ofNat 32 (v / 2 ^ 160)) else none⟩

/-- The four memberships at 0x430. -/
def memberItems : List FrameItem :=
  (List.range 4).map (fun i => ⟨0x430 + 32 * i, 32, fun c => ((c.task.members[i]?).map memberWord).getD 0,
    fun c v =>
      let before := if i = 0 then [] else c.task.members.take i
      { c with task := { c.task with members := if v % 2 ^ 72 = 0 then before else before ++ [wordMember v] } }⟩)

/-- The scalar region at 0x40. -/
def scalarItems : List FrameItem :=
  seqItems .load ++ seqItems .compute ++ seqItems .store ++ seqItems .control ++
  wordItems 0x120 8 0 32 (fun c => c.sc.g) (fun c m => { c with sc := { c.sc with g := m } }) ++
  wordItems 0x220 16 0 16 (fun c => c.sc.a) (fun c m => { c with sc := { c.sc with a := m } }) ++
  wordItems 0x320 8 0 8 (fun c => c.sc.m) (fun c m => { c with sc := { c.sc with m := m } })
    (fieldMask [(32, 23), (0, 22)]) ++
  wordItems 0x360 8 0 8 (fun c => c.q.tq) (fun c m => { c with q := { c.q with tq := m } }) ++
  queueItems 0x3A0 (fun c => c.q.vq0) (fun c l => { c with q := { c.q with vq0 := l } }) ++
  queueItems 0x3E8 (fun c => c.q.vq1) (fun c l => { c with q := { c.q with vq1 := l } }) ++ memberItems

/-- CSRs of a task's context; the others are the core's own, and their images are zero. -/
def contextCsr (n : Nat) : Bool := n != 7 && n != 0x0F && n != 0x10 && n != 0x11 && n != 0x15

/-- The CSR images at 0x1000; a restore takes the fields of each register (R10). -/
def csrItems : List FrameItem :=
  ((List.range 0xD0).filter contextCsr).map (fun n => ⟨0x1000 + 8 * n, 8, fun c => (mget c.csr (csrReset n) n).toNat,
    fun c v => { c with csr := mset c.csr (csrReset n) n (w64 v &&& csrMask n) }⟩)

/-- A record of a port or of the vector unit, as its three words. -/
def recordWord (r : Record) : Nat := r.w0.toNat + 2 ^ 64 * r.w1.toNat + 2 ^ 128 * r.w2.toNat
def wordRecord (v : Nat) : Record := ⟨w64 v, w64 (v / 2 ^ 64), w64 (v / 2 ^ 128)⟩

/-- A port's binding and walk position (R260): bound at byte 0, SATD at 1, RM at 2, the images popped or queued from byte 8 on; then the
records of the walk and of its index (log entry 16). A restore discards the images of the port. -/
def bindingWord (b : Option Binding) (pos : Nat) : Nat :=
  (match b with
    | none => 0
    | some b => 1 + 2 ^ 8 * b.satd.toNat + 2 ^ 16 * b.rm.toNat) + 2 ^ 64 * pos
def wordBinding (b : Option Binding) (v : Nat) : Option Binding :=
  if v % 2 = 0 then none
  else
    let x := b.getD ⟨⟨0, 0, 0⟩, ⟨0, 0, 0⟩, 0, false⟩
    some { x with satd := v / 2 ^ 8 % 2 == 1, rm := BitVec.ofNat 2 (v / 2 ^ 16) }
def portItems (off : Nat) (get : Context → Option Binding × Nat) (put : Context → Option Binding × Nat → Context) : List FrameItem :=
  let part (o : Nat) (r : Binding → Record) (f : Binding → Record → Binding) : FrameItem :=
    ⟨o, 24, fun c => ((get c).1.map (fun b => recordWord (r b))).getD 0,
     fun c v => put c ((get c).1.map (fun b => f b (wordRecord v)), (get c).2)⟩
  [⟨off, 16, fun c => bindingWord (get c).1 (get c).2, fun c v => put c (wordBinding (get c).1 v, v / 2 ^ 64)⟩,
   part (off + 16) (fun b => b.walk) (fun b r => { b with walk := r }),
   part (off + 48) (fun b => b.index) (fun b r => { b with index := r })]

/-- The ports, input ports first. -/
def allPortItems : List FrameItem :=
  (List.range 8).flatMap (fun n => portItems (0x2430 + 80 * n)
    (fun c => let p := mget c.vec.inp ⟨none, 0, []⟩ n; (p.bound, p.popped))
    (fun c (b, k) => { c with vec := { c.vec with inp := mset c.vec.inp ⟨none, 0, []⟩ n ⟨b, k, []⟩ } })) ++
  (List.range 4).flatMap (fun n => portItems (0x26B0 + 80 * n)
    (fun c => let p := mget c.vec.out ⟨none, 0, []⟩ n; (p.bound, p.queued))
    (fun c (b, k) => { c with vec := { c.vec with out := mset c.vec.out ⟨none, 0, []⟩ n ⟨b, k, []⟩ } }))

/-- The snapshots of operations that a save keeps, by their place among those of a queue: a restore takes what they hold. -/
def matItems : List FrameItem :=
  (List.range 2).map (fun i => ⟨0x27F0 + 64 * i, 64, fun c => ((c.mat.ops[i]?).map (fun o => o.img.toNat)).getD 0,
    fun c v => { c with mat := { c.mat with ops := match c.mat.ops[i]? with
      | none => c.mat.ops
      | some o => c.mat.ops.set i { o with img := BitVec.ofNat 512 v } } }⟩)
def engineItems (off : Nat) (side : Side) : List FrameItem :=
  let nth (c : Context) (i : Nat) : Option EngOp := (c.eng.ops.filter (fun o => o.side == side))[i]?
  (List.range 8).map (fun i => ⟨off + 64 * i, 64, fun c => ((nth c i).map (fun o => o.img.toNat)).getD 0,
    fun c v => { c with eng := { c.eng with ops := match nth c i with
      | none => c.eng.ops
      | some o => c.eng.ops.map (fun x => if x.id = o.id then { x with img := BitVec.ofNat 512 v } else x) } }⟩)

/-- The region at 0x2000: result queues, stream records, ports, snapshots, and the queues of event and unlanded records. -/
def queueRegion : List FrameItem :=
  listItems 0x2000 16 16 16 (0, 0) (fun c => c.fq) (fun c l => { c with fq := l }) entryWord (fun _ v => wordEntry v) ++
  listItems 0x2110 16 16 16 (0, 0) (fun c => c.eng.cq) (fun c l => { c with eng := { c.eng with cq := l } }) entryWord
    (fun _ v => wordEntry v) ++
  listItems 0x2220 16 16 8 (0, 0, 0) (fun c => c.mat.mq) (fun c l => { c with mat := { c.mat with mq := l } })
    (fun (v, st, _) => entryWord (v, st)) (fun (_, _, t) v => ((wordEntry v).1, (wordEntry v).2, t)) ++
  (List.range 12).map (fun i => ⟨0x22B0 + 32 * i, 24, fun c => recordWord (mget c.vec.records ⟨0, 0, 0⟩ i),
    fun c v => { c with vec := { c.vec with records := mset c.vec.records ⟨0, 0, 0⟩ i (wordRecord v) } }⟩) ++
  allPortItems ++ matItems ++ engineItems 0x2870 .load ++ engineItems 0x2A70 .store ++
  listItems 0x2C70 16 16 32 0 (fun c => c.logs.overflow) (fun c l => { c with logs := { c.logs with overflow := l } })
    (fun r => r.toNat) (fun _ v => BitVec.ofNat 128 v) ++
  listItems 0x2E80 16 32 16 0 (fun c => c.logs.unlanded) (fun c l => { c with logs := { c.logs with unlanded := l } })
    (fun r => r.toNat) (fun _ v => BitVec.ofNat 256 v)

/-- The template tables at 0x4000, a slot with KIND 0 being empty. -/
def templateItems : List FrameItem :=
  (List.range 192).map (fun i => ⟨0x4000 + 64 * i, 64,
    fun c => ((mget c.eng.tmpl none i).map (fun (x : BitVec 512) => x.toNat)).getD 0,
    fun c v =>
      let t : Option (BitVec 512) := if v % 64 = 0 then none else some (BitVec.ofNat 512 v)
      { c with eng := { c.eng with tmpl := mset c.eng.tmpl none i t } }⟩)

/-- The vector registers: masks at 0x8000, lanes at 0x10000, side planes at 0x40000, and directional registers with
their norms from 0x42000 on. -/
def vectorItems : List FrameItem :=
  let file (c : Context) (f : VecFile) : Context := { c with vec := { c.vec with file := f } }
  let lane (c : Context) (n i : Nat) : Lane := mget (mget c.vec.file.v [] n) Lane.zero i
  let setLane (c : Context) (n i : Nat) (l : Lane) : Context :=
    file c { c.vec.file with v := mset c.vec.file.v [] n (mset (mget c.vec.file.v [] n) Lane.zero i l) }
  let dreg (c : Context) (n : Nat) : DReg := mget c.vec.file.d ⟨[], []⟩ n
  let setD (c : Context) (n : Nat) (d : DReg) : Context := file c { c.vec.file with d := mset c.vec.file.d ⟨[], []⟩ n d }
  (List.range 8).map (fun i => ⟨0x8000 + 128 * i, 128, fun c => (mget c.vec.file.k 0 i).toNat,
    fun c v => file c { c.vec.file with k := mset c.vec.file.k 0 i (BitVec.ofNat 1024 v) }⟩) ++
  (List.range 49152).map (fun x => ⟨0x10000 + 4 * x, 4, fun c => (lane c (x / 1024) (x % 1024)).bits.toNat,
    fun c v => setLane c (x / 1024) (x % 1024) { lane c (x / 1024) (x % 1024) with bits := BitVec.ofNat 32 v }⟩) ++
  (List.range 6144).map (fun x => ⟨0x40000 + x, 1,
    fun c => (List.range 8).foldr (fun j a => 2 * a + (lane c (x / 128) (8 * (x % 128) + j)).side.toNat) 0,
    fun c v => (List.range 8).foldl (fun c j => let i := 8 * (x % 128) + j
      setLane c (x / 128) i { lane c (x / 128) i with side := v / 2 ^ j % 2 == 1 }) c⟩) ++
  (List.range 16384).map (fun x => ⟨0x42000 + 2 * x, 2, fun c => (mget (dreg c (x / 1024)).comps 0 (x % 1024)).toNat,
    fun c v => let d := dreg c (x / 1024)
      setD c (x / 1024) { d with comps := mset d.comps 0 (x % 1024) (BitVec.ofNat 16 v) }⟩) ++
  (List.range 256).map (fun x => ⟨0x4A000 + 4 * x, 4, fun c => (mget (dreg c (x / 16)).norms normZero (x % 16)).toNat,
    fun c v => let d := dreg c (x / 16)
      setD c (x / 16) { d with norms := mset d.norms normZero (x % 16) (BitVec.ofNat 32 v) }⟩)

/-- Accumulators and their flags. -/
def accItems : List FrameItem :=
  wordItems 0x4B000 8 0 4 (fun c => c.mat.flags) (fun c m => { c with mat := { c.mat with flags := m } }) ++
  (List.range 16384).map (fun x => ⟨0x50000 + 4 * x, 4, fun c => (mget (mget c.mat.acc [] (x / 4096)) 0 (x % 4096)).toNat,
    fun c v =>
      let m := mset (mget c.mat.acc [] (x / 4096)) 0 (x % 4096) (BitVec.ofNat 32 v)
      { c with mat := { c.mat with acc := mset c.mat.acc [] (x / 4096) m } }⟩)

/-- The scratchpad: poison bits at 0x4C000 and banks from 0x80000 on. -/
def scratchItems : List FrameItem :=
  (List.range 8192).map (fun x => ⟨0x4C000 + x, 1,
    fun c => (List.range 8).foldr (fun j a => 2 * a + (mget c.scr.poison false (8 * x + j)).toNat) 0,
    fun c v => { c with scr := { c.scr with poison := (List.range 8).foldl (fun m j =>
      mset m false (8 * x + j) (v / 2 ^ j % 2 == 1)) c.scr.poison } }⟩) ++
  wordItems 0x80000 1 0 4194304 (fun c => c.scr.bytes) (fun c m => { c with scr := { c.scr with bytes := m } })

/-- The core wharf's slots: their records at 0x7000 (R94), then 16 bytes each with the state at 0, BOUND at 4 and SHADOW at 8 (log
entry 16); a slot that is not LIVE is FREE after a restore. -/
def wharfItems : List FrameItem :=
  (List.range 32).map (fun i => ⟨0x7000 + 64 * i, 64, fun c => (c.wharf.slot i).map.toNat,
    fun c v =>
      let m : MapSlot := { c.wharf.slot i with map := BitVec.ofNat 512 v }
      { c with wharf := { c.wharf with slots := mset c.wharf.slots .free i m } }⟩) ++
  (List.range 32).map (fun i => ⟨0x7800 + 16 * i, 16,
    fun c => let x := c.wharf.slot i; x.st + 2 ^ 32 * (x.bound % 2 ^ 24) + 2 ^ 64 * (x.shadow % 2 ^ 64),
    fun c v =>
      let x := c.wharf.slot i
      let m : MapSlot := if v % 256 = 1 then { x with st := 1, bound := v / 2 ^ 32 % 2 ^ 24, shadow := v / 2 ^ 64 } else .free
      { c with wharf := { c.wharf with slots := mset c.wharf.slots .free i m } }⟩)

/-- The items of a frame. What a context holds beside them is the model's own or stands in no frame: the tensors bound and what the
machine has under way (log entry 16). -/
def frameItems : List FrameItem :=
  scalarItems ++ csrItems ++ queueRegion ++ templateItems ++ wharfItems ++ vectorItems ++ accItems ++ scratchItems

/-- The header of a frame, its first 64 bytes. -/
def frameHeader (s : State) (full : Bool) (c : Cause) : Nat :=
  (put (put (put (put (put (put (put (1 : BitVec 512) 8 8 full.toNat) 16 8 c.code.toNat) 64 64 (s.csrOf 8).toNat) 128 64
    s.asid.toNat) 192 64 s.clk.toNat) 256 64 (s.csrOf 0xC).toNat) 0 8 1).toNat

/-- The lowest free frame of a pool. -/
def State.freeFrame (s : State) (secure : Bool) : Option Nat :=
  let (_, _, n) := s.framePool secure
  (List.range n).find? (fun i => !(mget s.disp.frames [] secure.toNat).contains i)

/-- The images of the CSRs, with the fields that are computed where they are read. -/
def State.csrImages (s : State) : SMap Word64 :=
  (List.range 16).foldl (fun m k => mset m 0 (0x80 + k) (s.ringRead k)) (mset (keep s.csr contextCsr) 0 0xE s.freezeStat)

/-- The context of the bound task. -/
def State.context (s : State) : Context :=
  { seqs := s.seqs, sc := { s.sc with bankG := [], bankA := [] }, csr := s.csrImages, q := s.q, fq := s.mu.fq, scr := s.scr
    vec := s.vec, mat := s.mat, eng := s.eng, logs := { s.logs with memUnlanded := [] }, phase := { s.phase with asked := none, granted := false }, task := { s.task with launching := none }
    wharf := s.wharf .core, step := s.trap.step, remote := s.mu.remote, deferred := s.mu.deferred, pend := s.trap.pend }

/-- A context of the bound task with only the live items of a record (R183): its banks are named as they are addressed (R172). -/
def State.keepLive (s : State) (c : Context) (r : BitVec 256) : Context :=
  let bank (n : Nat) : Bool := (recLbank r).getLsbD (s.bankOf n)
  { c with
    vec := { c.vec with file := liveFile c.vec.file r }
    mat := { c.mat with acc := keep c.mat.acc (fun n => (recLacc r).getLsbD n), flags := keep c.mat.flags (fun n => (recLacc r).getLsbD n) }
    csr := keep c.csr (fun n => !(0x80 ≤ n && n < 0x90) || (recLring r).getLsbD (n - 0x80))
    scr := { c.scr with bytes := keep c.scr.bytes (fun a => bank (a / 65536)), poison := keep c.scr.poison (fun g => bank (g / 1024))
                        landed := keep c.scr.landed (fun n => (recLring r).getLsbD (n / 256)) } }

/-- A copy that a full save stops between packets (R184). -/
def EngOp.stopped (o : EngOp) : Bool := o.started && !(16 ≤ fld o.img 0 6 && fld o.img 0 6 ≤ 20) && o.sent < o.total

/-- The progress registers of a full save: the running matrix operation and the first copy stopped (R184, R303, R313). -/
def State.progress (s : State) : State :=
  let m : Word64 := match s.mat.ops with
    | o :: _ => if o.running then
        put (put (put (1 : Word64) 48 6 o.slot) 32 16 o.done) 16 16 (fld o.img 192 16) else 0
    | [] => 0
  let c : Word64 := match s.eng.ops.find? EngOp.stopped with
    | some o => put (put (put (put (1 : Word64) 58 6 (fld o.img 8 6)) 52 6 o.slot) 51 1 (if o.side = .store then 1 else 0)) 24 27 o.sent
    | none => 0
  (s.setCsr 0x1B m).setCsr 0x1C c

/-- The frame of the bound task is written (R364). -/
def State.writeFrame (s : State) (n : Nat) (full : Bool) (c : Cause) (ctx : Context) : State :=
  let w := s.taskSecure
  let key := (s.framePool w).1
  let base := s.frameAddress w n
  let s1 := (List.range (frameBytes / 64)).foldl (fun s i => s.framePut key (base + 64 * i) 64 0) s
  frameItems.foldl (fun s i => s.framePut key (base + i.off) i.len (i.get ctx)) (s1.framePut key base 64 (frameHeader s full c))

/-- The context of a frame with every operand latch empty (R252); none where its FMT or KIND is not one of R364. -/
def State.readFrame (s : State) (secure : Bool) (n : Nat) (ctx : Context) : Option Context :=
  let base := s.frameAddress secure n
  let fmt := s.frameGet base 1
  let kind := s.frameGet (base + 1) 1
  if fmt != 1 || 1 < kind then none
  else
    let c := frameItems.foldl (fun c i => i.put c (s.frameGet (base + i.off) i.len)) ctx
    some { c with vec := { c.vec with latch := [] } }

/-- A frame is taken from its pool or returned to it. -/
def State.setFrame (s : State) (secure : Bool) (n : Nat) (used : Bool) : State :=
  let l := (mget s.disp.frames [] secure.toNat).filter (fun i => i != n)
  { s with disp := { s.disp with frames := mset s.disp.frames [] secure.toNat (if used then n :: l else l) } }

end Sys2Proof.Machine
end

