-- ==== Sys2Proof/Machine/Sched.lean ====
section
/-! DEFINITION. Launches (R328 to R341): their descriptors, dependences and ends, and the task that holds the core: how it is
dropped, and how its launch is aborted (R362). -/
namespace Sys2Proof.Machine

/-! Fields of a descriptor (R328 to R330). -/

def lhTdmva (h : BitVec 512) : Addr := BitVec.ofNat 72 (fld h 96 72)
def lhDep (h : BitVec 512) (j : Nat) : Nat := fld h (32 + 16 * j) 16
def lhDepv (h : BitVec 512) : BitVec 4 := BitVec.ofNat 4 (fld h 16 4)
def lhWgt (h : BitVec 512) : Nat := fld h 12 4
def lhEarly (h : BitVec 512) : Bool := h.getLsbD 11
def lhPrio (h : BitVec 512) : Nat := fld h 8 3
def lhNq (h : BitVec 512) : Nat := fld h 4 4
def lhNs (h : BitVec 512) : Nat := fld h 0 3 + 1
def lqHiwat (q : BitVec 128) : Nat := fld q 88 16
def lqCap (q : BitVec 128) : Nat := fld q 72 16
def lqBase (q : BitVec 128) : Addr := BitVec.ofNat 72 (fld q 0 72)
def stNact (e : BitVec 512) : Nat := fld e 432 16
def stCompat (e : BitVec 512) : Bool := e.getLsbD 431
def stOutn (e : BitVec 512) : Nat := fld e 427 4
def stOutq (e : BitVec 512) : Nat := fld e 423 4
def stInq (e : BitVec 512) : Nat := fld e 419 4
def stMaxc (e : BitVec 512) : Nat := fld e 410 9
def stMinc (e : BitVec 512) : Nat := fld e 401 9
def stRing (e : BitVec 512) : Nat := fld e 396 5
def stTslot (e : BitVec 512) : Nat := fld e 389 7
def stVreg (e : BitVec 512) : Nat := fld e 383 6
def stSpb (e : BitVec 512) : Nat := fld e 360 23
def stPht (e : BitVec 512) : Addr := BitVec.ofNat 72 (fld e 288 72)
def stCompute (e : BitVec 512) : Addr := BitVec.ofNat 72 (fld e 216 72)
def stStore (e : BitVec 512) : Addr := BitVec.ofNat 72 (fld e 144 72)
def stLoad (e : BitVec 512) : Addr := BitVec.ofNat 72 (fld e 72 72)
def stCtrl (e : BitVec 512) : Addr := BitVec.ofNat 72 (fld e 0 72)

/-! Launches in the state. -/

/-- The launch of a number. -/
def State.launchOf (s : State) (n : Nat) : Option Launch := s.disp.launches.find? (fun l => l.number == n)

/-- The state with a launch replaced. -/
def State.setLaunch (s : State) (l : Launch) : State :=
  { s with disp := { s.disp with launches := s.disp.launches.map (fun x => if x.number = l.number then l else x) } }

/-- LAUNCH, STAGE and ACT of the bound task. -/
def State.taskLaunch (s : State) : Nat := fld (s.csrOf 8) 40 16
def State.taskStage (s : State) : Nat := fld (s.csrOf 8) 37 3
def State.taskAct (s : State) : Nat := fld (s.csrOf 8) 0 32

/-- A stage of a launch. -/
def Launch.stage (l : Launch) (n : Nat) : BitVec 512 := l.stages.getD n 0
def Launch.queueDesc (l : Launch) (n : Nat) : BitVec 128 := l.queues.getD n 0
/-- How a stage runs. -/
def Launch.runOf (l : Launch) (n : Nat) : StageRun := l.run.getD n ⟨0, 0, none⟩
def Launch.setRun (l : Launch) (n : Nat) (r : StageRun) : Launch := { l with run := l.run.set n r }

/-- The dependences on a launch are released (R332, R346); `aborted` says that its launch was aborted (R362). -/
def State.releaseDependents (s : State) (n : Nat) (aborted : Bool) : State :=
  { s with disp := { s.disp with launches := s.disp.launches.map (fun l =>
      let hit := (List.range 4).foldl (fun (m : BitVec 4) j =>
        if (lhDepv l.header).getLsbD j && lhDep l.header j == n && !l.released.getLsbD j then putBit m j true else m) 0
      { l with released := l.released ||| hit, aborted := if aborted then l.aborted ||| hit else l.aborted }) } }

/-- The weight of a launch (R328). -/
def Launch.weight (l : Launch) : Nat := lhWgt l.header + 1

/-- The launch after another in the rotation of the admitted launches, in admission order (R336). -/
def State.launchAfter (s : State) (n : Nat) : Option Launch :=
  let ls := s.disp.launches.filter (fun l => l.live)
  let rest := (ls.dropWhile (fun l => l.number != n)).tail
  (rest ++ ls).head?

/-- A rotation whose launch leaves points at the launch after it (R336). -/
def State.leaveRotation (s : State) (n : Nat) (r : Rotation) : Rotation :=
  if r.ptr != n then r
  else match s.launchAfter n with
    | some l => ⟨l.number, l.weight⟩
    | none => ⟨65536, 0⟩

/-- A launch becomes DONE: its number, its queue, its dependents, and the signal to the host (R341, R390). -/
def State.endLaunch (s : State) (l : Launch) (aborted : Bool) : State :=
  let d := s.disp
  let s1 := { s with disp := { d with
    launches := d.launches.filter (fun x => x.number != l.number)
    rotations := d.rotations.map (fun (x : Nat × Rotation) => (x.1, s.leaveRotation l.number x.2))
    finished := mset d.finished none l.number (some l.asid)
    abortedNumbers := if aborted then l.number :: d.abortedNumbers else d.abortedNumbers.filter (fun x => x != l.number)
    queues := mset d.queues [] l.queue ((mget d.queues [] l.queue).filter (fun x => x != l.number))
    chosen := if d.chosen.any (fun (c : Chosen) => c.launch == l.number) then none else d.chosen } }
  (s1.releaseDependents l.number aborted).emit (.msix (l.queue / 4) (2 + l.queue))

/-! The bound task leaves the core. -/

/-- Clears the core's bit in a request register of its die: PREQ or DHALT (R364, R367). -/
def State.clearRequest (s : State) (off : Nat) : State :=
  s.setCfg (dieCfg s.die off) (putBit (s.cfgOf (dieCfg s.die off)) s.core.toNat false)

/-- Every register, table and queue of a task's context, and the scratchpad, as they are at binding (R160, R338). Stores and factor
operations on their way stay (R350, R362), requests on the fabric stay counted until they are answered (R371), and so do the supervisor banks and the freezes of the core. -/
def State.clearContext (s : State) : State :=
  let r := State.reset
  { s with
    seqs := r.seqs, sc := { s.sc with g := [], a := [], m := [], taint := keep s.sc.taint (fun k => 64 ≤ k) }, csr := [], q := r.q
    cycle := r.cycle, scr := r.scr, vec := r.vec, mat := r.mat
    eng := { r.eng with nextId := s.eng.nextId }, logs := { s.logs with overflow := [], unlanded := [] }
    trap := { r.trap with frozen := s.trap.frozen, freezes := s.trap.freezes }, phase := r.phase, task := r.task
    mu := { s.mu with deferred := [], remote := .idle, notBefore := none, fq := [], hw := [] }
    disp := { s.disp with saving := none } }

/-- The core holds no task (R160). -/
def State.unbind (s : State) : State := s.clearContext.setWharf .core .empty

/-- Bound packets of the core wharf complete at their maps, `n` of them (R107). -/
def State.landAll (s : State) : Nat → State
  | 0 => s
  | n + 1 => State.landAll (s.landNext .core) n

/-- The wharf of a task that is discarded is vacated (R107, R362): a BANKFMT write that waits is gone with its sequencer, packets that
can land do, those that wait for a ring slot are refused, and unbound ones are dropped. -/
def State.vacate (s : State) : State :=
  let s0 := { s with scr := { s.scr with fmtPend := [] } }
  let n := ((s0.wharf .core).transit.map (fun t => t.binds.length)).sum
  let s1 := s0.landAll n
  let s2 := s1.allTransits .core (fun s t =>
    let s1 := t.binds.foldl (fun s b => s.refuseAt .core t b.slot .vacated 0) s
    s1.settleTransit .core { t with binds := [] })
  s2.emptyHold.retireOwn s.task.id

/-- Memberships are left (R168, R362). -/
def State.leaveAll (s : State) (asid : BitVec 11) (secure : Bool) (l : List Member) : State :=
  l.foldl (fun s m => s.leaveAs asid secure m) s

/-- Operations of the task on memory wharves that have not taken effect are discarded. -/
def State.dropMapOps (s : State) : State :=
  [0, 1, 2, 3].foldl (fun s d =>
    let w := WharfId.mem (BitVec.ofNat 2 d)
    let mine (o : MapOp) : Bool := o.own && o.task == s.task.id
    let gone := (s.wharf w).ops.filter mine
    let s1 := gone.foldl (fun s o => match o.tensor with
      | some t => s.unbindTensor t
      | none => s) s
    s1.setWharf w { s1.wharf w with ops := (s1.wharf w).ops.filter (fun o => !mine o) }) s

/-- Every claim of the core is released (R362). -/
def State.dropClaims (s : State) : State :=
  s.setClaims (s.mem.claims.filter (fun c => !(c.chip == s.chip && c.die == s.die && c.core == s.core)))

/-- The bound task is discarded at once (R362). -/
def State.dropTask (s : State) : State :=
  let s1 := s.eng.ops.foldl (fun s o => s.dropOp o) s
  let s2 := ({ s1 with eng := { s1.eng with ops := [] } }).dropMapOps
  let s3 := s2.dropClaims
  let s4 := s3.vacate.leaveAll s.asid s.taskSecure s.task.members
  s4.unbind

/-- A parked task is contained (R362): its record, with TVALUE, FAULTADDR and FAULTPC 0; its stopped operations and the maps of its
core wharf give up their tensors (R38), its maps at memory wharves are retired (R107), its memberships are left, and its frame is
free. -/
def State.dropParked (s : State) (p : Parked) (disp : Disp) (secure : Bool) (c : Cause) : State :=
  let task : Word64 := put (put (put (0 : Word64) 40 16 p.launch) 37 3 p.stage) 0 32 p.act
  let asid : BitVec 11 := (mget p.context.csr 0 9).setWidth 11
  let s1 := s.faultRecord secure disp c 0 0 0 .control task asid.toNat
  let s2 := p.context.eng.ops.foldl (fun s o => s.dropOp o) s1
  let s3 := (p.context.wharf.slots.filterMap (fun x => x.2.tensor)).foldl (fun s t => s.unbindTensor t) s2
  ((s3.retireOwn p.context.task.id).leaveAll asid p.secure p.context.task.members).setFrame p.secure p.frame false

/-- A launch is aborted (R362). -/
def State.abortLaunch (s : State) (n : Nat) (c : Cause) : State :=
  let s1 := (s.disp.parked.filter (fun p => p.launch == n)).foldl (fun s p =>
    s.dropParked p .aborted (p.secure || c.secureAlways || !s.pkg.deleg.getLsbD c.code.toNat) c) s
  let s2 := { s1 with disp := { s1.disp with parked := s1.disp.parked.filter (fun p => p.launch != n) } }
  match s2.launchOf n with
  | some l => s2.endLaunch l true
  | none => s2

/-- The bound task is contained and its launch aborted (R362). -/
def State.containTask (s : State) (c : Cause) (tv : Word64) (fa pc : Addr) (q : Seq) : State :=
  let n := s.taskLaunch
  let s1 := s.faultOfTask .contained c tv fa pc q
  s1.dropTask.abortLaunch n c

/-! The contained stop (R365). -/

/-- What the host or another chip asks of the package is no work in flight: it is refused or answered (R365). -/
def Pending.asked (p : Pending) : Bool :=
  [Instr.hostRequest, .pkgrstWrite, .reset, .spdmMessage, .lockInterface, .startInterface, .stopInterface, .powerRemoved, .peerWindowPacket].contains p.event ||
    (p.event == .homeAccess && p.input.flag2)

/-- Every core stops, all work in flight is discarded, and CSTOP tells the cause and the die. -/
def State.containedStop (s : State) (c : Cause) (die : BitVec 2) : State :=
  let s1 := s.faultRecord true .stop c 0 0 0 .control (s.csrOf 8) s.asid.toNat
  let s2 := s1.unbind
  let r := State.reset
  let stop : Word64 := put (put (put (0 : Word64) 63 1 1) 8 2 die.toNat) 0 6 c.code.toNat
  ({ s2 with
    agenda := s2.agenda.filter Pending.asked, mu := { s2.mu with storeQ := [], factor := [], releases := [] }, mem := { s2.mem with claims := [] }
    eng := r.eng, wharves := s2.wharves.map (fun (x : Nat × Wharf) => (x.1, { x.2 with transit := [], ops := [], logged := [] }))
    disp := { r.disp with next := s2.disp.next }
    pkg := { s2.pkg with stopped := true, fabric := [], colls := [], moving := none } }.setCfg 0x20 stop).emit (.msix 0 1)

/-! Parking (R340), refetch (R359) and rerun (R360). -/

/-- The records of a refetch list of a double buffer: that of the last commit. -/
def State.refetchList (s : State) (n : Nat) : Refetch := mget s.eng.refetch ⟨false, []⟩ (8 + n)
/-- The refetch list being made. -/
def State.refetchMade (s : State) (n : Nat) : Refetch := mget s.eng.refetch ⟨true, []⟩ n

/-- The double buffer whose front half holds a bank of issued addresses. -/
def State.frontHalf (s : State) (bank : Nat) : Option Nat :=
  (List.range 8).find? (fun n => dbufV (s.dbuf n) && dbufFb (s.dbuf n) ≤ bank && bank < dbufFb (s.dbuf n) + 2 ^ dbufNbl (s.dbuf n))

/-- A place of the back half of a double buffer where the last commit has put it: in the front half (R172). -/
def State.toFront (s : State) (n : Nat) (p : Place) : Option Place :=
  if s.backHalf (p.bit / 524288) == some n then some { p with bit := p.bit - 524288 * 2 ^ dbufNbl (s.dbuf n) } else none

/-- What is written of places: of those of the same bits, the last. -/
def lastPlaces (ps : List Place) : List Place :=
  ps.foldr (fun p acc => if acc.any (fun q => q.bit == p.bit) then acc else p :: acc) []

/-- The places at which a packet lands by a recorded map: a ring's by the descriptor and the slot of its landing. -/
def State.refetchPlaces (s : State) (m : RefetchMap) (p : Packet) : List Place :=
  let at_ : Option (Word64 × Nat) :=
    if mapKind m.map = 1 then (m.slots.find? (fun x => x.1 == p.c)).map (fun x => (x.2.1, x.2.2)) else some (0, 0)
  match at_ with
  | none => []
  | some (d, slot) =>
    if !mapMatches m.map p then []
    else
      let banks := if mapKind m.map = 1 then ringBanks d else s.mapBanks m.map
      let f := s.bankFmt (banks.headD 0)
      let w := fmtWidth f
      let bit (j k : Nat) : Nat × Nat := bitOfMap m.map w d slot (mapTarget m.map (p.coord j)) k
      let enc := encodePieces p.wfmt.toNat f p.rm.toNat p.satd (bankBlockSize w) ((List.range (boxSize p.n)).map (fun j =>
        let k := bankBlock w (bit j 0)
        p.piece j k.1 k.2))
      enc.elems.flatMap (fun (q, c) => placesOf (bit q.tag) w 0 c.code c.poison) ++ s.blockPlaces enc w

/-- A refetched operation (R359): its handle bound anew, its source read again, and the places of its packets; where a step fails, the
granules stay poisoned. -/
def State.refetchOp (s : State) (o : Refetched) : State × List Place :=
  match s.bindTensor s.die s.asid s.taskSecure (cpHandle o.img) (copyNamed o.img) with
  | .error _ => (s, [])
  | .ok (s1, ten) =>
    let (s2, ps) := (List.range (cpCount o.img)).foldl (fun (s, l) j =>
      match s.packetOf o.img (some ten) 0 j with
      | .error _ => (s, l)
      | .ok (s', p, _) => (s', l ++ o.maps.flatMap (fun m => s'.refetchPlaces m p))) (s1, ([] : List Place))
    (s2.unbindTensor ten, ps)

/-- The refetch of a double buffer's list: bytes of poisoned granules of its front half are written, and whole granules without poison
cleared (R359). -/
def State.refetch (s : State) (n : Nat) : State :=
  let (s1, ps) := (s.refetchList n).ops.foldl (fun (s, l) o => let (s1, ps) := s.refetchOp o; (s1, l ++ ps)) (s, ([] : List Place))
  s1.storePlaces (lastPlaces ((ps.filterMap (s1.toFront n)).filter (fun p => s1.scrPoison (p.bit / 8))))

/-- A phase is cancelled and rerun once; where it may not be, the task is contained (R178, R185, R360). -/
def State.rerun (s : State) (c : Cause) (q : Seq) (pc : Addr) (tv : Word64) (fa : Addr) : State :=
  let stat := s.csrOf 0xC
  if s.compat || stat.getLsbD 31 || stat.getLsbD 30 then s.containTask c tv fa pc q
  else (s.faultOfTask .rerun c tv fa pc q).cancelPhase true

/-- A save is asked for: its sequencers stop, and it takes place once its work has settled (R183, R364). -/
def State.askSave (s : State) (why : ParkWhy) (full : Bool) : State :=
  ({ s with disp := { s.disp with saving := some (why, full) } }).postOnce .taskSave

/-- A save stops copies between packets and matrix operations between K steps: that of a page fault, and any of a task in compatibility
mode (R184, R340); every other save waits for them (R183, R367). -/
def State.stopsEngines (s : State) : Bool :=
  match s.disp.saving with
  | some (why, full) => full && (why == .fault || s.compat)
  | none => false

/-- A page fault parks the task: from its commit state, or in a pinned phase with its whole context (R340, R185). -/
def State.park (s : State) (q : Seq) (pc : Addr) (tv : Word64) (fa : Addr) : State :=
  let s1 := s.faultOfTask .parked .pageAbsent tv fa pc q
  if s.compat || (s.csrOf 0xC).getLsbD 31 then s1.askSave .fault true
  else (s1.cancelPhase false).askSave .fault false

end Sys2Proof.Machine
end

