-- ==== Sys2Proof/Machine/Raise.lean ====
section
/-! DEFINITION. The way of every cause (R352): the handler, cancellation and rerun, parking, containment or the
contained stop; and the end of a meaning, which takes it. -/
namespace Sys2Proof.Machine

/-- A cause takes its disposition (R352): `pc` is FAULTPC. -/
def State.raise (s : State) (c : Cause) (q : Seq) (pc : Addr) (async : Bool) (tvalue : Word64) (addr : Addr) : State :=
  match c with
  | .pageAbsent => if s.inh then s.containedStop .machineCheck s.die else s.park q pc tvalue addr
  | .phaseCycles => s.rerun c q pc tvalue addr
  | .phaseSignature => s.rerun c q pc tvalue addr
  | .integrity => s.containTask c tvalue addr pc q
  | .thermalStop => s.containedStop c s.die
  | .dieLost => s.containedStop c s.die
  | .linkLost => s.containedStop c s.die
  | .replayExhausted => s.containedStop c s.die
  | .machineCheck => s.containedStop c s.die
  | _ =>
    if s.inh then s.containedStop .machineCheck s.die
    else if s.tvec (s.handlerWorld c) = 0 then s.containTask c tvalue addr pc q
    else { s with task := { s.task with launching := none } }.closeRegions.enter c q pc async tvalue addr

/-- POISON of a scratchpad granule that was already poisoned (R361): in a cancellable phase, where it lies in a front half with
a complete refetch list, the phase is cancelled, the half refetched and the phase rerun; else the handler. -/
def State.consume (s : State) (q : Seq) (pc : Addr) (async : Bool) (tvalue : Word64) (x : Nat) : State :=
  let plain := s.raise .poison q pc async tvalue (BitVec.ofNat 72 x)
  match s.frontHalf (x / 65536) with
  | none => plain
  | some n =>
    if s.inh || s.compat || (s.csrOf 0xC).getLsbD 31 || !(s.refetchList n).complete then plain
    else (s.rerun .poison q pc tvalue (BitVec.ofNat 72 x)).refetch n

/-- A cause that has arisen takes its way. -/
def State.applyHeld (s : State) (h : Held) : State :=
  match h.poison with
  | some x => s.consume h.seq h.pc h.async h.tvalue x
  | none => s.raise h.cause h.seq h.pc h.async h.tvalue h.addr

/-- A cause arises (R350): that of a sequencer before the control sequencer's turn takes its way at the cycle's end, since the words of the
same cycle at later issue positions issue all the same; of two, the one of the earlier position (log entry 77). -/
def State.arise (s : State) (h : Held) : State :=
  if h.seq != .control && s.cycle.defers then { s with cycle := { s.cycle with held := some (s.cycle.held.getD h) } } else s.applyHeld h

/-- A word or an issue boundary meets a cause other than the POISON of a scratchpad granule. -/
def State.take (s : State) (c : Cause) (q : Seq) (pc : Addr) (async : Bool) (tvalue : Word64) (addr : Addr) : State :=
  s.arise ⟨c, q, pc, async, tvalue, addr, none⟩

/-- In compatibility mode, where no phase is rerun, such poison is recorded only, and the word goes on (R185). -/
def State.recordsPoison (s : State) (x : Nat) : Bool :=
  s.compat && !s.inh && !(s.csrOf 0xC).getLsbD 31 && match s.frontHalf (x / 65536) with
    | some n => (s.refetchList n).complete
    | none => false

/-- The translation of an address, its cached entries left aside, meets a cause: its walk or the checks of its leaf do, or, after them, its
home has no key. -/
def State.translationMeets (s : State) (c : Cause) (addr : Addr) : Bool :=
  [Cause.notMapped, .pageAbsent, .permission, .world, .sealedStore, .keyAbsent].contains c && match s.walk s.asid addr with
  | .error e => e.1 == c
  | .ok l => c == .keyAbsent || [AccessKind.read, .write, .both, .fetch, .seal].any (fun k => checkLeaf l.leaf k s.sup s.secure == some c)

/-- A word whose cause comes from the translation of an address that the cache did not hold: the miss is counted all the same (R366). -/
def State.failedMiss (s : State) (q : Seq) (c : Cause) (addr : Addr) : State :=
  if (q == .control || addr == s.pcOf q) && !s.mu.tlb.any (fun t => t.covers s.asid addr) && s.translationMeets c addr then
    s.missed s.asid addr
  else s

/-- What a step gives (R350). -/
abbrev Result := Host.Outcome State Fault Refusal

/-- The end of a meaning of a word of sequencer `q`: its next state, the wait, or the way of its cause. -/
def finish (q : Seq) (s : State) (r : Res) : Result :=
  match r with
  | .ok t => .next { t with last := .done }
  | .wait t => .next { t with last := .waits }
  | .trap c tv fa => .next { (s.failedMiss q c fa).take c q (s.pcOf q) false tv fa with last := .raised c tv fa }
  | .late t d => .next { t.take d.cause q d.pc true d.tvalue d.addr with last := .raised d.cause d.tvalue d.addr }
  | .poisoned x go =>
    let fa : Addr := BitVec.ofNat 72 x
    let plain : Result := .next { s.arise ⟨.poison, q, s.pcOf q, false, 0, fa, some x⟩ with last := .raised .poison 0 fa }
    if !s.recordsPoison x then plain
    else match go with
      | .ok t => .next { t.faultOfTask .recorded .poison 0 (BitVec.ofNat 72 x) (s.pcOf q) q with last := .done }
      | .wait t => .next { t with last := .waits }
      | .trap c tv fa => .next { (s.failedMiss q c fa).take c q (s.pcOf q) false tv fa with last := .raised c tv fa }
      | .late t d => .next { t.take d.cause q d.pc true d.tvalue d.addr with last := .raised d.cause d.tvalue d.addr }
      | .poisoned _ _ => plain

/-- The end of a hardware event. -/
def occur (s : State) : Result := .next { s with last := .done }

end Sys2Proof.Machine
end

