-- ==== Sys2Proof/Machine/Scalar.lean ====
section
/-! DEFINITION. The integer, address, compare and select words of the control sequencer (R209 to R216). -/
namespace Sys2Proof.Machine

/-- gD takes a value and the control sequencer goes on (R207). -/
def writeG (d : BitVec 5) (v : Word64) (s : State) : Result := finish .control s (.ok ((s.setG d v).advance .control))
/-- aD takes a value and the control sequencer goes on. -/
def writeA (d : BitVec 5) (v : Addr) (s : State) : Result := finish .control s (.ok ((s.setA d v).advance .control))
/-- pD takes a value and the control sequencer goes on. -/
def writeP (d : BitVec 4) (v : Bool) (s : State) : Result :=
  finish .control s (.ok ((s.setPred .control d v).advance .control))

/-- The exact value clamped into the signed 64-bit range (R209). -/
def satS64 (x : Int) : Word64 := BitVec.ofInt 64 (max (-2 ^ 63) (min (2 ^ 63 - 1) x))
/-- Leading zero bits. -/
def clz64 (w : Word64) : Nat := if w = 0 then 64 else 63 - Nat.log2 w.toNat
/-- Trailing zero bits. -/
def ctz64 (w : Word64) : Nat := ((List.range 64).find? (fun i => w.getLsbD i)).getD 64
/-- One bits. -/
def popc64 (w : Word64) : Nat := ((List.range 64).filter (fun i => w.getLsbD i)).length

/-- Division (R210): quotient and remainder. -/
def divide (signed : Bool) (a b : Word64) : Word64 × Word64 :=
  if b = 0 then (BitVec.allOnes 64, a)
  else if signed then (BitVec.ofInt 64 (a.toInt.tdiv b.toInt), BitVec.ofInt 64 (a.toInt.tmod b.toInt))
  else (w64 (a.toNat / b.toNat), w64 (a.toNat % b.toNat))

def execAdd (d a b : BitVec 5) (s : State) : Result := writeG d (s.gReg a + s.gReg b) s
def execSub (d a b : BitVec 5) (s : State) : Result := writeG d (s.gReg a - s.gReg b) s
def execAnd (d a b : BitVec 5) (s : State) : Result := writeG d (s.gReg a &&& s.gReg b) s
def execOr (d a b : BitVec 5) (s : State) : Result := writeG d (s.gReg a ||| s.gReg b) s
def execXor (d a b : BitVec 5) (s : State) : Result := writeG d (s.gReg a ^^^ s.gReg b) s
def execAndn (d a b : BitVec 5) (s : State) : Result := writeG d (s.gReg a &&& ~~~(s.gReg b)) s
/-- Shift amounts are gB[5:0] (R209). -/
def amount (w : Word64) : Nat := w.toNat % 64
def execShl (d a b : BitVec 5) (s : State) : Result := writeG d (s.gReg a <<< amount (s.gReg b)) s
def execShr (d a b : BitVec 5) (s : State) : Result := writeG d (s.gReg a >>> amount (s.gReg b)) s
def execSra (d a b : BitVec 5) (s : State) : Result := writeG d ((s.gReg a).sshiftRight (amount (s.gReg b))) s
def execRol (d a b : BitVec 5) (s : State) : Result := writeG d ((s.gReg a).rotateLeft (amount (s.gReg b))) s
def execMul (d a b : BitVec 5) (s : State) : Result := writeG d (s.gReg a * s.gReg b) s
def execMulh (d a b : BitVec 5) (s : State) : Result :=
  writeG d (BitVec.ofInt 64 ((s.gReg a).toInt * (s.gReg b).toInt / 2 ^ 64)) s
def execMulhu (d a b : BitVec 5) (s : State) : Result := writeG d (w64 ((s.gReg a).toNat * (s.gReg b).toNat / 2 ^ 64)) s
def execDiv (d a b : BitVec 5) (s : State) : Result := writeG d (divide true (s.gReg a) (s.gReg b)).1 s
def execDivu (d a b : BitVec 5) (s : State) : Result := writeG d (divide false (s.gReg a) (s.gReg b)).1 s
def execRem (d a b : BitVec 5) (s : State) : Result := writeG d (divide true (s.gReg a) (s.gReg b)).2 s
def execRemu (d a b : BitVec 5) (s : State) : Result := writeG d (divide false (s.gReg a) (s.gReg b)).2 s
def execMin (d a b : BitVec 5) (s : State) : Result :=
  writeG d (if (s.gReg b).slt (s.gReg a) then s.gReg b else s.gReg a) s
def execMax (d a b : BitVec 5) (s : State) : Result :=
  writeG d (if (s.gReg a).slt (s.gReg b) then s.gReg b else s.gReg a) s
def execMinu (d a b : BitVec 5) (s : State) : Result :=
  writeG d (if (s.gReg b).ult (s.gReg a) then s.gReg b else s.gReg a) s
def execMaxu (d a b : BitVec 5) (s : State) : Result :=
  writeG d (if (s.gReg a).ult (s.gReg b) then s.gReg b else s.gReg a) s
def execAdds (d a b : BitVec 5) (s : State) : Result := writeG d (satS64 ((s.gReg a).toInt + (s.gReg b).toInt)) s
def execSubs (d a b : BitVec 5) (s : State) : Result := writeG d (satS64 ((s.gReg a).toInt - (s.gReg b).toInt)) s
def execClz (d a : BitVec 5) (s : State) : Result := writeG d (w64 (clz64 (s.gReg a))) s
def execCtz (d a : BitVec 5) (s : State) : Result := writeG d (w64 (ctz64 (s.gReg a))) s
def execPopc (d a : BitVec 5) (s : State) : Result := writeG d (w64 (popc64 (s.gReg a))) s
def execSextb (d a : BitVec 5) (s : State) : Result := writeG d (((s.gReg a).setWidth 8).signExtend 64) s
def execSexth (d a : BitVec 5) (s : State) : Result := writeG d (((s.gReg a).setWidth 16).signExtend 64) s
def execSextw (d a : BitVec 5) (s : State) : Result := writeG d (((s.gReg a).setWidth 32).signExtend 64) s
def execZextw (d a : BitVec 5) (s : State) : Result := writeG d (((s.gReg a).setWidth 32).setWidth 64) s

def execAddi (d a : BitVec 5) (i : BitVec 16) (s : State) : Result := writeG d (s.gReg a + i.signExtend 64) s
def execAndi (d a : BitVec 5) (i : BitVec 16) (s : State) : Result := writeG d (s.gReg a &&& i.setWidth 64) s
def execOri (d a : BitVec 5) (i : BitVec 16) (s : State) : Result := writeG d (s.gReg a ||| i.setWidth 64) s
def execXori (d a : BitVec 5) (i : BitVec 16) (s : State) : Result := writeG d (s.gReg a ^^^ i.setWidth 64) s
def execShli (d a : BitVec 5) (n : BitVec 6) (s : State) : Result := writeG d (s.gReg a <<< n.toNat) s
def execShri (d a : BitVec 5) (n : BitVec 6) (s : State) : Result := writeG d (s.gReg a >>> n.toNat) s
def execSrai (d a : BitVec 5) (n : BitVec 6) (s : State) : Result := writeG d ((s.gReg a).sshiftRight n.toNat) s
def execRoli (d a : BitVec 5) (n : BitVec 6) (s : State) : Result := writeG d ((s.gReg a).rotateLeft n.toNat) s
def execMovi (d : BitVec 5) (i : BitVec 21) (s : State) : Result := writeG d (i.signExtend 64) s
/-- gD with bits [16h+15:16h] replaced (R212). -/
def execMovk (d : BitVec 5) (h : BitVec 2) (c : BitVec 16) (s : State) : Result :=
  writeG d (put (s.gReg d) (16 * h.toNat) 16 c.toNat) s

/-- aD := gB[7:0] : gA (R213). -/
def execAset (d a b : BitVec 5) (s : State) : Result := writeA d ((s.gReg b).setWidth 8 ++ s.gReg a) s
def execAadd (d a b : BitVec 5) (s : State) : Result := writeA d (s.aReg a + (s.gReg b).signExtend 72) s
def execAsub (d a b : BitVec 5) (s : State) : Result := writeG d ((s.aReg a - s.aReg b).setWidth 64) s
def execAlo (d a : BitVec 5) (s : State) : Result := writeG d ((s.aReg a).setWidth 64) s
def execAhi (d a : BitVec 5) (s : State) : Result := writeG d ((s.aReg a >>> 64).setWidth 64) s
def execAand (d a b : BitVec 5) (s : State) : Result := writeA d (s.aReg a &&& (s.gReg b).signExtend 72) s
def execAmov (d a : BitVec 5) (s : State) : Result := writeA d (s.aReg a) s
def execAaddi (d a : BitVec 5) (i : BitVec 16) (s : State) : Result := writeA d (s.aReg a + i.signExtend 72) s

def execCmpEq (d : BitVec 4) (a b : BitVec 5) (s : State) : Result := writeP d (compare 0 (s.gReg a) (s.gReg b)) s
def execCmpNe (d : BitVec 4) (a b : BitVec 5) (s : State) : Result := writeP d (compare 1 (s.gReg a) (s.gReg b)) s
def execCmpLt (d : BitVec 4) (a b : BitVec 5) (s : State) : Result := writeP d (compare 2 (s.gReg a) (s.gReg b)) s
def execCmpGe (d : BitVec 4) (a b : BitVec 5) (s : State) : Result := writeP d (compare 3 (s.gReg a) (s.gReg b)) s
def execCmpLtu (d : BitVec 4) (a b : BitVec 5) (s : State) : Result := writeP d (compare 4 (s.gReg a) (s.gReg b)) s
def execCmpGeu (d : BitVec 4) (a b : BitVec 5) (s : State) : Result := writeP d (compare 5 (s.gReg a) (s.gReg b)) s
def execAcmpEq (d : BitVec 4) (a b : BitVec 5) (s : State) : Result := writeP d (s.aReg a == s.aReg b) s
def execAcmpLtu (d : BitVec 4) (a b : BitVec 5) (s : State) : Result := writeP d ((s.aReg a).ult (s.aReg b)) s
def execTst (d : BitVec 4) (a b : BitVec 5) (s : State) : Result := writeP d (s.gReg a &&& s.gReg b != 0) s
def execPand (d a b : BitVec 4) (s : State) : Result := writeP d (s.pred .control a && s.pred .control b) s
def execPor (d a b : BitVec 4) (s : State) : Result := writeP d (s.pred .control a || s.pred .control b) s
def execPxor (d a b : BitVec 4) (s : State) : Result := writeP d (s.pred .control a != s.pred .control b) s
def execPandn (d a b : BitVec 4) (s : State) : Result := writeP d (s.pred .control a && !s.pred .control b) s
/-- gD := the predicates, bit 0 reading 1 (R214). -/
def execPrd (d : BitVec 5) (s : State) : Result := writeG d ((s.seqs.control.p ||| 1).setWidth 64) s
/-- p1 to p15 := gA[15:1] (R214). -/
def execPwr (a : BitVec 5) (s : State) : Result :=
  finish .control s (.ok ((s.setSeq .control { s.seqs.control with
    p := put s.seqs.control.p 1 15 (fld (s.gReg a) 1 15) }).advance .control))
/-- Compare with a signed constant by condition, conditions 0 to 5 (R215). -/
def compareImm (cond : Nat) (d : BitVec 4) (a : BitVec 5) (i : BitVec 13) (s : State) : Result :=
  writeP d (compare cond (s.gReg a) (i.signExtend 64)) s
def execCmpiEq (d : BitVec 4) (a : BitVec 5) (i : BitVec 13) (s : State) : Result := compareImm 0 d a i s
def execCmpiNe (d : BitVec 4) (a : BitVec 5) (i : BitVec 13) (s : State) : Result := compareImm 1 d a i s
def execCmpiLt (d : BitVec 4) (a : BitVec 5) (i : BitVec 13) (s : State) : Result := compareImm 2 d a i s
def execCmpiGe (d : BitVec 4) (a : BitVec 5) (i : BitVec 13) (s : State) : Result := compareImm 3 d a i s
def execCmpiLtu (d : BitVec 4) (a : BitVec 5) (i : BitVec 13) (s : State) : Result := compareImm 4 d a i s
def execCmpiGeu (d : BitVec 4) (a : BitVec 5) (i : BitVec 13) (s : State) : Result := compareImm 5 d a i s
def execSel (d a b : BitVec 5) (n : BitVec 1) (p : BitVec 4) (s : State) : Result :=
  writeG d (if s.holds .control n p then s.gReg a else s.gReg b) s
def execAsel (d a b : BitVec 5) (n : BitVec 1) (p : BitVec 4) (s : State) : Result :=
  writeA d (if s.holds .control n p then s.aReg a else s.aReg b) s

end Sys2Proof.Machine
end

