-- ==== Sys2Proof/Machine/LoadStore.lean ====
section
/-! DEFINITION. Loads and stores of the control sequencer (R230 to R235), the events that carry its stores to their
homes (R140, R26, R128, R134) and bring answers back (R129, R25). -/
namespace Sys2Proof.Machine

/-- The refusal of a local home to a load of one granule, then the claim it takes (R25, R90, R148): the value and the
state with the claim. -/
def State.loadHome (s : State) (b : Bound) (n : Nat) (claim : Bool) : Except Refused (Nat × State) :=
  match s.readHome b b.pa n with
  | .error c => .error (c, 0)
  | .ok v =>
    if s.checked b && !leafSeal b.leaf then
      if claim then
        match s.takeClaim .control (s.granuleOf b) false with
        | .error e => .error e
        | .ok s' => .ok (v, s')
      else
        match s.claimRefusal .control (s.granuleOf b) false with
        | some e => .error e
        | none => .ok (v, s)
    else .ok (v, s)

/-- A request of the waiting word goes out; an access is counted by where its home lies (R366). -/
def State.ask (s : State) (b : Bound) (m : Message) : State :=
  let s1 := match m with
    | .group _ _ _ => s
    | .access _ _ 0 _ => s
    | _ => s.countAccess b
  let s2 := (s1.sendBound b .word).emit m
  { s2 with mu := { s2.mu with remote := .waiting (s.pcOf .control) s2.pkg.requests } }

/-- The answer of an outside home to the word at the control sequencer's program counter: asked for once, then waited
for (R25, R26); `k` takes its value. -/
def State.askOutside (s : State) (b : Bound) (m : Message) (k : State → Word64 → Res) (va : Addr) : Res :=
  let clear : State := { s with mu := { s.mu with remote := .idle } }
  let ask : Res := match s.hubRefusal b with
    | some c => .trap c 0 va
    | none => .wait (s.ask b m)
  match s.mu.remote with
  | .answered pc v refusal =>
    if pc = s.pcOf .control then
      match refusal with
      | some c => .trap c (if c = .race then v else 0) va
      | none => k clear v
    else ask
  | .waiting pc _ => if pc = s.pcOf .control then .wait s else ask
  | .idle => ask

/-- The scalar data cache may serve a load (R85, R150): it holds the line, and a checked page is sealed or its granule is held by a
shared claim of the region. -/
def State.cacheServes (s : State) (b : Bound) : Bool :=
  let g := s.granuleOf b
  s.lineHeld g && (!s.checked b || leafSeal b.leaf || (s.holdsClaim .control g && !s.holdsExcl .control g))

/-- A load of device memory as the counters and the scalar data cache see it, where `s0` is the state it met (R85, R366). -/
def State.cached (s : State) (s0 : State) (b : Bound) : State :=
  (if s0.cacheServes b then (s.countAccess b).count 14 1 else s.countRequest b).useLine (s.granuleOf b)

/-- A load of `n` bytes from the virtual byte space (R231, R233) once the earlier accesses that R140 orders before it have been
performed; `k` takes the value. Bytes past the eighth of an answer from outside are free values (log entry 3). -/
def State.loadVirtual (s : State) (ea : Addr) (n : Nat) (k : State → Nat → Res) : Res :=
  match s.bindAccess ea .read with
  | .error (c, tv) => .trap c tv ea
  | .ok (s1, b, _) =>
    if s1.pending b || !s1.opsPerformed then .wait s
    else if s1.target b.leaf = 0 then
      match s1.loadHome b n true with
      | .error (c, tv) => .trap c tv ea
      | .ok (v, s2) => k (s2.cached s1 b) v
    else
      let claims := s1.checked b && !leafSeal b.leaf
      if claims && s1.claimFull .control (s1.granuleOf b) then .trap .claimFull 0 ea
      else s1.askOutside b (.access false b n 0) (fun t v =>
        match (if claims then t.takeClaim .control (t.granuleOf b) false else .ok t) with
        | .error (c, tv) => .trap c tv ea
        | .ok t1 =>
          let (rest, t2) := t1.drawBytes (n - 8)
          k t2 (v.toNat + 2 ^ 64 * rest)) ea

/-- A load from the virtual byte space into gD, with the address update (R231). -/
def load (signed : Bool) (d a : BitVec 5) (m : BitVec 1) (sz : BitVec 2) (o : BitVec 9) (s : State) : Result :=
  finish .control s (
    match s.operand a (m.setWidth 2) sz 0 o with
    | none => .fail .fieldRange
    | some (ea, na) =>
      let n := accessBytes sz
      if ea.toNat % n != 0 then .fail .misalign
      else s.loadVirtual ea n (fun t v => .ok (((t.setA a na).setG d (extend signed n v)).advance .control)))

def execLd (d a : BitVec 5) (m : BitVec 1) (sz : BitVec 2) (o : BitVec 9) (s : State) : Result := load false d a m sz o s
def execLdx (d a : BitVec 5) (m : BitVec 1) (sz : BitVec 2) (o : BitVec 9) (s : State) : Result := load true d a m sz o s

/-- A store to the virtual byte space (R231, R233): its claim is asked for at once (R148), of a peer's home by a request of no
bytes; its data leaves later. -/
def execSt (d a : BitVec 5) (m : BitVec 1) (sz : BitVec 2) (o : BitVec 9) (s : State) : Result :=
  finish .control s (
    match s.operand a (m.setWidth 2) sz 0 o with
    | none => .fail .fieldRange
    | some (ea, na) =>
      let n := accessBytes sz
      if ea.toNat % n != 0 then .fail .misalign
      else match s.bindAccess ea .write with
        | .error (c, tv) => .trap c tv ea
        | .ok (s1, b, _) =>
          if 32 ≤ s.rowsTaken then .wait s
          else
            let done (t : State) : Res :=
              .ok ((((t.countRequest b).enqueueStore b n (s.gReg d) (s.tainted d) none).pin.setA a na).advance .control)
            let claim (t : State) : Res :=
              match t.takeClaim .control (t.granuleOf b) true with
              | .error (c, tv) => .trap c tv ea
              | .ok s2 => done s2
            if !s1.checked b then done s1
            else if s1.target b.leaf = 0 then claim s1
            else if s1.holdsExcl .control (s1.granuleOf b) then done s1
            else if s1.claimFull .control (s1.granuleOf b) then .trap .claimFull 0 ea
            else s1.askOutside b (.access true b 0 0) (fun t _ => claim t) ea)

/-! Scratchpad. -/

/-- A scratchpad access of a scalar word after its address: alignment, an absent bank, a held range (R231, R72, R84). -/
def State.scratchAccess (s : State) (ea : Addr) (n : Nat) (wr : Bool) (k : Nat → Res) : Res :=
  let x := fld ea 0 22
  if x % n != 0 then .fail .misalign
  else if !s.bankExists x then .trap .notMapped absentBank (BitVec.ofNat 72 x)
  else if s.scrHeld x n wr then .wait s
  else k x

/-- A scratchpad load (R231, R232, R90); one that goes on over poison takes a free value, and a store of it marks its granule (R89,
R185, log entry 42). -/
def scratchLoad (signed : Bool) (d a : BitVec 5) (m sz : BitVec 2) (r : BitVec 3) (o : BitVec 9) (s : State) : Result :=
  finish .control s (
    match s.operand a m sz r o with
    | none => .fail .fieldRange
    | some (ea, na) =>
      let n := accessBytes sz
      s.scratchAccess ea n false (fun x =>
        let load (t : State) (v : Nat) : Res := .ok (((t.setA a na).setG d (extend signed n v)).advance .control)
        if s.scrPoison x then
          let (v, t) := s.draw
          .poisoned x ((load t (v.toNat % 2 ^ (8 * n))).andOk (fun u => u.setTaint d))
        else load s (s.scrRead x n)))

def execSld (d a : BitVec 5) (m sz : BitVec 2) (r : BitVec 3) (o : BitVec 9) (s : State) : Result :=
  scratchLoad false d a m sz r o s
def execSldx (d a : BitVec 5) (m sz : BitVec 2) (r : BitVec 3) (o : BitVec 9) (s : State) : Result :=
  scratchLoad true d a m sz r o s
def execSst (d a : BitVec 5) (m sz : BitVec 2) (r : BitVec 3) (o : BitVec 9) (s : State) : Result :=
  finish .control s (
    match s.operand a m sz r o with
    | none => .fail .fieldRange
    | some (ea, na) =>
      let n := accessBytes sz
      s.scratchAccess ea n true (fun x =>
        let t := s.scrWrite x n (s.gReg d).toNat
        .ok (((if s.tainted d then t.setScrPoison x true else t).setA a na).advance .control)))

/-! Timed accesses (R127 to R136, R234, R235). -/

/-- The skew bound of a scope: 0 die, 1 pkg, 2 pod (R125). -/
def skew (scope : Nat) : Nat := if scope = 0 then 0 else if scope = 1 then 4 else 160

/-- The checks of R127 at the effective scope. -/
def State.timedRefusal (s : State) (b : Bound) (scope : Nat) (t : Word64) : Option Cause :=
  if 2 ≤ s.target b.leaf then some .atomicTarget
  else if scope = 2 && !s.locked then some .clockUnlocked
  else if s.clk.toNat + 2 ^ 28 < t.toNat then some .fieldRange
  else none

/-- The effective scope of a timed access (R127). -/
def State.effectiveScope (s : State) (b : Bound) (declared : BitVec 2) : Nat := max declared.toNat (s.homeScope b)

def execStDue (d a : BitVec 5) (c sz : BitVec 2) (l : BitVec 1) (t : BitVec 5) (g : BitVec 6) (s : State) : Result :=
  finish .control s (
    let ea := s.aReg a
    let n := accessBytes sz
    if ea.toNat % n != 0 then .fail .misalign
    else match s.bindAccess ea .write with
      | .error (c, tv) => .trap c tv ea
      | .ok (s1, b, _) =>
        let scope := s1.effectiveScope b c
        match s1.timedRefusal b scope (s.gReg t) with
        | some c => .fail c
        | none =>
          if l = 1#1 && s.tagPending g.toNat then .fail .tagBusy
          else if 16 ≤ (s.mu.storeQ.filter (fun r => r.timed.isSome)).length || 32 ≤ s.rowsTaken then .wait s
          else
            let tag := if l = 1#1 then some g else none
            let s2 := if l = 1#1 then s1.tagIssue g.toNat else s1
            s.withDeferred (.ok
              ((((s2.countRequest b).enqueueStore b n (s.gReg d) (s.tainted d) (some ⟨s.gReg t, scope, tag⟩)).pin.closeRegion .control).advance
                .control)))

/-- A not-before load asks its home once, a peer's after the earlier accesses to the granule have been performed, then waits for its
value (R129, R140, R235). -/
def execLdNb (d a : BitVec 5) (c sz : BitVec 2) (x : BitVec 1) (t : BitVec 5) (s : State) : Result :=
  finish .control s (
    let ea := s.aReg a
    let n := accessBytes sz
    if ea.toNat % n != 0 then .fail .misalign
    else match s.bindAccess ea .read with
      | .error (c, tv) => .trap c tv ea
      | .ok (s1, b, _) =>
        let done (u : State) (v : Word64) : Res :=
          .ok (((u.setG d (extend (x == 1#1) n v.toNat)).closeRegion .control).advance .control)
        let answer : Option (Word64 × Option Cause) := match s.mu.remote with
          | .answered pc v refusal => if pc = s.pcOf .control then some (v, refusal) else none
          | _ => none
        let waits : Bool := match s.mu.remote with
          | .waiting pc _ => pc == s.pcOf .control
          | _ => false
        match answer with
        | some (v, some c) => .trap c (if c = .race then v else 0) ea
        | some (v, none) => done { s with mu := { s.mu with remote := .idle } } v
        | none =>
          if waits then .wait s
          else match s1.timedRefusal b (s1.effectiveScope b c) (s.gReg t) with
          | some c => .fail c
          | none => s.withDeferred (
            if !s1.opsPerformed || s1.barred b || (s1.target b.leaf != 0 && s1.pending b) then .wait s
            else if s1.target b.leaf = 0 then
              let s2 := (s1.countRequest b).number
              .wait { s2 with
                mu := { s2.mu with remote := .waiting (s.pcOf .control) s2.pkg.requests, notBefore := some (b, n, s.gReg t, s2.pkg.requests) } }
            else .wait (s1.ask b (.notBefore b n (s.gReg t)))))

/-- The answer to the request of a number reaches the control sequencer, if that is what it waits for: its value or its refusal (R25, R26).
Another is discarded (R378). -/
def State.answer (s : State) (id : Nat) (v : Word64) (refusal : Option Cause) : State :=
  match s.mu.remote with
  | .waiting pc n => if n = id then { s with mu := { s.mu with remote := .answered pc v refusal } } else s
  | _ => s

/-- The home performs a not-before load in the first tick of its clock at which it may (R129, R130). -/
def State.performNotBefore (s : State) : State :=
  match s.mu.notBefore with
  | none => s
  | some (b, n, t, id) =>
    if (s.clkOf (s.homeDie b.ver b.pa)).toNat < t.toNat || s.pendingBefore s.task.id s.mu.nextId (s.granuleOf b) then s
    else
      let s1 := { s with mu := { s.mu with notBefore := none } }
      match s.loadHome b n false with
      | .ok (v, _) => s1.answer id (w64 v) none
      | .error (c, tv) => s1.answer id tv (some c)

def execNotBeforePerform (s : State) : Result := occur s.performNotBefore

/-! The way of a store. -/

/-- A refused store waits to be raised on its sequencer (R26); a late-fault tag is set whatever the refusal (R132). -/
def State.refuseStore (s : State) (r : StoreRow) (c : Cause) (tv : Option Word64) : State :=
  let s := match r.timed.bind (fun t => t.tag) with
    | some g => s.tagDoneOf r.task g.toNat
    | none => s
  let d : Deferred := ⟨c, r.pc, r.bound.va, tv.getD (w64 r.row)⟩
  if s.isBound r.task then { s with mu := { s.mu with deferred := s.mu.deferred ++ [d] } }
  else { s with disp := { s.disp with parked := s.disp.parked.map (fun p =>
    if p.context.task.id == r.task then { p with context := { p.context with deferred := p.context.deferred ++ [d] } } else p) } }

/-- What a store to a home outside the package sends. -/
def StoreRow.message (r : StoreRow) : Message :=
  match r.timed with
  | none => .access true r.bound r.size (r.data.toNat % 2 ^ (8 * r.size) + 2 ^ (8 * r.size) * r.poison.toNat)
  | some t => .timed r.bound r.size (r.data.toNat % 2 ^ (8 * r.size) + 2 ^ (8 * r.size) * r.poison.toNat) t

/-- The state without a row, and without the claims of closed regions that only it held. -/
def State.removeRow (s : State) (r : StoreRow) : State :=
  (s.setStoreQ (s.mu.storeQ.filter (fun x => x.id != r.id))).releaseClosed
/-- The state with a row at a place. -/
def State.placeRow (s : State) (r : StoreRow) (p : StoreAt) : State :=
  s.setStoreQ (s.mu.storeQ.map (fun x => if x.id = r.id then { x with place := p } else x))

/-- The oldest row in the store queue may leave it: every earlier store and factor operation of its sequencer is acknowledged at die
scope, or, before a timed store, at its effective scope, with the claims of the regions before it released (R128, R140, R147). -/
def State.mayDepart (s : State) (r : StoreRow) : Bool :=
  match r.timed with
  | none => s.ackedBefore r.task r.id 0
  | some t => s.ackedBefore r.task r.id t.scope && !s.closedBefore r.id

/-- The oldest row that has not left the store queue leaves it as soon as it may. -/
def execStoreQueueDepart (s : State) : Result :=
  occur (
    match s.mu.storeQ.find? (fun r => r.place == .queued) with
    | none => s
    | some r =>
      if !s.mayDepart r then s
      else if s.target r.bound.leaf = 0 then (s.placeRow r .sent).kick
      else match s.hubRefusal r.bound with
        | some c => ((s.removeRow r).refuseStore r c none).kick
        | none => (((s.placeRow r .sent).sendBound r.bound (.store r.id)).emit r.message).kick)

/-- The home performs a row's write, or refuses it; the line that the core's scalar data cache holds of it stays (R85). -/
def State.performStore (s : State) (r : StoreRow) : State :=
  let race := if r.timed.isSome && s.checked r.bound then s.claimRefusal .control (s.granuleOf r.bound) true else none
  match race with
  | some (c, tv) => s.refuseStore r c (some tv)
  | none =>
    match s.writeHome r.bound r.bound.pa r.size r.data.toNat with
    | .error c => s.refuseStore r c none
    | .ok s1 =>
      let s2 : State := { s1 with mu := { s1.mu with lines := s.mu.lines } }
      let s3 := if r.poison then s2.poisonAt r.bound else s2
      match r.timed.bind (fun t => t.tag) with
      | some g => s3.tagDoneOf r.task g.toNat
      | none => s3

/-- A row may be performed at its home in the package: the home has admitted it or admits it, and no earlier access of its sequencer to
its granule waits there (R130, R140, R393). -/
def State.atHome (s : State) (r : StoreRow) : Bool :=
  s.target r.bound.leaf == 0 && (r.place == .timedBuffer || !s.barred r.bound) && !s.pendingBefore r.task r.id (s.granuleOf r.bound)

/-- An access of another chip at its home here, of at most 8 bytes: the request carries its chip, ASID, world and key slot, the leaf's KEY
(R25, R395). -/
def State.servePeer (s : State) (i : Input) : State :=
  let chip := BitVec.ofNat 10 i.n
  let n := min (max (fld i.w 0 4) 1) 8
  let b : Bound := ⟨0, i.asid, i.w.getLsbD 8, BitVec.ofNat 128 i.data, i.addr.toNat, s.ilvCur⟩
  let answer (t : State) (v : Nat) (c : Option Cause) : State := t.emit (.served chip i.req v c)
  if s.pkg.stopped then answer s 0 (some .containedStop)
  else match s.refusalOf chip b b.pa i.flag, s.cellOf b.ver b.pa with
    | some c, _ => answer s 0 (some c)
    | none, none => answer s 0 (some .notMapped)
    | none, some c =>
      if i.flag then answer (s.writeCell c n i.v.toNat (s.slotEpoch (leafKey b.leaf))) 0 none
      else if (s.granule c).poison then answer s 0 (some .poison)
      else answer s (if (s.granule c).owner = none then 0 else getBytes s.cell c n) none

/-- The home access of the oldest store on its way that may be performed: performed or refused, then acknowledged (R138, R26); with `flag2`
that of another chip. -/
def execHomeAccess (s : State) : Result :=
  occur (
    if s.input.flag2 then s.servePeer s.input
    else match s.mu.storeQ.find? (fun r => r.place == .sent && r.timed.isNone && s.atHome r) with
    | none => s
    | some r => ((s.removeRow r).performStore r).kick)

/-- LATE after a late store (R132). -/
def lateUpdate (late : Word64) (scope : Nat) (by_ : Nat) (counted : Bool) : Word64 :=
  let bit := if scope = 2 then 38 else if scope = 1 then 37 else 36
  let l := putBit late bit true
  let l := put l 0 32 (max (fld late 0 32) (min by_ (2 ^ 32 - 1)))
  if counted then put l 40 24 (min (fld late 40 24 + 1) (2 ^ 24 - 1)) else l

/-- A timed store is late by `n` ticks: LATE takes it; under late-fault it is not performed, its tag is set and LATEMASK shows it
(R128, R132). -/
def State.late (s : State) (r : StoreRow) (t : Timed) (n : Nat) : State :=
  let l := s.setTaskCsr r.task 0x12 (fun w => lateUpdate w t.scope n t.tag.isNone)
  match t.tag with
  | none => l
  | some g => (l.tagDoneOf r.task g.toNat).setTaskCsr r.task 0x13 (fun w => putBit w g.toNat true)

/-- The answer of an outside home to the store of a number: performed, refused with a cause, or late by the ticks given (R26, R128,
R132); with `flag2` it says of a timed store that it has arrived in the home's timed buffer (R136). -/
def execStoreAck (s : State) : Result :=
  occur (
    match s.mu.storeQ.find? (fun r => r.place != .queued && s.target r.bound.leaf != 0 && r.id == s.input.n) with
    | none => s
    | some r =>
      if s.input.flag2 then (if r.timed.isSome then (s.placeRow r .timedBuffer).kick else s)
      else
      let s1 := (s.removeRow r).answered (.store r.id)
      let s2 := match s.input.cause, r.timed with
        | some c, _ => s1.refuseStore r c (if c = Cause.race then some s.input.v else none)
        | none, none => s1
        | none, some t =>
          if s.input.flag then s1.late r t s.input.w.toNat
          else match t.tag with
            | some g => s1.tagDoneOf r.task g.toNat
            | none => s1
      s2.kick)

/-- A tick of the home of a local access. -/
def State.homeClk (s : State) (b : Bound) : Nat := (s.clkOf (s.homeDie b.ver b.pa)).toNat

/-- The timed buffer of the home slice of an access holds 1,024 stores (R128). -/
def State.bufferFull (s : State) (b : Bound) : Bool :=
  1024 ≤ (s.mu.storeQ.filter (fun r => r.place == .timedBuffer && s.target r.bound.leaf == 0 && s.homeDie r.bound.ver r.bound.pa == s.homeDie b.ver b.pa &&
    homeSlice r.bound.pa == homeSlice b.pa)).length

/-- The home of a timed store takes it: it lies in the package, admits it, and has room (R128, R393). -/
def State.arrives (s : State) (b : Bound) : Bool := s.target b.leaf == 0 && !s.barred b && !s.bufferFull b

/-- A timed store enters the timed buffer behind those that have arrived. -/
def State.buffer (s : State) (r : StoreRow) : State :=
  s.setStoreQ (s.mu.storeQ.filter (fun x => x.id != r.id) ++ [{ r with place := .timedBuffer }])

/-- A timed store arrives at its home: on time, late, or refused for lock (R128, R132, R134). One that is not due, or that waits behind
an earlier access of its sequencer to the granule, waits in the timed buffer (R130). -/
def execTimedStoreArrival (s : State) : Result :=
  occur (
    match s.mu.storeQ.find? (fun r => r.place == .sent && r.timed.isSome && s.arrives r.bound) with
    | none => s
    | some r =>
      match r.timed with
      | none => s
      | some t =>
        let a := s.homeClk r.bound
        let due := t.due.toNat
        let s2 :=
          if t.scope = 2 && !s.locked then (s.removeRow r).refuseStore r .clockUnlocked none
          else if a ≤ due + skew t.scope then
            if a < due || !s.atHome r then s.buffer r else (s.removeRow r).performStore r
          else match t.tag with
            | some _ => (s.removeRow r).late r t (a - due - skew t.scope)
            | none =>
              let l := s.late r t (a - due - skew t.scope)
              if s.atHome r then (l.removeRow r).performStore r else l.buffer r
        s2.kick)

/-- The oldest store of the homes' timed buffers that is due and waits behind nothing (R128, R130). -/
def State.dueStore (s : State) : Option StoreRow :=
  s.mu.storeQ.find? (fun r => r.place == .timedBuffer && s.atHome r && r.timed.any (fun t => decide (t.due.toNat ≤ s.homeClk r.bound)))

/-- The stores of the timed buffers that are due are performed, in the order of their arrival, at most `n`. -/
def State.performDue (s : State) : Nat → State
  | 0 => s
  | n + 1 => match s.dueStore with
    | none => s
    | some r => ((s.removeRow r).performStore r).performDue n

/-- The timed stores of the homes' buffers that are due in this tick are performed (R128, R130). -/
def execTimedStoreDue (s : State) : Result :=
  occur (if s.dueStore.isNone then s else (s.performDue s.mu.storeQ.length).kick)

end Sys2Proof.Machine
end

