-- ==== Sys2Proof/Machine/Atomic.lean ====
section
/-! DEFINITION. Atomics (R142, R236, R237), fences (R141, R238), seals (R239) and claim inspection (R240). -/
namespace Sys2Proof.Machine

/-- The operations of R236 on 8n-bit values: 0 add, 1 and, 2 or, 3 xor, 4 min, 5 max, 6 minu, 7 maxu, 8 swap, 9 cas. -/
def amoNew (k n old x cmp : Nat) : Nat :=
  let m := 2 ^ (8 * n)
  match k with
  | 0 => (old + x) % m
  | 1 => old &&& x
  | 2 => old ||| x
  | 3 => old ^^^ x
  | 4 => if signedCode (8 * n) x < signedCode (8 * n) old then x else old
  | 5 => if signedCode (8 * n) old < signedCode (8 * n) x then x else old
  | 6 => min old x
  | 7 => max old x
  | 8 => x
  | _ => if old = cmp then x else old

/-- The atomic at its home: the refusals, POISON and RACE before any change (R237). -/
def State.amoHome (s : State) (b : Bound) (k n x cmp : Nat) : Except Refused (Nat × State) :=
  match s.homeRefusal b b.pa true with
  | some c => .error (c, 0)
  | none =>
    match s.readHome b b.pa n with
    | .error c => .error (c, 0)
    | .ok old =>
      match (if s.checked b then s.claimRefusal .control (s.granuleOf b) true else none) with
      | some e => .error e
      | none =>
        let new := amoNew k n old x cmp
        if k = 9 && new = old then .ok (old, s)
        else match s.writeHome b b.pa n new with
          | .ok s' => .ok (old, s')
          | .error c => .error (c, 0)

/-- An atomic of operation `k` (R237), once every earlier factor operation, which counts as an atomic, and the earlier accesses to its granule have been performed and every earlier store and factor
operation is acknowledged at die scope (R140), and, for .rel and .acqrel, after the waits of Fence(scope) and the release of the region's
claims (R142, R147). A cause of its own is raised before a refusal of an earlier store: the model's choice (log entry 69). -/
def amo (k : Nat) (d a b : BitVec 5) (o c : BitVec 2) (w : BitVec 1) (s : State) : Result :=
  finish .control s (
    let ea := s.aReg a
    let n := 4 * (1 + w.toNat)
    if ea.toNat % n != 0 then .fail .misalign
    else match s.bindAccess ea .both with
      | .error (c, tv) => .trap c tv ea
      | .ok (s1, bd, _) =>
        if 2 ≤ s1.target bd.leaf || c.toNat < s1.homeScope bd then .fail .atomicTarget
        else if s1.pending bd || !s1.opsPerformed || !s1.acked 0 || (2 ≤ o.toNat && !s1.quiet c.toNat) then .wait s
        else s.withDeferred (
          let s1 := if 2 ≤ o.toNat then s1.closeRegion .control else s1
          let done (t : State) (v : Nat) : Res :=
            let t := t.setG d (w64 (v % 2 ^ (8 * n)))
            .ok ((if o = 0 then t.pin else t.pin.closeRegion .control).advance .control)
          let x := (s.gReg b).toNat % 2 ^ (8 * n)
          let cmp := (s.gReg d).toNat % 2 ^ (8 * n)
          if s1.target bd.leaf = 0 then
            match s1.amoHome bd k n x cmp with
            | .error (c, tv) => .trap c tv ea
            | .ok (v, s2) => done ((s2.countRequest bd).useLine (s2.granuleOf bd)) v
          else s1.askOutside bd (.atomic k bd n x cmp) (fun t v => done t v.toNat) ea))

def execAmoAdd (d a b : BitVec 5) (o c : BitVec 2) (w : BitVec 1) (s : State) : Result := amo 0 d a b o c w s
def execAmoAnd (d a b : BitVec 5) (o c : BitVec 2) (w : BitVec 1) (s : State) : Result := amo 1 d a b o c w s
def execAmoOr (d a b : BitVec 5) (o c : BitVec 2) (w : BitVec 1) (s : State) : Result := amo 2 d a b o c w s
def execAmoXor (d a b : BitVec 5) (o c : BitVec 2) (w : BitVec 1) (s : State) : Result := amo 3 d a b o c w s
def execAmoMin (d a b : BitVec 5) (o c : BitVec 2) (w : BitVec 1) (s : State) : Result := amo 4 d a b o c w s
def execAmoMax (d a b : BitVec 5) (o c : BitVec 2) (w : BitVec 1) (s : State) : Result := amo 5 d a b o c w s
def execAmoMinu (d a b : BitVec 5) (o c : BitVec 2) (w : BitVec 1) (s : State) : Result := amo 6 d a b o c w s
def execAmoMaxu (d a b : BitVec 5) (o c : BitVec 2) (w : BitVec 1) (s : State) : Result := amo 7 d a b o c w s
def execAmoSwap (d a b : BitVec 5) (o c : BitVec 2) (w : BitVec 1) (s : State) : Result := amo 8 d a b o c w s
def execAmoCas (d a b : BitVec 5) (o c : BitVec 2) (w : BitVec 1) (s : State) : Result := amo 9 d a b o c w s

/-! Fences (R141): fence.core acknowledges as fence.die. -/

/-- A fence of a scope, 0 die, 1 pkg or 2 pod: its waits, then its region closes (R141). -/
def fence (scope : Nat) (s : State) : Result :=
  finish .control s (s.fenced scope (fun t => .ok ((t.closeRegion .control).advance .control)))

def execFenceCore (s : State) : Result := fence 0 s
def execFenceDie (s : State) : Result := fence 0 s
def execFencePkg (s : State) : Result := fence 1 s
def execFencePod (s : State) : Result := fence 2 s
/-- ffence waits for every factor operation's result, and, as refusals of earlier stores are raised on it, for their acknowledgement at
die scope; then it closes the region (R245, R26). -/
def execFfence (s : State) : Result :=
  finish .control s (if !s.ownOps.isEmpty || !s.acked 0 then .wait s
    else s.withDeferred (.ok ((s.closeRegion .control).advance .control)))

/-! Seals (R239). -/

/-- A claim of another region on a block of the page that a seal meets: its block index, if any. -/
def State.sealRace (s : State) (cell : Nat) : Option (Nat × List Claim) :=
  ((List.range 32).find? (fun i => !(s.conflicts .control (cell / 4096 + i) true true).isEmpty)).map
    (fun i => (i, s.conflicts .control (cell / 4096 + i) true true))

/-- SEAL is set or cleared in a leaf by the compare-and-swap of R28: a compare that fails restarts the walk, with its checks. -/
def State.putSeal (s : State) (on : Bool) (va : Addr) (t : TlbEntry) : Except Refused State :=
  match s.dirty s.asid va .seal s.sup s.secure t with
  | .error e => .error e
  | .ok (s1, t1) =>
    match s1.readTable t1.entry 16 with
    | .error c => .error (c, 0)
    | .ok v =>
      if v = t1.leaf.toNat then .ok (s1.writeTable t1.entry 16 (putBit t1.leaf 8 on).toNat)
      else match (s1.setTlb (s1.mu.tlb.filter (fun x => x != t1))).walkAndFill s.asid va .seal s.sup s.secure with
        | .error e => .error e
        | .ok (s2, t2) => .ok (s2.writeTable t2.entry 16 (putBit t2.leaf 8 on).toNat)

/-- seal and unseal (R239); a page that is sealed already, or that is not, is left as it is. -/
def sealOrUnseal (on : Bool) (a : BitVec 5) (s : State) : Result :=
  finish .control s (
    let ea := s.aReg a
    match s.leafFor s.asid ea .seal s.sup s.secure with
    | .error (c, tv) => .trap c tv ea
    | .ok (s1, t) =>
      if s1.target t.leaf = 0 && (s1.cellOf s1.ilvCur (leafAddress t.leaf t.level ea)).isNone then
        .trap .notMapped (walkTvalue t.level 4) ea
      else if t.level != 0 then .fail .fieldRange
      else if s1.target t.leaf != 0 then .fail .atomicTarget
      else if !s1.quiet 2 then .wait s
      else s.withDeferred (
        let s2 := s1.closeRegion .control
        let done (u : State) : Res := .ok (u.pin.advance .control)
        if leafSeal t.leaf == on then done s2
        else match s2.cellOf s2.ilvCur (leafFrame t.leaf * 2 ^ 17) with
          | none => .trap .notMapped (walkTvalue t.level 4) ea
          | some cell =>
            match (if on then s2.sealRace cell else none) with
            | some (i, cs) => .trap .race (raceTvalue cs true i 0) ea
            | none =>
              let s3 : State := { s2 with mem := { s2.mem with sealed := mset s2.mem.sealed false (cell / 2 ^ 17) on } }
              match s3.putSeal on ea t with
              | .error (c, tv) => .trap c tv ea
              | .ok s4 => done (s4.invalVa s.asid ea)))

def execSealPage (a : BitVec 5) (s : State) : Result := sealOrUnseal true a s
def execUnsealPage (a : BitVec 5) (s : State) : Result := sealOrUnseal false a s

/-- clmq (R240). -/
def execClmq (d a : BitVec 5) (s : State) : Result :=
  finish .control s (
    let ea := s.aReg a
    match s.bindAccess ea .read with
    | .error (c, tv) => .trap c tv ea
    | .ok (s1, b, _) =>
      let chk := leafChk b.leaf
      if !s1.checked b || leafSeal b.leaf then
        .ok ((s1.setG d (putBit (0 : Word64) 5 chk)).advance .control)
      else if s1.target b.leaf = 0 then
        let g := s1.granuleOf b
        let others := s1.conflicts .control g false true
        let own := (s1.ownClaims .control).filter (fun c => !c.block && c.unit == g)
        let v := putBit (putBit (putBit (putBit (putBit (putBit (0 : Word64) 5 chk) 4 (others.any (fun c => c.excl)))
          3 (others.any (fun c => !c.excl))) 2 (others.any (fun c => c.block))) 1 (own.any (fun c => c.excl))) 0 (!own.isEmpty)
        .ok ((s1.setG d v).advance .control)
      else s1.askOutside b (.access false b 0 0) (fun t v =>
        .ok ((t.setG d (putBit (v &&& 0x1F) 5 chk)).advance .control)) ea)

end Sys2Proof.Machine
end

