-- ==== Sys2Proof/Machine/Branch.lean ====
section
/-! DEFINITION. Branches, calls, loop closes, loop counters and modulo registers (R217 to R222), in the forms of the
control sequencer, the X slot and the load and store sequencers (R304). -/
namespace Sys2Proof.Machine

def execNop (s : State) : Result := finish .control s (.ok (s.advance .control))

def execBr (n : BitVec 1) (p : BitVec 4) (o : BitVec 21) (s : State) : Result :=
  finish .control s (.ok (s.branch .control n p o))
/-- A taken call first writes a15 := PC + 4 (R217). -/
def execCall (n : BitVec 1) (p : BitVec 4) (o : BitVec 21) (s : State) : Result :=
  finish .control s (.ok (if s.holds .control n p then
    (s.setPc .control (s.branchTarget .control o)).setA 15 (s.nextPc .control) else s.advance .control))
def execJmp (a : BitVec 5) (s : State) : Result :=
  finish .control s (if fld (s.aReg a) 0 2 = 0 then .ok (s.setPc .control (s.aReg a)) else .fail .misalign)
/-- The target is read before a15 is written (R218). -/
def execCallr (a : BitVec 5) (s : State) : Result :=
  finish .control s (if fld (s.aReg a) 0 2 = 0 then
    .ok ((s.setPc .control (s.aReg a)).setA 15 (s.nextPc .control)) else .fail .misalign)
def execLoop (r : BitVec 1) (c : BitVec 2) (o : BitVec 21) (s : State) : Result :=
  finish .control s (.ok (s.loopClose .control r c o))
/-- A count of 0 or above 2^32 raises FIELD_RANGE (R220). -/
def execLcset (i : BitVec 1) (c : BitVec 2) (a : BitVec 5) (d : BitVec 3) (s : State) : Result :=
  let n := (s.gReg a).toNat
  finish .control s (if n = 0 || 2 ^ 32 < n then .fail .fieldRange
    else .ok ((s.loopSet .control i c n d).advance .control))
/-- The immediate form on any sequencer that has it (R220). -/
def lcsetImm (q : Seq) (i : BitVec 1) (c : BitVec 2) (d : BitVec 3) (n : BitVec 13) (s : State) : Res :=
  if n = 0 then .fail .fieldRange else .ok ((s.loopSet q i c n.toNat d).advance q)
def execLcseti (i : BitVec 1) (c : BitVec 2) (d : BitVec 3) (n : BitVec 13) (s : State) : Result :=
  finish .control s (lcsetImm .control i c d n s)
/-- mD := (BASE gA, LEN gB), within the scratchpad (R222). -/
def execMset (m : BitVec 3) (a b : BitVec 5) (s : State) : Result :=
  let base := (s.gReg a).toNat
  let len := (s.gReg b).toNat
  finish .control s (if 2 ^ 22 ≤ base || len = 0 || 2 ^ 22 < base + len then .fail .fieldRange
    else .ok ((s.setM m (w64 (len * 2 ^ 32 + base))).advance .control))
def execMrd (d : BitVec 5) (m : BitVec 3) (s : State) : Result := writeG d (s.mReg m) s
/-- A loop counter as lcrd reads it (R219). -/
def lcWord (l : LoopCounter) : Word64 := w64 (l.drain.toNat * 2 ^ 32 + l.rem.toNat)
def execLcrd (d : BitVec 5) (c : BitVec 2) (s : State) : Result := writeG d (lcWord (s.lcOf .control c)) s
def execLcwr (c : BitVec 2) (a : BitVec 5) (s : State) : Result :=
  let v := s.gReg a
  finish .control s (if fld v 35 29 != 0 then .fail .fieldRange
    else .ok ((s.setLc .control c ⟨v.setWidth 32, BitVec.ofNat 3 (fld v 32 3)⟩).advance .control))

/-! The X slot: the group's program counter moves here (R191, R217). -/

def execXNop (s : State) : Result := finish .compute s (.ok (s.advance .compute))
def execXBr (n : BitVec 1) (p : BitVec 4) (o : BitVec 21) (s : State) : Result :=
  finish .compute s (.ok (s.branch .compute n p o))
def execXLoop (r : BitVec 1) (c : BitVec 2) (o : BitVec 21) (s : State) : Result :=
  finish .compute s (.ok (s.loopClose .compute r c o))
def execXLcseti (i : BitVec 1) (c : BitVec 2) (d : BitVec 3) (n : BitVec 13) (s : State) : Result :=
  finish .compute s (lcsetImm .compute i c d n s)

/-! The V and M slots' nops: the group's X slot moves the program counter. -/

def execVNop (s : State) : Result := finish .compute s (.ok s)
def execMNop (s : State) : Result := finish .compute s (.ok s)

/-! The load and store sequencers. -/

/-- The sequencer that issues an engine word: that of the turn, load unless it is the store sequencer's (R196). -/
def State.engineSeq (s : State) : Seq :=
  match s.turn with
  | .seq .store => .store
  | _ => .load

def execENop (s : State) : Result := finish s.engineSeq s (.ok (s.advance s.engineSeq))
def execEBr (n : BitVec 1) (p : BitVec 4) (o : BitVec 21) (s : State) : Result :=
  finish s.engineSeq s (.ok (s.branch s.engineSeq n p o))
def execELoop (r : BitVec 1) (c : BitVec 2) (o : BitVec 21) (s : State) : Result :=
  finish s.engineSeq s (.ok (s.loopClose s.engineSeq r c o))
def execELcseti (i : BitVec 1) (c : BitVec 2) (d : BitVec 3) (n : BitVec 13) (s : State) : Result :=
  finish s.engineSeq s (lcsetImm s.engineSeq i c d n s)

end Sys2Proof.Machine
end

