-- ==== Sys2Proof/Machine/Factor.lean ====
section
/-! DEFINITION. Factor operations (R241 to R247): their issue, their acceptance at a home, their effect there, and the
result queue fq. -/
namespace Sys2Proof.Machine

/-- What an operation does at its home: it ends with a result and a status, or waits for an access to another home outside the package:
a write of a value or a read. -/
inductive Factored where
  | done (s : State) (v : Word64) (st : BitVec 6)
  | asks (s : State) (b : Bound) (write : Option Word64) (op : FactorOp)

/-- An access of a factor operation beyond its target: translated in the issuer's ASID and checked (R243). -/
def State.factorBind (s : State) (op : FactorOp) (va : Addr) (k : AccessKind) : Except Cause (State × Bound) :=
  match s.leafFor op.bound.asid va k op.sup op.bound.secure with
  | .error (c, _) => .error c
  | .ok (s1, t) =>
    match (if k = .write then s1.dirty op.bound.asid va k op.sup op.bound.secure t else .ok (s1, t)) with
    | .error (c, _) => .error c
    | .ok (s2, t) =>
      let b : Bound := ⟨va, op.bound.asid, op.bound.secure, t.leaf, leafAddress t.leaf t.level va, s2.ilvCur⟩
      if s2.target t.leaf = 0 && (s2.cellOf b.ver b.pa).isNone then .error .notMapped
      else match s2.hubRefusal b with
        | some c => .error c
        | none => .ok (s2, b)

/-- The virtual address of a pointer: its bits [71:64] are those of the target (R241). -/
def pointer (op : FactorOp) (p : Word64) : Addr := ((op.bound.va >>> 64).setWidth 8 : BitVec 8) ++ p

/-- An 8-byte write of Enq at a home (R243): performed, or to be sent to a home outside the package. -/
def State.enqWrite (s : State) (op : FactorOp) (p : Word64) (v : Word64) : Except Cause (State × Option Bound) :=
  match s.factorBind op (pointer op p) .write with
  | .error c => .error c
  | .ok (s1, b) =>
    if s1.target b.leaf != 0 then .ok (s1, some b)
    else match (if s1.checked b then s1.claimRefusal .control (s1.granuleOf b) true else none) with
      | some (c, _) => .error c
      | none => match s1.writeHome b b.pa 8 v.toNat with
        | .error c => .error c
        | .ok s2 => .ok (s2, none)

/-- The 8-byte word of the target's granule at an offset from the target. -/
def State.targetWord (s : State) (op : FactorOp) (off : Nat) : Word64 :=
  match s.readHome op.bound (op.bound.pa + off) 8 with
  | .ok v => w64 v
  | .error _ => 0

/-- The state with `n` bytes written at the target. -/
def State.targetPut (s : State) (op : FactorOp) (off n v : Nat) : State :=
  match s.writeHome op.bound (op.bound.pa + off) n v with
  | .ok s' => s'
  | .error _ => s

/-- Enq after the write of the node's NEXT (R243). -/
def State.enqLink (s : State) (op : FactorOp) : Factored :=
  let old := s.targetWord op 8
  let s1 := s.targetPut op 8 8 op.b.toNat
  if old = 0 then .done (s1.targetPut op 0 8 op.b.toNat) old 0
  else match s1.enqWrite op old op.b with
    | .error c => .done s1 old c.code
    | .ok (s2, none) => .done s2 old 0
    | .ok (s2, some b) => .asks s2 b (some op.b) { op with steps := 2, ptr := old }

/-- Enq (R243), by the writes at other homes that it has performed. -/
def State.enq (s : State) (op : FactorOp) : Factored :=
  match op.steps with
  | 0 => match s.enqWrite op op.b 0 with
    | .error c => .done s op.b c.code
    | .ok (s1, none) => s1.enqLink op
    | .ok (s1, some b) => .asks s1 b (some 0) { op with steps := 1, ptr := op.b }
  | 1 => s.enqLink op
  | _ => .done s op.ptr 0

/-- Chase (R243): `n` hops left, from the pointer that it has reached; the sum with the offset is one of 72 bits. A sealed page has no
claims (R146). -/
def State.chase (s : State) (op : FactorOp) : Nat → Factored
  | 0 => .done s op.ptr 0
  | n + 1 =>
    let q := op.ptr + op.c
    match s.factorBind op (pointer op op.ptr + op.c.setWidth 72) .read with
    | .error c => .done s q c.code
    | .ok (s1, b) =>
      if s1.target b.leaf != 0 then .asks s1 b none op
      else match (if s1.checked b && !leafSeal b.leaf then s1.claimRefusal .control (s1.granuleOf b) false else none) with
        | some (c, _) => .done s1 q c.code
        | none => match s1.readHome b b.pa 8 with
          | .error c => .done s1 q c.code
          | .ok v => if v = 0 then .done s1 op.ptr 0 else s1.chase { op with ptr := w64 v, steps := op.steps + 1 } n

/-- A factor program in progress (R247): its registers, and the words of its granule with its own stores. -/
structure FactorRun where
  f : List Word64
  words : List Word64
  /-- The words that a st has staged. -/
  staged : List Nat
deriving DecidableEq, Repr

/-- Micro-instruction `i` of program `j` (R246). -/
def State.microCode (s : State) (j i : Nat) : BitVec 16 :=
  BitVec.ofNat 16 (fld (s.cfgOf (0x400 + 8 * (8 * j + i / 4))) (16 * (i % 4)) 16)

/-- A factor program from index `i` on, with `n` indexes left: its result with its stores, none where it fails (R247). A ld of a word that
an earlier st of the program has staged takes the staged value: whether it does the spec leaves open, and it is the model's choice (log
entry 78). -/
def State.runProgram (s : State) (j : Nat) : Nat → Nat → FactorRun → Option (Word64 × FactorRun)
  | 0, _, _ => none
  | n + 1, i, r =>
    if 31 < i then none
    else
      let mi := s.microCode j i
      let op := fld mi 12 4
      let fd := fld mi 10 2
      let fs := fld mi 8 2
      let imm := fld mi 0 8
      let x := r.f.getD fd 0
      let y := r.f.getD fs 0
      let next (v : Word64) := s.runProgram j n (i + 1) { r with f := r.f.set fd v }
      let jump (b : Bool) := if b then (if imm % 32 ≤ i then none else s.runProgram j n (imm % 32) r)
        else if imm % 32 ≤ i then none else s.runProgram j n (i + 1) r
      match op with
      | 0 => some (x, r)
      | 1 => if imm / 8 != 0 then none else next (r.words.getD imm 0)
      | 2 => if imm / 8 != 0 then none else s.runProgram j n (i + 1) { r with words := r.words.set imm y, staged := imm :: r.staged }
      | 3 => next (x + y)
      | 4 => next (x - y)
      | 5 => next (x &&& y)
      | 6 => next (x ||| y)
      | 7 => next (x ^^^ y)
      | 8 => next (x + (BitVec.ofNat 8 imm).signExtend 64)
      | 9 => next (w64 imm)
      | 10 => next y
      | 11 => jump (x == y)
      | 12 => jump (x != y)
      | 13 => jump (x.ult y)
      | _ => none

/-- A factor program on the granule of its target (R247). -/
def State.factorProgram (s : State) (op : FactorOp) : Factored :=
  let j := (op.arg.toNat / 8) % 8
  let base := op.bound.pa / 64 * 64
  let op' := { op with bound := { op.bound with pa := base } }
  let words := (List.range 8).map (fun i => s.targetWord op' (8 * i))
  if !(s.cfgOf 0xC8).getLsbD j then .done s 0 Cause.factorProgram.code
  else match s.runProgram j 32 0 ⟨[op.b, op.c, 0, 0], words, []⟩ with
    | none => .done s 0 Cause.factorProgram.code
    | some (v, r) =>
      .done ((List.range 8).foldl (fun t i => if r.staged.contains i then t.targetPut op' (8 * i) 8 (r.words.getD i 0).toNat else t) s) v 0

/-- The operand block of a cas of `n` bytes receives the old value, in the scratchpad of the task that issued it (R243). -/
def State.blockOld (s : State) (op : FactorOp) (n old : Nat) : State :=
  if s.isBound op.task then s.scrWrite op.block.toNat n old else s

/-- Cas2 and Cas4 (R243): the operand block receives the old value before the result enters fq. -/
def State.casBlock (s : State) (op : FactorOp) (n : Nat) : Factored :=
  match s.readHome op.bound op.bound.pa n with
  | .error e => .done s 0 e.code
  | .ok old =>
    let hit := old == op.data % 2 ^ (8 * n)
    let s1 := if hit then s.targetPut op 0 n (op.data / 2 ^ (8 * n) % 2 ^ (8 * n)) else s
    .done (s1.blockOld op n old) (if hit then 1 else 0) 0

/-- ReleaseAtHome (R40) on the entry that its issue bound: RELEASED is 1 and STALE is 2 (R243). What becomes of it where the entry cannot be
read at its home, its key being gone or its span not placed, the spec leaves open: it is STALE, by the model's choice (log entry 78). -/
def State.releaseAtHome (s : State) (op : FactorOp) : Factored :=
  let h : Word32 := op.b.setWidth 32
  let tag := op.arg.toNat
  let pa := op.bound.pa
  match s.readTableAt op.bound.ver pa 64 with
  | .error _ => .done (s.tagDoneOf op.task tag) 2 0
  | .ok v =>
    let e := BitVec.ofNat 512 v
    if entryStale e (handleGen h) then .done (s.tagDoneOf op.task tag) 2 0
    else
      let e' := putBit (put e 52 12 (teGen e + 1)) 1 true
      let s1 := s.dropLayout (fun a n => a == op.bound.asid && n == handleSlot h)
      if tePin e = 0 then .done (s1.finishEntry op.bound.ver e' pa (some (op.task, tag))) 1 0
      else
        let s2 := s1.writeTableAt op.bound.ver pa 64 e'.toNat
        .done { s2 with mu := { s2.mu with releases := mset s2.mu.releases none pa (some (op.task, tag)) } } 1 0

/-- UnpinAtHome (R40), for an operation of another agent of the package: of the entry that it bound, at that address. -/
def execUnpinAtHome (s : State) : Result := occur (s.unpinAtHome s.input.addr.toNat)

/-- PinAtHome (R38), for an operation of another agent of the package: the entry gains a pin unless it is stale. -/
def execPinAtHome (s : State) : Result :=
  let h : Word32 := s.input.v.setWidth 32
  occur (match s.readSlot s.input.asid (handleSlot h) with
    | .error _ => s
    | .ok e => (s.pinAtHome e.pa (handleGen h)).getD s)

/-- What an accepted factor operation does at its home (R243). -/
def State.factorEffect (s : State) (op : FactorOp) : Factored :=
  match op.kind with
  | 0 => s.casBlock op 16
  | 1 => s.casBlock op 32
  | 2 => s.enq op
  | 3 => s.chase op (op.b.toNat - op.steps)
  | 4 => s.factorProgram op
  | _ => s.releaseAtHome op

/-- The state with the factor operations replaced. -/
def State.setFactor (s : State) (l : List FactorOp) : State := { s with mu := { s.mu with factor := l } }

/-- The state with one operation replaced. -/
def State.putFactor (s : State) (op : FactorOp) : State := s.setFactor (s.mu.factor.map (fun o => if o.id = op.id then op else o))

/-- An accepted operation is outstanding: it reserved the next entry of fq, and pins the phase (R242, R180). -/
def State.acceptFactor (s : State) (op : FactorOp) : State :=
  ({ s with mu := { s.mu with factor := s.mu.factor ++ [{ op with id := s.mu.nextId, accepted := true }]
                              nextId := s.mu.nextId + 1 } }).pin

/-- Operations outstanding or waiting in fq (R242). -/
def State.factorCount (s : State) : Nat := s.ownOps.length + s.mu.fq.length

/-- The acceptance of a factor operation at its first home: the refusals of R25, POISON and claims (R242). -/
def State.factorAccept (s : State) (op : FactorOp) : Option Refused :=
  match s.homeRefusal op.bound op.bound.pa true with
  | some c => some (c, 0)
  | none => match s.readHome op.bound op.bound.pa 8 with
    | .error c => some (c, 0)
    | .ok _ => if s.checked op.bound then s.claimRefusal .control (s.granuleOf op.bound) true else none

/-- The issue of a factor operation on a target, from its field checks on (R242): `bad` says that a field check of R241
fails, `align` is the target's alignment and `blk` the size of its operand block, 0 where it has none. -/
def factorIssue (kind : Nat) (a b : BitVec 5) (c : Word64) (arg : BitVec 6) (bad : Bool) (align off blk : Nat) (s : State) :
    Result :=
  finish .control s (
    let ea := s.aReg a
    let gb := s.gReg b
    let block : BitVec 22 := gb.setWidth 22
    if bad then .fail .fieldRange
    else if (ea.toNat + off) % align != 0 || (blk != 0 && block.toNat % blk != 0) then .fail .misalign
    else if blk != 0 && !s.bankExists block.toNat then .trap .notMapped absentBank (block.setWidth 72)
    else if blk != 0 && s.scrHeld block.toNat blk true then .wait s
    else
      let issue (data : Nat) : Res :=
        match s.bindAccess ea .both with
          | .error (c, tv) => .trap c tv ea
          | .ok (s1, bd, _) =>
            if 2 ≤ s1.target bd.leaf then .fail .atomicTarget
            else if 16 ≤ s.factorCount || s1.pending bd || !s1.acked 0 then .wait s
            else s.withDeferred (
              let op : FactorOp :=
                { id := 0, task := s.task.id, kind := kind, bound := bd, b := gb, c := c, arg := arg, block := block, data := data
                  sup := s.sup, accepted := false, steps := 0, ptr := ea.setWidth 64, asked := false, result := none }
              let done (t : State) : State := (t.acceptFactor op).advance .control
              if s1.target bd.leaf = 0 then
                match s1.factorAccept op with
                | some (c, tv) => .trap c tv ea
                | none => .ok ((done (s1.countRequest bd)).post .factorAtHome)
              else s1.askOutside bd (.factor op) (fun t _ => .ok ((done t).sendBound bd (.factor t.mu.nextId))) ea)
      if blk != 0 && s.scrPoison block.toNat then .poisoned block.toNat (issue (s.drawBytes blk).1)
      else issue (if blk = 0 then 0 else s.scrRead block.toNat blk))

def execFopCas2 (a b : BitVec 5) (s : State) : Result := factorIssue 0 a b 0 0 false 16 0 32 s
def execFopCas4 (a b : BitVec 5) (s : State) : Result := factorIssue 1 a b 0 0 false 32 0 64 s
def execFopEnq (a b : BitVec 5) (s : State) : Result := factorIssue 2 a b 0 0 false 16 0 0 s
/-- h in 1 to 16, the offset at most 65,528 and a multiple of 8 (R241); the target aA + gC is aligned to 8. -/
def execFopChase (c a b : BitVec 5) (s : State) : Result :=
  let h := (s.gReg b).toNat
  let off := (s.gReg c).toNat
  factorIssue 3 a b (s.gReg c) 0 (h = 0 || 16 < h || 65528 < off || off % 8 != 0) 8 (off % 8) 0 s
def execFopProg (c a b : BitVec 5) (j : BitVec 3) (s : State) : Result :=
  factorIssue 4 a b (s.gReg c) (j ++ (0 : BitVec 3)) false 8 0 0 s
/-- The acceptance of a release at the entry's home (R25, R242): the home reads the entry as a table of the hardware's own (R396), and a
poisoned granule gives POISON. -/
def State.entryRefusal (s : State) (pa : Nat) : Option Cause :=
  match s.readTable pa 64 with
  | .error c => some c
  | .ok _ => if (s.cellOf s.ilvCur pa).any (fun c => (s.granule c).poison) then some .poison else none

/-- fop.rel goes to the home of the tensor entry (R40, R242), after the accesses that R140 orders before an atomic of its granule. -/
def execFopRel (b : BitVec 5) (t : BitVec 6) (s : State) : Result :=
  finish .control s (
    let h : Word32 := (s.gReg b).setWidth 32
    if s.tagPending t.toNat then .fail .tagBusy
    else match s.tensorSlot s.die s.asid (handleSlot h) with
      | .error f => .trap f.cause (f.tvalue h) (BitVec.ofNat 72 f.addr)
      | .ok e =>
        let bound : Bound := ⟨0, s.asid, s.secure, 0, e.pa, s.ilvCur⟩
        if 16 ≤ s.factorCount || s.pending bound || !s.acked 0 then .wait s
        else s.withDeferred (match s.entryRefusal e.pa with
        | some c => .trap c (({ cause := c } : TensorFault).tvalue h) 0
        | none =>
          let op : FactorOp :=
            { id := 0, task := s.task.id, kind := 5, bound := bound, b := s.gReg b, c := 0, arg := t
              block := 0, data := 0, sup := s.sup, accepted := false, steps := 0, ptr := 0, asked := false, result := none }
          .ok (((((s.tagIssue t.toNat).countHops bound.ver e.pa).acceptFactor op).advance .control).post .factorAtHome)))

/-- Results that have come in move to fq in issue order, up to the first operation that has none (R244). -/
def State.deliverResults (s : State) : State :=
  let moved := s.ownOps.takeWhile (fun o => o.result.isSome)
  let results := moved.filterMap (fun o => o.result)
  { s with mu := { s.mu with factor := s.mu.factor.filter (fun o => moved.all (fun m => m.id != o.id)), fq := s.mu.fq ++ results }
           phase := { s.phase with fqNew := s.phase.fqNew ++ results } }

/-- An operation has its result, and stores and claims that waited for it go on; the operation of a task that has left the machine has
nowhere to put it (R362). -/
def State.factorDone (s : State) (op : FactorOp) (v : Word64) (st : BitVec 6) : State :=
  let s1 := if s.isBound op.task then s.putFactor { op with asked := false, result := some (v, st) }
    else s.setFactor (s.mu.factor.filter (fun o => o.id != op.id))
  s1.releaseClosed.kick

/-- The oldest accepted operation that may go on is performed at its home, indivisibly (R243): its result is sent, or its access to
another home outside the package. -/
def execFactorAtHome (s : State) : Result :=
  occur (match s.mu.factor.find? (fun o => o.result.isNone && !o.asked && (o.kind == 5 || s.target o.bound.leaf == 0)) with
    | none => s
    | some op =>
      match s.factorEffect op with
      | .done s1 v st =>
        ((if op.kind = 5 then s1 else s1.useLine (s1.granuleOf op.bound)).factorDone op v st).post .factorResult
      | .asks s1 b write op1 =>
        ((s1.putFactor { op1 with asked := true }).sendBound b (.factor op.id)).emit (.access write.isSome b 8 ((write.map (fun x => x.toNat)).getD 0)))

/-- The answer of a home outside the package to an operation: its result with the old value of a cas, or what a hop or a write of an
operation that is performed here met (R243). -/
def State.factorAnswer (s : State) (op : FactorOp) (v : Word64) (st : BitVec 6) (old : Nat) : State :=
  let s0 := s.answered (.factor op.id)
  let n := if op.kind = 0 then 16 else 32
  if s.target op.bound.leaf != 0 then (if op.kind < 2 then s0.blockOld op n (old % 2 ^ (8 * n)) else s0).factorDone op v st
  else if st != 0 then s0.factorDone op (if op.kind = 3 then op.ptr + op.c else op.ptr) st
  else if op.kind = 3 && v == 0 then s0.factorDone op op.ptr 0
  else
    let op1 := if op.kind = 3 then { op with asked := false, ptr := v, steps := op.steps + 1 } else { op with asked := false }
    (s0.putFactor op1).post .factorAtHome

/-- A result enters fq in issue order (R244); with an input flag, an outside home answers the operation that the input names. -/
def execFactorResult (s : State) : Result :=
  let s1 := if s.input.flag then
      match s.mu.factor.find? (fun o => o.result.isNone && o.id == s.input.w.toNat && (o.asked || (o.kind != 5 && s.target o.bound.leaf != 0))) with
      | none => s
      | some op => s.factorAnswer op s.input.v (BitVec.ofNat 6 s.input.n) s.input.data
    else s
  let s2 := s1.deliverResults
  occur (if s2.scr.fmtPend.isEmpty then s2 else s2.postOnce .bankfmtEffect)

/-- Takes the oldest entry of fq. -/
def State.popFq (s : State) : State := { s with mu := { s.mu with fq := s.mu.fq.tail } }

/-- fpop (R244). -/
def execFpop (d x : BitVec 5) (s : State) : Result :=
  finish .control s (match s.mu.fq with
    | (v, st) :: _ => .ok (((s.popFq.setG d v).setG x (st.setWidth 64)).advance .control)
    | [] => if s.ownOps.isEmpty then .fail .queueUnderflow else .wait s)
/-- fpop.nr (R244). -/
def execFpopNr (d : BitVec 5) (p : BitVec 4) (x : BitVec 5) (s : State) : Result :=
  finish .control s (.ok (match s.mu.fq with
    | (v, st) :: _ => (((s.popFq.setG d v).setG x (st.setWidth 64)).setPred .control p true).advance .control
    | [] => (((s.setG d 0).setG x 0).setPred .control p false).advance .control))
/-- fstat (R244). -/
def execFstat (d : BitVec 5) (s : State) : Result :=
  writeG d (w64 (s.mu.fq.length * 256 + s.ownOps.length)) s

end Sys2Proof.Machine
end

