-- ==== Sys2Proof/Machine/Sync.lean ====
section
/-! DEFINITION. Coupling of the sequencers: tokens and value queues (R163 to R165, R343), tag waits (R306), and the
synchronising words of the control sequencer (R144, R147). -/
namespace Sys2Proof.Machine

/-- A word of the control sequencer that is a release: it waits until the earlier accesses are acknowledged at its scope, 0
die or 1 pkg, and, as it closes the region, until those of a region that holds claims have been performed (R140, R144, R147); refusals
of earlier stores that have come back are raised here (R26). -/
def State.ordered (s : State) (scope : Nat) (k : State → Res) : Res :=
  if !(s.acked scope && s.regionDone) then .wait s else s.withDeferred (k s)

/-- Such a word closes its region as it completes (R147). -/
def State.synced (s : State) (scope : Nat) (k : State → Res) : Res :=
  s.ordered scope (fun s => (k s).andOk (fun t => t.closeRegion .control))

/-- A word of the control sequencer that is an acquire, or neither: it waits for no earlier access, raises refusals of earlier stores that
have come back (R26), and closes its region as it completes (R144, R147). -/
def State.acquires (s : State) (k : State → Res) : Res :=
  s.withDeferred ((k s).andOk (fun t => t.closeRegion .control))

/-! Token queues. -/

/-- The count of token queue `i`. -/
def State.tokens (s : State) (i : BitVec 3) : Nat := (mget s.q.tq 0 i.toNat).toNat
/-- The state with a token queue's count written. -/
def State.setTokens (s : State) (i : BitVec 3) (n : Nat) : State :=
  { s with q := { s.q with tq := mset s.q.tq 0 i.toNat (BitVec.ofNat 8 n) } }

/-- The producer of a token queue whose consumer comes after it in a cycle (R84, R163): its put finds the room that a get of the same
cycle makes only once the other sequencers have had their turns. -/
def earlyProducer (i : BitVec 3) : Option Seq :=
  match i.toNat with
  | 0 => some .load
  | 3 => some .store
  | 6 => some .compute
  | 7 => some .store
  | _ => none

/-- A put that finds no room is tried once more when every sequencer has had its turn, unless that is now (R165). -/
def State.retryPut (s : State) (i : BitVec 3) : Option State :=
  match s.turn, earlyProducer i with
  | .seq _, some q => some { s with cycle := { s.cycle with again := s.cycle.again ++ [q] } }
  | _, _ => none

/-- A put (R163): its overflow is judged by the count that every get of the cycle leaves (R165). -/
def tokenPut (i : BitVec 3) (n : BitVec 8) (s : State) : Res :=
  if n = 0 then .fail .fieldRange
  else if 255 < s.tokens i + n.toNat then
    match s.retryPut i with
    | some t => .wait t
    | none => .fail .tokenOverflow
  else .ok { (s.setTokens i (s.tokens i + n.toNat)) with
    cycle := { s.cycle with puts := mset s.cycle.puts 0 i.toNat (mget s.cycle.puts 0 i.toNat + n.toNat) } }

/-- A get (R163): it takes no token that was put in this cycle (R165). -/
def tokenGet (i : BitVec 3) (n : BitVec 8) (s : State) : Res :=
  if n = 0 then .fail .fieldRange
  else if s.tokens i < n.toNat + mget s.cycle.puts 0 i.toNat then .wait s
  else .ok (s.setTokens i (s.tokens i - n.toNat))

def execTokPut (q : BitVec 3) (n : BitVec 8) (s : State) : Result :=
  finish .control s (s.synced 0 (fun t => (tokenPut q n t).andOk (fun u => u.advance .control)))
def execTokGet (q : BitVec 3) (n : BitVec 8) (s : State) : Result :=
  finish .control s (s.acquires (fun t => (tokenGet q n t).andOk (fun u => u.advance .control)))

/-- A word of the load or store sequencer that closes its region (R147). -/
def engineSync (s : State) (r : Res) : Result :=
  finish s.engineSeq s (r.andOk (fun t => (t.closeRegion s.engineSeq).advance s.engineSeq))

/-- An operation of a sequencer's open region still holds claims: a put waits for their release (R147). -/
def State.opsClaim (s : State) (q : Seq) : Bool :=
  s.eng.ops.any (fun o => sideSeq o.side == q && !o.closed && o.reading && !o.claims.isEmpty)

def execETokPut (q : BitVec 3) (n : BitVec 8) (s : State) : Result :=
  engineSync s (if s.opsClaim s.engineSeq then .wait s else tokenPut q n s)
def execETokGet (q : BitVec 3) (n : BitVec 8) (s : State) : Result := engineSync s (tokenGet q n s)

/-! Value queues. -/

/-- A value queue: vq0 or vq1. -/
def State.valueQueue (s : State) (n : BitVec 1) : List Word64 := if n = 0 then s.q.vq0 else s.q.vq1
/-- The state with a value queue's entries replaced. -/
def State.setValueQueue (s : State) (n : BitVec 1) (l : List Word64) : State :=
  if n = 0 then { s with q := { s.q with vq0 := l } } else { s with q := { s.q with vq1 := l } }

/-- vqpush (R164, R343). -/
def execVqpush (n : BitVec 1) (a : BitVec 5) (s : State) : Result :=
  finish .control s (s.synced 0 (fun t =>
    if 8 ≤ (t.valueQueue n).length then .fail .queueOverflow
    else .ok ((t.setValueQueue n (t.valueQueue n ++ [t.gReg a])).advance .control)))

/-! Tag waits. -/

/-- TAGS (R81). -/
def State.tags (s : State) : Word64 := s.csrOf 0x19
/-- The tags of a mask that are free (R306). -/
def State.freeTags (s : State) (m : Word64) : Word64 := m &&& ~~~s.tags &&& ~~~(s.csrOf 0x1A)
/-- The tags LO to HI. -/
def tagRange (lo hi : BitVec 6) : Word64 := w64 (2 ^ (hi.toNat + 1) - 2 ^ lo.toNat)
/-- The state with complete tags cleared. -/
def State.clearTags (s : State) (m : Word64) : State := s.setCsr 0x19 (s.tags &&& ~~~m)

/-- A wait for any, or for every, tag of a mask; `k` takes the complete tags of the mask (R306). -/
def State.tagWait (s : State) (all : Bool) (m : Word64) (clr : Bool) (k : State → Word64 → Res) : Res :=
  let free := s.freeTags m
  let found := s.tags &&& m
  if m = 0 then .fail .fieldRange
  else if all && free != 0 then .trap .fieldRange free 0
  else if !all && free == m then .fail .fieldRange
  else if (if all then found != m else found == 0) then .wait s
  else k (if clr then s.clearTags found else s) found

def execTagAny (d a : BitVec 5) (c : BitVec 1) (s : State) : Result :=
  finish .control s (s.acquires (fun t => t.tagWait false (s.gReg a) (c == 1) (fun u f => .ok ((u.setG d f).advance .control))))
def execTagAll (d a : BitVec 5) (c : BitVec 1) (s : State) : Result :=
  finish .control s (s.acquires (fun t => t.tagWait true (s.gReg a) (c == 1) (fun u f => .ok ((u.setG d f).advance .control))))
/-- tag.first finds; it is no synchronising word (R144). -/
def execTagFirst (d a : BitVec 5) (s : State) : Result :=
  let found := s.tags &&& s.gReg a
  finish .control s (.ok ((s.setG d (w64 ((List.range 64).find? (fun i => found.getLsbD i) |>.getD 64))).advance .control))

/-- tagw with HI < LO raises FIELD_RANGE. -/
def engineTagWait (all : Bool) (c : BitVec 1) (h l : BitVec 6) (s : State) : Result :=
  engineSync s (if h < l then .fail .fieldRange else s.tagWait all (tagRange l h) (c == 1) (fun t _ => .ok t))

def execTagwAny (c : BitVec 1) (h l : BitVec 6) (s : State) : Result := engineTagWait false c h l s
def execTagwAll (c : BitVec 1) (h l : BitVec 6) (s : State) : Result := engineTagWait true c h l s
/-- The test waits for nothing, clears nothing and closes nothing: CLR names what a wait does (log entry 14). -/
def execTagwTst (_c : BitVec 1) (p : BitVec 4) (h l : BitVec 6) (s : State) : Result :=
  finish s.engineSeq s (if h < l then .fail .fieldRange
    else .ok ((s.setPred s.engineSeq p (s.tags &&& tagRange l h != 0)).advance s.engineSeq))

end Sys2Proof.Machine
end

