-- ==== Sys2Proof/Machine/Barrier.lean ====
section
/-! DEFINITION. Group instructions (R344) over the operations of R168 and the memberships of R169. -/
namespace Sys2Proof.Machine

/-- The checks of R344 on the record at an address, then `k` with the state, the bound access, and the record where its home
lies in the package; `barred` says that R169 forbids the use. The access counts as an atomic: it waits for the earlier accesses to its
granule and for every earlier factor operation (R140). -/
def State.onGroup (s : State) (a : BitVec 5) (barred : Bool) (k : State → Bound → Option GroupRecord → Res) : Res :=
  let ea := s.aReg a
  if ea.toNat % 32 != 0 then .fail .misalign
  else match s.bindAccess ea .both with
    | .error (c, tv) => .trap c tv ea
    | .ok (s1, b, _) =>
      if leafChk b.leaf || 2 ≤ s1.target b.leaf then .fail .atomicTarget
      else if s1.pending b || !s1.opsPerformed then .wait s
      else if s1.target b.leaf = 1 then (if barred then .fail .groupState else k (s1.countAccess b) b none)
      else match s1.homeRefusal b b.pa true with
        | some c => .trap c 0 ea
        | none => match s1.readHome b b.pa 32 with
          | .error c => .trap c 0 ea
          | .ok v =>
            let g := BitVec.ofNat 256 v
            if !grpOpen g || barred then .fail .groupState else k ((s1.countRequest b).useLine (s1.granuleOf b)) b (some g)

/-- A group instruction that closes its region: its claims are released before the operation is performed at the home (R147). -/
def State.groupWord (s : State) (a : BitVec 5) (barred : State → Bool) (k : State → Bound → Option GroupRecord → Res) : Result :=
  finish .control s (s.ordered 0 (fun s => s.onGroup a (barred s) (fun t b g => k (t.closeRegion .control) b g)))

/-- The record of a group written at its home (R167). -/
def State.putGroup (s : State) (b : Bound) (g : GroupRecord) (k : State → Res) : Res :=
  match s.writeHome b b.pa 32 g.toNat with
  | .error c => .trap c 0 b.va
  | .ok t => k t.pin

/-- A membership recorded, and one removed (R169). -/
def State.addMember (s : State) (m : Member) : State := { s with task := { s.task with members := s.task.members ++ [m] } }
def State.dropMember (s : State) (va : Addr) : State :=
  { s with task := { s.task with members := s.task.members.filter (fun m => m.va != va) } }

/-- Join of R168 through its home: the state with the membership, and the epoch of entry. -/
def execJoin (d a : BitVec 5) (s : State) : Result :=
  s.groupWord a (fun s => 4 ≤ s.task.members.length || (s.member (s.aReg a)).isSome) (fun s b g =>
    let done (s : State) (m : Member) : Res := .ok (((s.addMember m).setG d (m.joined.setWidth 64)).advance .control)
    match g with
    | some g =>
      let (g1, m) := joinGroup g b.va
      s.putGroup b g1 (fun s => done s m)
    | none => s.askOutside b (.group 0 b 0) (fun s v => done s.pin ⟨b.va, v.setWidth 32, v.getLsbD 32, none⟩) b.va)

/-- Leave of R168 through its home. -/
def execLeave (a : BitVec 5) (s : State) : Result :=
  s.groupWord a (fun s => (s.member (s.aReg a)).isNone) (fun s b g =>
    let done (s : State) : Res := .ok ((s.dropMember b.va).advance .control)
    match g, s.member b.va with
    | some g, some m => s.putGroup b (leaveGroup g m) done
    | _, _ => s.askOutside b (.group 1 b 0) (fun s _ => done s.pin) b.va)

/-- Arrive of R168 through its home: gD takes EPOCH as it stood before the arrival. The party registers with the home's collective
engine, which compares the registrations of an epoch (R318). -/
def execBarArrive (d a : BitVec 5) (s : State) : Result :=
  s.groupWord a (fun s => (s.member (s.aReg a)).isNone) (fun s b g =>
    let done (s : State) (epoch : Word32) (m : Member) : Res :=
      .ok (((s.setMember m).setG d (epoch.setWidth 64)).advance .control)
    match g, s.member b.va with
    | some g, some m => match arriveGroup g m with
      | none => .fail .groupState
      | some (g1, m1) =>
        let r := Registration.bar b.pa (grpEpoch g) s.chip s.die s.core s.taskSecure
        s.putGroup b g1 (fun s => done (s.register r) (grpEpoch g) m1)
    | _, some m => s.askOutside b (.group 2 b 0) (fun s v =>
        done s.pin (v.setWidth 32) { m with arrived := some (v.setWidth 32) }) b.va
    | _, none => .fail .groupState)

/-- bar.wait returns once EPOCH differs from gB; it closes its region as it returns. -/
def execBarWait (a b : BitVec 5) (s : State) : Result :=
  finish .control s (s.ordered 0 (fun s =>
    s.onGroup a false (fun t bd g =>
      let done (t : State) : Res := .ok ((t.pin.closeRegion .control).advance .control)
      match g with
      | some g => if (grpEpoch g).toNat = fld (s.gReg b) 0 32 then .wait s.pin else done t
      | none => (t.closeRegion .control).askOutside bd (.group 3 bd (s.gReg b)) (fun t _ => done t) bd.va)))

/-- dissolve: a group without members becomes free; it closes no region. -/
def execDissolve (a : BitVec 5) (s : State) : Result :=
  finish .control s (
    if !s.acked 0 then .wait s
    else s.withDeferred (s.onGroup a false (fun s b g =>
      match g with
      | some g =>
        if grpMembers g != 0 then .fail .groupState
        else s.putGroup b (put g 0 2 0) (fun s => .ok (s.advance .control))
      | none => s.askOutside b (.group 4 b 0) (fun s _ => .ok (s.pin.advance .control)) b.va)))

end Sys2Proof.Machine
end

