-- ==== Sys2Proof/Machine/Engine.lean ====
section
/-! DEFINITION. Engine operations of the load and store sequencers: the fields and reserved bits of their templates (R198, R307 to
R309, R314), the go of copies (R312) with the sending of their packets (R310, R311) and their ends (R313), and map and ring
operations (R315, R316). -/
namespace Sys2Proof.Machine

/-! Fields of templates. -/

/-- The place and width of a field of a copy template (R309). -/
def copyField (f : Nat) : Nat × Nat :=
  if f = 0 then (0, 8) else if f = 1 then (8, 16) else if f = 2 then (24, 16) else if f = 3 then (40, 32)
  else if f < 8 then (72 + 24 * (f - 4), 24) else if f < 12 then (168 + 24 * (f - 8), 24)
  else [(264, 26), (290, 26), (316, 5), (321, 19), (340, 32), (372, 32), (404, 28), (432, 12), (444, 32), (476, 22)].getD (f - 12) (0, 0)

/-- The width of a field of a map or ring template (R314), a collective's (R317) and a matrix template's (R291); 0: reserved. -/
def fieldWidth (k f : Nat) : Nat :=
  if kindMap k then
    (if f = 2 then (if k = 12 then 4 else 9)
      else if f = 3 then (if k = 12 then 28 else if k = 9 then 8 else 0)
      else if f = 4 then (if k = 12 then 5 else if k = 8 || k = 9 then 22 else 0)
      else [8, 16].getD f 0)
  else if kindColl k then [8, 16, 32, 32, 8, 32, 32, 20, 20, 32, 5, 22].getD f 0
  else [8, 2, 4, 4, 7, 7, 16, 3].getD f 0

/-- The place and width of field `f` of kind `k` (R198, R308). -/
def fieldPlace (k f : Nat) : Nat × Nat := if kindCopy k then copyField f else (32 * f, fieldWidth k f)

/-- The number of fields of a kind. -/
def fieldCount (k : Nat) (matrix : Bool) : Nat := if matrix then 8 else if kindCopy k then 22 else if kindMap k then 5 else 12

/-- A kind is assigned for the table of a side (R307). -/
def assigned (side : Side) (k : Nat) : Bool :=
  (match side with
    | .load => k == 1 || k == 2
    | .store => k == 3 || k == 4) || k == 5 || k == 6 || kindMap k || kindColl k

/-- A reserved bit of an image is set: a bit of no field, [7:6], or a bit of CTL, PEER or SPADDR that the kind does not use
(R308, R317). -/
def reservedSet (t : BitVec 512) : Bool :=
  let k := opKind t
  let c := opCtl t
  let rest := (List.range (fieldCount k false)).foldl (fun (x : BitVec 512) f => let (lo, w) := fieldPlace k f; put x lo w 0) t
  rest != 0 || fld t 6 2 != 0 ||
    (if kindColl k then
      (fld c 10 3 != 0 && k != 17 && k != 18) || (fld t 256 20 != 0 && k != 19 && k != 20) ||
        (fld t 352 22 != 0 && !(ctlVrec c || ctlVchk c || ctlStat c))
    else fld c 10 6 != 0 || (kindMap k && fld c 6 3 != 0))

/-- The key of a template slot in its table: load 0, store 64, matrix 128. -/
def tmplKey (side : Side) (slot : Nat) : Nat := match side with
  | .load => slot
  | .store => 64 + slot

def sideNum : Side → Nat
  | .load => 0
  | .store => 1

/-! Queues (R201, R305). -/

/-- Operations of a side that have not started. -/
def State.unstarted (s : State) (side : Side) : List EngOp := s.eng.ops.filter (fun o => o.side == side && !o.started)

/-- The operation that a queue took last has completed: what a chained operation waits for (R201). -/
def State.lastDone (s : State) (side : Side) (after : Option Nat) : Bool :=
  match after with
  | some n => !s.eng.ops.any (fun o => o.id == n)
  | none => !s.mapBusy side

/-- An operation may start: those before it in its queue have started, and a chained one's predecessor has completed. -/
def State.startable (s : State) (o : EngOp) : Bool :=
  ((s.unstarted o.side).head?.map (fun x => x.id)) == some o.id && (!o.chained || s.lastDone o.side o.after)

/-- A map operation of the bound task will push a record. -/
def State.cqTag (s : State) (t : Option MapTag) : Bool := t.any (fun t => t.cq && t.task == s.task.id)

/-- Records that operations already issued will push to cq (R305). -/
def State.pushesDue (s : State) : Nat :=
  (s.eng.ops.filter (fun o => !o.ended && opPushes o.img)).length +
    (s.wharves.map (fun (w : Nat × Wharf) =>
      (w.2.ops.filter (fun o => s.cqTag o.tag)).length + (w.2.slots.filter (fun x => x.2.st == 2 && s.cqTag x.2.tag)).length)).sum

/-- A go that pushes a record finds room for it in cq (R305). -/
def State.cqRoom (s : State) (t : BitVec 512) : Bool := !opPushes t || s.eng.cq.length + s.pushesDue < 16

/-- The event that starts an operation of a kind. -/
def kindEvent (k : Nat) : Instr :=
  match k with
  | 1 => .arrive
  | 2 => .gather
  | 3 => .depart
  | 4 => .mcast
  | 5 => .relay
  | _ => .fill

/-- The engine operation of an identifier. -/
def State.engOp (s : State) (id : Nat) : Option EngOp := s.eng.ops.find? (fun o => o.id == id)
def State.setOp (s : State) (o : EngOp) : State :=
  { s with eng := { s.eng with ops := s.eng.ops.map (fun x => if x.id = o.id then o else x) } }

/-- A collective starts: it runs once all its parties have registered (R318, R320). -/
def State.startColl (s : State) (o : EngOp) : State :=
  let s1 := { s with eng := { s.eng with ops := s.eng.ops.map (fun (x : EngOp) =>
    if x.id = o.id ∧ kindColl (opKind x.img) = true then { x with started := true } else x) } }
  if o.coll.any (fun c => !c.parties.isEmpty) then s1.postOnce .collectiveComplete { n := o.id } else s1

/-- The operations at the head of a queue, `n` of them at most, start as soon as they may (R201). -/
def State.startQueue (s : State) (side : Side) : Nat → State
  | 0 => s
  | n + 1 =>
    match (s.unstarted side).head? with
    | none => s
    | some o =>
      if !s.startable o then s
      else if kindColl (opKind o.img) then (s.startColl o).startQueue side n
      else s.postOnce (kindEvent (opKind o.img)) { n := o.id, side := side }

/-- The next operations of a queue will start as soon as they may. -/
def State.kickSide (s : State) (side : Side) : State := s.startQueue side 8

/-- An operation enters its queue: its tag becomes pending, and it binds its fields (R201, R305). -/
def State.takeOp (s : State) (o : EngOp) : State :=
  let s1 := s.tagIssue (opTag o.img)
  ({ s1 with eng := { s1.eng with ops := s1.eng.ops ++ [o], nextId := o.id + 1, last := mset s1.eng.last none (sideNum o.side) (some o.id) } }).kickSide
    o.side

/-- An operation at its go. -/
def State.newOp (s : State) (side : Side) (slot : Nat) (t : BitVec 512) (chained : Bool) : EngOp :=
  { id := s.eng.nextId, side := side, img := t, chained := chained, after := mget s.eng.last none (sideNum side), slot := slot
    fresh := true, asid := s.asid, secure := s.taskSecure, pc := s.pcOf (sideSeq side), started := false, sent := 0, total := 0
    open_ := 0, asked := false, asks := [], ended := false, discarded := 0, tensors := [], blocks := 0, ranges := [], claims := [], closed := false
    coll := none }

/-- TVALUE of a cause of the issue checks of a go: the patch word (R200), and of an absent bank that of R72 and R76 (log entry 36). -/
def goTvalue (c : Cause) (word : Word64) : Word64 := if c = .notMapped then absentBank else word

/-! The go of a copy (R312). -/

/-- The go of a copy: `word` is the TVALUE of its causes (R200). -/
def State.goCopy (s : State) (side : Side) (slot : Nat) (t : BitVec 512) (chained : Bool) (word : Word64) : Res :=
  let bad (c : Cause) : Res := .trap c (goTvalue c word) 0
  let k := opKind t
  if reservedSet t then bad .reservedBits
  else if copyRange t then bad .fieldRange
  else if s.tagPending (opTag t) then bad .tagBusy
  else
    let bound : Except TensorFault (State × Option Tensor) := if k = 1 || k = 2 then
        match s.bindTensor s.die s.asid s.taskSecure (cpHandle t) (copyNamed t) with
        | .error f => .error f
        | .ok (s1, x) => .ok (s1, some x)
      else .ok (s, none)
    match bound with
    | .error f => .trap f.cause (f.tvalue (cpHandle t)) (BitVec.ofNat 72 f.addr)
    | .ok (s1, ten) => match s1.copySource t ten with
      | some c => bad c
      | none =>
        let blocks := match ten with
          | some x => s1.copyBlocks t x
          | none => []
        let ranges := s.copyRanges t
        if 8 ≤ (s.unstarted side).length || !s.cqRoom t || (!ranges.isEmpty && s.engineRangesFull) || ranges.any (fun r => s.rangeHeld r.lo r.hi false) ||
            (cpBanks t).any s.formatHeld then .wait s
        else match s1.claimBlocks (sideSeq side) (cpHandle t) blocks with
          | .error (c, tv, tile) => .trap c (if c = .race then tv else word) (BitVec.ofNat 72 tile)
          | .ok (s2, units) => .ok (s2.takeOp { s2.newOp side slot t chained with total := cpCount t, tensors := ten.toList, ranges := ranges, claims := units })

/-! Packets on their way (R311, R313). -/

/-- A packet is sent to a wharf: of this package's modelled parts, or outside (R311, R368); its hops to another die of the package are
counted (R366, log entry 66). -/
def State.deliver (s : State) (p : Packet) (chip : BitVec 10) (die : BitVec 2) (mem : Bool) (stn : BitVec 6) : State :=
  let s := if chip == s.chip then s.count 9 (hops s.die die) else s
  if chip == s.chip && mem then s.post .packetHeader { wharf := .mem die, packet := some p }
  else if chip == s.chip && die == s.die && stn == s.core then s.post .packetHeader { wharf := .core, packet := some p }
  else
    let s1 := if chip == s.chip then s else s.sendFabric { what := .packet p.opid, pool := false, chip := chip, pa := 0, secure := p.world }
    s1.emit (.packet p chip die mem stn)

/-- What becomes of a packet at the landing window of the package, for die `die` (R365, R379): a closed window or a stopped package refuses
it, and a sender that is not admitted has it discarded with a record; else it goes on. -/
def State.throughWindow (s : State) (p : Packet) (die : BitVec 2) : State × Bool :=
  let ctl := s.cfgOf 0x80
  let adm := (s.cfgOf (0x100 + 8 * (p.chip.toNat / 64))).getLsbD (p.chip.toNat % 64)
  if s.pkg.stopped then (s.emit (.refusal p.chip p.die p.stn p.opid .containedStop), false)
  else if !ctl.getLsbD 0 then (s.emit (.refusal p.chip p.die p.stn p.opid .windowClosed), false)
  else if !adm || !ctl.getLsbD (if p.world then 2 else 1) then
    ((s.logMemUnlanded die (unlandedRecord p .world 0 none 0 ((s.clkOf die).toNat % 2 ^ 32))).emit (.answer p.chip p.die p.stn p.opid true), false)
  else (s, true)

/-- Where a copy's packets go: chip, die, memory wharf and core. -/
def State.destinations (s : State) (t : BitVec 512) : List (BitVec 10 × BitVec 2 × Bool × BitVec 6) :=
  let d := cpDst t
  let chip := BitVec.ofNat 10 (fld d 0 10)
  let die := BitVec.ofNat 2 (fld d 10 2)
  let core := BitVec.ofNat 6 (fld d 12 6)
  match opKind t with
  | 3 => if d.getLsbD 18 && core == 63 then [(s.chip, s.die, true, core)] else [(chip, die, d.getLsbD 18, core)]
  | 6 => if d.getLsbD 18 && core == 63 then [(s.chip, s.die, true, core)] else [(chip, die, d.getLsbD 18, core)]
  | 4 => ((List.range 64).filter (fun c => (cpMask t).getLsbD c)).map (fun c => (chip, die, false, BitVec.ofNat 6 c))
  | _ => [(s.chip, s.die, false, s.core)]

/-- Relays that have packets to send, oldest go first: the loopback takes them in that order, one at a time (R327). -/
def State.relays (s : State) : List EngOp := s.eng.ops.filter (fun o => opKind o.img == 5 && !o.ended && o.sent < o.total)

/-- The loopback goes on with its next relay, where that has started. -/
def State.kickRelay (s : State) : State :=
  match s.relays.head? with
  | some o => if o.started then s.postOnce .relay { n := o.id, side := o.side } else s
  | none => s

/-- What follows the end of an operation: its queue and the loopback go on, and a BANKFMT write may take effect. -/
def State.afterOp (s : State) (side : Side) : State :=
  let s1 := (s.kickSide side).kickRelay
  if s1.scr.fmtPend.isEmpty then s1 else s1.postOnce .bankfmtEffect

/-- An operation leaves: its tensors are unpinned, and its claims released where its region has closed (R38, R147). -/
def State.removeOp (s : State) (o : EngOp) : State :=
  let s1 := s.dropOp o
  (({ s1 with eng := { s1.eng with ops := s1.eng.ops.filter (fun x => x.id != o.id) } }).releaseClosed).afterOp o.side

/-- A cause meets an operation after its go (R313): its tag is free, and the cause waits for its boundary; packets sent before it
are still answered. -/
def State.causeOp (s : State) (o : EngOp) (c : Cause) : State :=
  (((s.tagFree (opTag o.img)).async ⟨c, sideSeq o.side, 0, 0, some o.pc⟩).setOp { o with ended := true, asks := [], ranges := [] }).releaseClosed

/-- A cause ends an operation after its go (R313): no further packet, its tag free, and the cause at the next issue boundary
of its sequencer. -/
def State.endOp (s : State) (o : EngOp) (c : Cause) (tv : Word64) (addr : Addr) : State :=
  let s1 := (s.tagFree (opTag o.img)).async ⟨c, sideSeq o.side, tv, addr, some o.pc⟩
  let o1 := { o with ended := true, asks := [], ranges := [] }
  if o.open_ = 0 then s1.removeOp o1 else (s1.setOp o1).releaseClosed

/-- A collective completes: its tag is set with its record (R325). -/
def State.endColl (s : State) (o : EngOp) (v : Word64) : State :=
  (s.complete (opTag o.img) (opPushes o.img) v o.fresh).removeOp o

/-- A collective whose landings and whose packets are done completes once those of every party are (R325). -/
def State.finishColl (s : State) (id : Nat) : State :=
  match s.engOp id with
  | none => s
  | some o => match o.coll with
    | none => s
    | some c => match c.landed with
      | none => s
      | some v =>
        if s.landingOpen c.land then s
        else
          let s1 := c.acks.foldl (fun s (chip, die, stn, opid) => s.emit (.answer chip die stn opid false)) s
          if o.ended || o.open_ != 0 || !c.agreed then s1.setOp { o with coll := some { c with acks := [] } } else s1.endColl o v

/-- An operation asks the homes outside the package for the tiles that its next packet reads, all at once (R25, R37). -/
def State.askTiles (s : State) (o : EngOp) (bs : List Bound) : State :=
  let (s1, ids) := bs.foldl (fun (s, ids) b =>
    let s1 := (s.sendBound b (.tile o.id)).emit (.access false b 64 0)
    (s1, ids ++ [s1.pkg.requests])) (s, ([] : List Nat))
  s1.setOp { o with asked := true, asks := ids }

/-- One packet of a copy that has started is read, encoded and sent, once the tiles that it reads outside the package have come. -/
def State.sendPacket (s : State) (o : EngOp) : State :=
  let outside := s.packetOutside o.img o.tensors.head? o.sent
  if s.packetBarred o.img o.tensors.head? o.sent then s.postOnce (kindEvent (opKind o.img)) { n := o.id, side := o.side }
  else if !outside.isEmpty && !(o.asked && o.asks.isEmpty) then (if o.asked then s else s.askTiles o outside)
  else match s.packetOf o.img o.tensors.head? o.id o.sent with
    | .error f => s.endOp o f.cause (f.tvalue (cpHandle o.img)) (BitVec.ofNat 72 f.addr)
    | .ok (s1, p, evs) =>
      let s2 := (s1.logEvents p.stag.toNat 2 0 0 (evs.map (fun e => { e with block := o.blocks + e.block }))).count 10 p.bytes
      let ds := s.destinations o.img
      let s3 := ds.foldl (fun s (chip, die, mem, stn) => s.deliver p chip die mem stn) s2
      let last := o.sent + 1 == o.total
      let s4 := s3.setOp { o with sent := o.sent + 1, open_ := o.open_ + ds.length, blocks := o.blocks + ceilDiv (boxSize p.n) 32
                                  asked := false, asks := [], ranges := if last then [] else o.ranges }
      if last then s4.releaseClosed.kickRelay else s4.postOnce (kindEvent (opKind o.img)) { n := o.id, side := o.side }

/-- The answer to one of the reads of tiles outside the package of an operation's next packet, by its number: the tile, or a refusal, which
ends the operation (R25, R313). FAULTADDR of a refusal is the tile number where a home in the package gives it (`State.readElem`) and 0 for
a home outside: the spec states none, and it is the model's choice (log entry 78). -/
def State.tilesCome (s : State) (req : Nat) (refusal : Option Cause) : State :=
  match s.eng.ops.find? (fun o => o.asks.contains req) with
  | none => s
  | some o => match refusal with
    | some c => s.endOp o c (w64 (if kindColl (opKind o.img) then fld o.img 160 32 else (cpHandle o.img).toNat)) 0
    | none =>
      let o1 := { o with asks := o.asks.filter (fun n => n != req) }
      let e := if kindColl (opKind o.img) then Instr.collectiveComplete else kindEvent (opKind o.img)
      let s1 := s.setOp o1
      if !o1.asks.isEmpty then s1
      else if kindColl (opKind o.img) then s1.postOnce e { n := o.id } else s1.postOnce e { n := o.id, side := o.side }

/-- The event of a copy kind: the operation starts when it may, and sends one packet; a relay, when those before it have sent theirs
(R327). -/
def State.runCopy (s : State) (k : Nat) : State :=
  match s.engOp s.input.n with
  | none => s
  | some o =>
    if opKind o.img != k || o.ended || o.total ≤ o.sent || s.stopsEngines then s
    else if k = 5 && (s.relays.head?.map (fun x => x.id)) != some o.id && o.started then s
    else if o.started then s.sendPacket o
    else if s.startable o then
      let o1 := { o with started := true }
      let s1 := s.setOp o1
      let first := k != 5 || (s.relays.head?.map (fun x => x.id)) == some o.id
      (if first then s1.sendPacket o1 else s1).kickSide o.side
    else s

def execArrive (s : State) : Result := occur (s.runCopy 1)
def execGather (s : State) : Result := occur (s.runCopy 2)
def execDepart (s : State) : Result := occur (s.runCopy 3)
def execMcast (s : State) : Result := occur (s.runCopy 4)
def execRelay (s : State) : Result := occur (s.runCopy 5)
def execFill (s : State) : Result := occur (s.runCopy 6)

/-- The answer of a packet reaches the operation that sent it (R92, R313): `core` is the destination for mcast, whose bit keeps a
DISCARDED; else bit 0 does. A refusal ends the operation; a collective is aborted by a DISCARDED too (R325). -/
def State.packetAnswered (s : State) (id core : Nat) (discarded : Bool) (cause : Option Cause) : State :=
  match s.engOp id with
  | none => s
  | some o =>
    let bit := if opKind o.img = 4 then core % 64 else 0
    let o0 := { o with open_ := o.open_ - 1, discarded := if discarded then putBit o.discarded bit true else o.discarded }
    let s0 := s.setOp o0
    let (s1, o1) := match cause with
      | some c => if o0.ended then (s0, o0) else (s0.causeOp o0 c, { o0 with ended := true, asks := [], ranges := [] })
      | none => (s0, o0)
    if o1.coll.isSome && discarded && !o1.ended then s1.endColl o1 (BitVec.allOnes 64)
    else if o1.open_ != 0 then s1
    else if o1.ended then s1.removeOp o1
    else if o1.coll.isSome then s1.finishColl id
    else if o.sent = o.total then s1.postOnce .copyComplete { n := o.id }
    else s1

/-- The answer to an element of a landing outside the package: of a packet at a wharf, or of a collective (R25, R99, R320). -/
def State.elementAnswered (s : State) (land : Nat) (refusal : Option Cause) : State :=
  let s1 := s.landingDone land refusal
  match s1.eng.ops.find? (fun o => o.coll.any (fun c => c.land == land && c.landed.isSome)) with
  | none => s1
  | some o => match refusal with
    | some c => if o.ended then s1 else s1.endOp o c (w64 (fld o.img 192 32)) 0
    | none => s1.finishColl o.id

/-- A move ends with a result (R380). -/
def State.moveEnds (s : State) (result : Nat) (c : Option Cause) : State :=
  let r := put (putBit (s.cfgOf 0x88) 63 false) 60 3 result
  s.setCfg 0x88 (put r 54 6 ((c.map (fun x => x.code.toNat)).getD 0))

/-- The request `id` for granules of an image, or its write of them, has been answered, or refused with a cause: a move goes on with what
came, or ends; a checkpoint keeps the cause (R382, R384). -/
def State.imageAnswered (s : State) (id : Nat) (image : List (Nat × Bool)) (refusal : Option Cause) : State :=
  match s.pkg.moveAsks with
  | some (_, k, _) =>
    if k != id then { s with pkg := { s.pkg with ckRefused := s.pkg.ckRefused.or refusal } }
    else match refusal with
      | none => s.post .migcmdGo { flag2 := true, image := image }
      | some c => ({ s with pkg := { s.pkg with moveAsks := none } }).moveEnds 3 (some c)
  | none => { s with pkg := { s.pkg with ckRefused := s.pkg.ckRefused.or refusal } }

/-- The answer of a packet: within the package of one of operation `n`; from outside, to the request of a number, a packet, an element of a
landing or granules of an image (R92, R371). An answer whose request has been refused before is discarded (R378). -/
def execPacketAnswer (s : State) : Result :=
  let i := s.input
  occur (if i.req = 0 then s.packetAnswered i.n i.w.toNat i.flag i.cause
    else match s.request i.req with
      | none => if s.pkg.moveAsks.any (fun x => x.2.1 == i.req) then s.imageAnswered i.req i.image i.cause else s
      | some f => match f.what with
        | .packet n => (s.settle f).packetAnswered n i.w.toNat i.flag i.cause
        | .element land => (s.settle f).elementAnswered land i.cause
        | .image => (s.settle f).imageAnswered f.id i.image i.cause
        | _ => s)

/-- A copy completes once every packet is answered (R313). -/
def execCopyComplete (s : State) : Result :=
  occur (match s.engOp s.input.n with
    | none => s
    | some o =>
      if !kindCopy (opKind o.img) || o.ended || !o.started || o.sent != o.total || o.open_ != 0 then s
      else (s.complete (opTag o.img) (opPushes o.img) o.discarded o.fresh).removeOp o)

/-! Map and ring operations (R314 to R316). -/

def mpSlot (t : BitVec 512) : Nat := fld t 64 8
def mpMem (t : BitVec 512) : Bool := t.getLsbD 72
def mpSlot2 (t : BitVec 512) : Nat := fld t 96 8
def mpRaddr (t : BitVec 512) : Nat := fld t 128 22

/-- The record of an install or a swap: its bytes as they stand at RADDR, with the tensor it binds (R95, R315 orders 4 and 5). -/
def State.mapRecord (s : State) (t : BitVec 512) (core : Bool) (word : Word64) :
    Except (Cause × Word64 × Nat) (State × BitVec 512 × Option Tensor) :=
  let m := BitVec.ofNat 512 (s.scrRead (mpRaddr t) 64)
  if mpRaddr t % 64 != 0 then .error (.misalign, word, 0)
  else if !s.bankExists (mpRaddr t) then .error (.notMapped, absentBank, 0)
  else match s.mapFault core m with
    | some c => .error (c, goTvalue c word, 0)
    | none =>
      if core then .ok (s, m, none)
      else match s.bindTensor s.die s.asid s.taskSecure (mapHandle m) [] with
        | .error f => .error (f.cause, f.tvalue (mapHandle m), f.addr)
        | .ok (s1, x) => .ok (s1, m, some x)

/-- The slot states that a map operation needs (R106, R315 order 6). -/
def State.slotsFit (s : State) (w : WharfId) (t : BitVec 512) : Bool :=
  match opKind t with
  | 8 => s.plannedSlot w (mpSlot t) == 0
  | 9 => s.plannedSlot w (mpSlot t) == 1 && s.plannedSlot w (mpSlot2 t) == 0
  | 10 => s.plannedSlot w (mpSlot t) == 1
  | _ => true

/-- The go of kinds 8 to 12 is performed when every earlier operation of its queue has started (R315, R316). -/
def State.goMap (s : State) (side : Side) (t : BitVec 512) (chained : Bool) (word : Word64) : Res :=
  let bad (c : Cause) : Res := .trap c (goTvalue c word) 0
  let k := opKind t
  let w := if mpMem t then WharfId.mem s.die else .core
  let record := k == 8 || k == 9
  let took (s : State) : State := { s with eng := { s.eng with last := mset s.eng.last none (sideNum side) none } }
  if !(s.unstarted side).isEmpty || (chained && !s.lastDone side (mget s.eng.last none (sideNum side))) || !s.cqRoom t then .wait s
  else if reservedSet t then bad .reservedBits
  else if k = 12 then
    if s.tagPending (opTag t) then bad .tagBusy
    else match s.initRing (fld t 64 4) (fld t 96 28) (fld t 128 5) with
      | .error c => bad c
      | .ok s1 =>
        let s2 := (s1.tagIssue (opTag t)).complete (opTag t) (opPushes t) 0 true
        .ok (took ({ s2 with cycle := { s2.cycle with tags := putBit s2.cycle.tags (opTag t) true } }.postOnce .packetBeat))
  else if wharfSlots w ≤ mpSlot t || (k = 9 && wharfSlots w ≤ mpSlot2 t) then bad .mapSlot
  else if s.tagPending (opTag t) then bad .tagBusy
  else if record && mpRaddr t % 64 == 0 && s.bankExists (mpRaddr t) && s.scrHeld (mpRaddr t) 64 false then .wait s
  else
    let read : Except (Cause × Word64 × Nat) (State × BitVec 512 × Option Tensor) :=
      if record then s.mapRecord t (w == .core) word else .ok (s, 0, none)
    match read with
    | .error (c, tv, a) => .trap c tv (BitVec.ofNat 72 a)
    | .ok (s1, m, ten) =>
      if !s.slotsFit w t then bad .mapSlot
      else
        let o : MapOp := ⟨k, mpSlot t, mpSlot2 t, m, s.taskSecure, s.asid, true, s.task.id, side, some ⟨opTag t, opPushes t, true, s.task.id⟩, ten⟩
        let s2 := s1.tagIssue (opTag t)
        let s3 := if k = 11 then s2 else s2.pin
        .ok (took ((s3.setWharf w { s3.wharf w with ops := (s3.wharf w).ops ++ [o] }).postOnce .mapBoundary { wharf := w }))

/-- The event of a kind of 8 to 12: the operation of the staging copy of a template slot is performed. -/
def mapEvent (k : Nat) (s : State) : Result :=
  let side := s.input.side
  match mget s.eng.tmpl none (tmplKey side (s.input.n % 64)) with
  | none => occur s
  | some t => if opKind t != k then occur s else finish (sideSeq side) s (s.goMap side t false 0)

def execMapInstall (s : State) : Result := mapEvent 8 s
def execMapSwap (s : State) : Result := mapEvent 9 s
def execMapRetire (s : State) : Result := mapEvent 10 s
def execMapQuery (s : State) : Result := mapEvent 11 s
def execRingInit (s : State) : Result := mapEvent 12 s

/-! Wharf events (R97, R99, R102, R106). -/

/-- A header is taken into matching at a wharf (R97). -/
def execPacketHeader (s : State) : Result :=
  occur (match s.input.packet with
    | some p => s.takeHeader s.input.wharf p
    | none => s)

def execPacketBeat (s : State) : Result := occur (s.landNext s.input.wharf)
def execHoldTimeout (s : State) : Result := occur (s.expireHold s.input.wharf)
def execMapBoundary (s : State) : Result :=
  occur (let s1 := s.mapBoundary s.input.wharf; (s1.kickSide .load).kickSide .store)

end Sys2Proof.Machine
end

