-- ==== Sys2Proof/Machine/Lanes.lean ====
section
/-! DEFINITION. Arithmetic of one lane: FP32 (R250, R262 to R264), INT32 (R265, R266), conversions (R267), and the steps
of reductions and scans (R269). -/
namespace Sys2Proof.Machine

/-- What a lane receives, and the event of its conversion. -/
abbrev LaneResult := Lane × Option Event

/-- A lane read as FP32 is poison (R250). -/
def Lane.fpPoison (l : Lane) : Bool := l.side || l.bits == 0x7FFFFFFF
/-- The exact value of an FP32 lane without poison. -/
def Lane.fp (l : Lane) : Val := decodeFloat fp32 l.bits.toNat
/-- The poison results of R250. -/
def Lane.poisonFp : Lane := ⟨0x7FFFFFFF, true⟩
def Lane.poisonInt : Lane := ⟨0, true⟩
/-- A lane written without poison. -/
def Lane.of (b : Word32) : Lane := ⟨b, false⟩

/-! Exact arithmetic (R262). -/

/-- The exact sum of two finite values as a signed integer × 2^e. -/
def sumParts (n1 : Bool) (m1 : Nat) (e1 : Int) (n2 : Bool) (m2 : Nat) (e2 : Int) : Int × Int :=
  let e := min e1 e2
  let x : Int := (m1 * 2 ^ (e1 - e).toNat : Nat)
  let y : Int := (m2 * 2 ^ (e2 - e).toNat : Nat)
  ((if n1 then -x else x) + (if n2 then -y else y), e)

/-- The sum of two values; the sign of a zero that cancels is that of the rounding mode (R262). -/
def Val.add (rm : Nat) : Val → Val → Val
  | .poison, _ => .poison
  | _, .poison => .poison
  | .nan, _ => .nan
  | _, .nan => .nan
  | .inf a, .inf b => if a = b then .inf a else .nan
  | .inf a, _ => .inf a
  | _, .inf b => .inf b
  | .fin n1 m1 e1, .fin n2 m2 e2 =>
    let (i, e) := sumParts n1 m1 e1 n2 m2 e2
    if i = 0 then .fin (if n1 = n2 then n1 else rm == 3) 0 0 else .fin (decide (i < 0)) i.natAbs e

/-- The value with its sign inverted. -/
def Val.neg : Val → Val
  | .inf a => .inf (!a)
  | .fin n m e => .fin (!n) m e
  | v => v

/-- The product of two values; 0 × ∞ is invalid (R262). -/
def Val.mul : Val → Val → Val
  | .poison, _ => .poison
  | _, .poison => .poison
  | .nan, _ => .nan
  | _, .nan => .nan
  | .inf a, .inf b => .inf (a != b)
  | .inf a, .fin n m _ => if m = 0 then .nan else .inf (a != n)
  | .fin n m _, .inf b => if m = 0 then .nan else .inf (n != b)
  | .fin n1 m1 e1, .fin n2 m2 e2 => .fin (n1 != n2) (m1 * m2) (e1 + e2)

/-- A value rounded once into an FP32 lane (R262). -/
def fpRound (rm : Nat) (satd : Bool) (v : Val) : LaneResult :=
  let c := encodeFloat fp32 rm satd v
  (⟨BitVec.ofNat 32 c.code, c.poison⟩, c.event)

/-- An FP32 instruction of two sources. -/
def fp2 (op : Nat → Val → Val → Val) (rm : Nat) (satd : Bool) (x y : Lane) : LaneResult :=
  if x.fpPoison || y.fpPoison then (.poisonFp, none) else fpRound rm satd (op rm x.fp y.fp)

/-- An FP32 instruction of three sources. -/
def fp3 (op : Nat → Val → Val → Val → Val) (rm : Nat) (satd : Bool) (x y z : Lane) : LaneResult :=
  if x.fpPoison || y.fpPoison || z.fpPoison then (.poisonFp, none) else fpRound rm satd (op rm x.fp y.fp z.fp)

/-- The order key of an FP32 pattern that is no NaN, −0 below +0. -/
def fpKey (b : Word32) : Int := if b.msb then -1 - ((b.toNat % 2 ^ 31 : Nat) : Int) else b.toNat

/-- A lane's pattern is a NaN. -/
def Lane.isNan (l : Lane) : Bool := l.fp == .nan

/-- fmin and fmax copy a value (R263). -/
def fpPick (big : Bool) (x y : Lane) : LaneResult :=
  if x.fpPoison || y.fpPoison then (.poisonFp, none)
  else if x.isNan && y.isNan then (.of 0x7FC00000, none)
  else if x.isNan then (.of y.bits, none)
  else if y.isNan then (.of x.bits, none)
  else (.of (if (if big then fpKey y.bits ≤ fpKey x.bits else fpKey x.bits ≤ fpKey y.bits) then x.bits else y.bits), none)

/-- fabs and fneg (R263). -/
def fpBits (f : Word32 → Word32) (x : Lane) : LaneResult := if x.fpPoison then (.poisonFp, none) else (.of (f x.bits), none)

/-- The FP32 compares (R264): a poison or NaN operand makes every relation false; −0 equals +0. -/
def fpCompare (rel : Int → Int → Bool) (x y : Lane) : Bool :=
  let key (b : Word32) : Int := if b.toNat % 2 ^ 31 = 0 then 0 else fpKey b
  !(x.fpPoison || y.fpPoison) && !(x.isNan || y.isNan) && rel (key x.bits) (key y.bits)

/-- fcmp.un (R264). -/
def fpUnordered (x y : Lane) : Bool := !(x.fpPoison || y.fpPoison) && (x.isNan || y.isNan)

/-! INT32 lanes (R265). -/

/-- An INT32 instruction of two sources that logs nothing. -/
def int2 (f : Word32 → Word32 → Word32) (x y : Lane) : LaneResult :=
  if x.side || y.side then (.poisonInt, none) else (.of (f x.bits y.bits), none)

/-- An INT32 instruction of one source. -/
def int1 (f : Word32 → Word32) (x : Lane) : LaneResult := if x.side then (.poisonInt, none) else (.of (f x.bits), none)

/-- An exact integer clamped into INT32, with its event. -/
def satS32 (t : Int) : LaneResult :=
  if 2 ^ 31 - 1 < t then (.of 0x7FFFFFFF, some .posSat)
  else if t < -2 ^ 31 then (.of 0x80000000, some .negSat)
  else (.of (BitVec.ofInt 32 t), none)

/-- adds and subs. -/
def intSat (f : Int → Int → Int) (x y : Lane) : LaneResult :=
  if x.side || y.side then (.poisonInt, none) else satS32 (f x.bits.toInt y.bits.toInt)

/-- Bits [63:32] of the exact signed product. -/
def mulHigh (a b : Word32) : Word32 := BitVec.ofInt 32 (a.toInt * b.toInt / 2 ^ 32)

/-- Division on 32-bit values (R210, R265): quotient and remainder. -/
def divide32 (signed : Bool) (a b : Word32) : Word32 × Word32 :=
  if b = 0 then (BitVec.allOnes 32, a)
  else if signed then (BitVec.ofInt 32 (a.toInt.tdiv b.toInt), BitVec.ofInt 32 (a.toInt.tmod b.toInt))
  else (BitVec.ofNat 32 (a.toNat / b.toNat), BitVec.ofNat 32 (a.toNat % b.toNat))

/-- The dot product of packed sub-elements of width `w` (R266). -/
def packedDot (w : Nat) (signed : Bool) (a b : Word32) : Int :=
  ((List.range (32 / w)).map (fun j =>
    let x := fld a (w * j) w
    let y := fld b (w * j) w
    if signed then signedCode w x * signedCode w y else ((x * y : Nat) : Int))).sum

/-- Wmac (R266). -/
def wmac (w : Nat) (signed sat : Bool) (x y d : Lane) : LaneResult :=
  if x.side || y.side || d.side then (.poisonInt, none)
  else
    let t := d.bits.toInt + packedDot w signed x.bits y.bits
    if sat then satS32 t else (.of (BitVec.ofInt 32 t), none)

/-! Conversions (R267). -/

/-- An integer code as an INT32 lane. -/
def intLane (f code : Nat) : Word32 :=
  match decodePlain f code with
  | .fin neg m _ => BitVec.ofInt 32 (if neg then -(m : Int) else m)
  | _ => 0

/-- cvt.to: FP32 into format `f`. -/
def cvtTo (f rm : Nat) (satd : Bool) (x : Lane) : LaneResult :=
  let c := encodePlain f rm satd (if x.fpPoison then .poison else x.fp)
  if c.poison then (⟨BitVec.ofNat 32 c.code, true⟩, none)
  else (.of (if fmtInt f then intLane f c.code else BitVec.ofNat 32 c.code), c.event)

/-- cvt.from: format `f` into FP32. -/
def cvtFrom (f rm : Nat) (satd : Bool) (x : Lane) : LaneResult :=
  if x.side then (.poisonFp, none)
  else fpRound rm satd (decodePlain f (x.bits.toNat % 2 ^ fmtWidth f))

/-- cvt.ito: INT32 clamped into an integer format. -/
def cvtIto (f : Nat) (x : Lane) : LaneResult :=
  if x.side then (.poisonInt, none)
  else
    let c := encodePlain f 0 false (Val.ofInt x.bits.toInt)
    (.of (intLane f c.code), c.event)

/-! Reductions and scans (R269): operations 0 fadd, 1 fmax, 2 fmin, 3 iadd, 4 imax, 5 imin. -/

/-- The lanes of an operation are FP32. -/
def redFloat (op : Nat) : Bool := op < 3

/-- A lane is poison for an operation. -/
def redPoison (op : Nat) (l : Lane) : Bool := if redFloat op then l.fpPoison else l.side

/-- The poison result of an operation. -/
def redPoisonLane (op : Nat) : Lane := if redFloat op then .poisonFp else .poisonInt

/-- One step of an operation on lanes without poison. -/
def redStep (op rm : Nat) (satd : Bool) (x y : Lane) : LaneResult :=
  match op with
  | 0 => fp2 (fun r a b => a.add r b) rm satd x y
  | 1 => fpPick true x y
  | 2 => fpPick false x y
  | 3 => (.of (x.bits + y.bits), none)
  | 4 => (.of (if y.bits.slt x.bits then x.bits else y.bits), none)
  | _ => (.of (if x.bits.slt y.bits then x.bits else y.bits), none)

/-- The first of two events. -/
def orEvent (a b : Option Event) : Option Event :=
  match a with
  | some e => some e
  | none => b

/-- Tree (R269) over 2^depth lanes, with the first event of its steps. -/
def redTree (op rm : Nat) (satd : Bool) : Nat → List Lane → LaneResult
  | 0, l => (l.headD .zero, none)
  | n + 1, l =>
    let h := l.length / 2
    let x := redTree op rm satd n (l.take h)
    let y := redTree op rm satd n (l.drop h)
    let r := redStep op rm satd x.1 y.1
    (r.1, orEvent (orEvent x.2 y.2) r.2)

/-- The result of a reduction of 2^depth lanes. -/
def reduce (op rm : Nat) (satd : Bool) (depth : Nat) (l : List Lane) : LaneResult :=
  if l.any (redPoison op) then (redPoisonLane op, none) else redTree op rm satd depth l

/-- An inclusive scan, from a running result on: poison from the first poison lane onward. -/
def scanFrom (op rm : Nat) (satd : Bool) (acc : Option LaneResult) : List Lane → List LaneResult
  | [] => []
  | x :: rest =>
    let bad := redPoison op x || (match acc with
      | some r => r.1.side
      | none => false)
    let r : LaneResult :=
      if bad then (redPoisonLane op, none)
      else match acc with
        | none => (.of x.bits, none)
        | some a => let y := redStep op rm satd a.1 x; (y.1, orEvent a.2 y.2)
    r :: scanFrom op rm satd (some r) rest

end Sys2Proof.Machine
end

