-- ==== Sys2Proof/Machine/Collective.lean ====
section
/-! DEFINITION. Collectives (R317 to R325, R385, R386): their go, the shards a party sends, the reduction and the landing of
what it receives, and their completion. -/
namespace Sys2Proof.Machine

/-! Fields of a collective template (R317). -/

def clGva (t : BitVec 512) : Addr := BitVec.ofNat 72 (fld t 64 32 + 2 ^ 32 * fld t 96 32 + 2 ^ 64 * fld t 128 8)
def clSbuf (t : BitVec 512) : Word32 := BitVec.ofNat 32 (fld t 160 32)
def clRbuf (t : BitVec 512) : Word32 := BitVec.ofNat 32 (fld t 192 32)
def clRank (t : BitVec 512) : Nat := fld t 224 20
def clPeer (t : BitVec 512) : Nat := fld t 256 20
def clVer (t : BitVec 512) : Word32 := BitVec.ofNat 32 (fld t 288 32)
def clWfmt (t : BitVec 512) : Nat := fld t 320 5
def clSpaddr (t : BitVec 512) : Nat := fld t 352 22
/-- A redscat or an allred, which reduce. -/
def clReduces (t : BitVec 512) : Bool := opKind t == 17 || opKind t == 18
/-- The operation keeps a table in the scratchpad (R323, R324). -/
def clTable (t : BitVec 512) : Bool := ctlVrec (opCtl t) || ctlVchk (opCtl t) || ctlStat (opCtl t)
/-- Words of the table for `p` parties. -/
def clWords (t : BitVec 512) (p : Nat) : Nat := if ctlStat (opCtl t) then p + 1 else p

/-- E0 of R319 from the extent of the send buffer in dimension 0. -/
def clE0 (t : BitVec 512) (x0 p : Nat) : Nat := if opKind t = 17 then x0 / p else x0

/-! The go (R318). -/

/-- The cause that the parties registered before it give to the registration of a collective (R318, R319): GROUP_STATE, WORLD, then
LAYOUT_MISMATCH. -/
def mixFault (others : List Registration) (r : Registration) : Option Cause :=
  if others.any (fun x => x.rank == r.rank || x.kind != r.kind || x.op != r.op || x.wfmt != r.wfmt || (r.kind == 20 && x.peer == r.peer)) then
    some .groupState
  else if others.any (fun x => x.secure != r.secure) then some .world
  else if others.head?.any (fun x => x.extents != r.extents) then some .layoutMismatch
  else none

/-- RANK or PEER does not name a party of `p`, or there are too many. -/
def rankFault (r : Registration) (p : Nat) : Bool :=
  decide (p ≤ r.rank) || ((r.kind == 19 || r.kind == 20) && decide (p ≤ r.peer)) || decide (4096 < p)

/-- The first applicable cause of the table of R318 for an open epoch of `p` parties with those registered, and that of R72 on the
table's bank. The home's engine judges what a party registers by it, and the go of a party of another home by the P that it learns. -/
def collFault (p : Nat) (r : Registration) (others : List Registration) : Option Cause :=
  let c := r.ctl
  let k := r.kind
  let table := ctlVrec c || ctlVchk c || ctlStat c
  let words := if ctlStat c then p + 1 else p
  let reduces := k == 17 || k == 18
  let shard := boxSize r.extents * fmtWidth r.fmts.1
  let x0 := at4 r.extents 0
  let e0 := if k = 17 then x0 / p else x0
  let landed := if k = 16 then p * e0 else e0
  let mixed := mixFault others r
  if rankFault r p || !fmtKnown r.wfmt || (ctlVrec c && ctlVchk c) || (ctlStat c && k != 17) || ((ctlVrec c || ctlVchk c) && k != 16) ||
      (table && (r.spaddr % 4 != 0 || 65536 < r.spaddr % 65536 + 4 * words)) || (k = 20 && r.same && 2 ^ 27 < shard) then some .fieldRange
  else if table && r.tableAbsent then some .notMapped
  else if mixed.isSome then mixed
  else if r.ranks.1 != r.ranks.2 || (k = 17 && x0 % p != 0) || at4 r.rextents 0 != landed ||
      (List.range 4).any (fun d => d != 0 && at4 r.rextents d != at4 r.extents d) then some .layoutMismatch
  else if (reduces && (fmtInt r.fmts.2 == decide (ctlOp c < 3) || [r.fmts.1, r.wfmt, r.fmts.2].any fmtFixed)) ||
      conversionForbidden r.fmts.1 r.wfmt || conversionForbidden r.wfmt r.fmts.2 || (ctlStat c && r.tableFmt != some 0) then
    some .formatMismatch
  else none

/-- The block claims of a collective on what it reads of a checked send buffer (R146, R148): the whole buffer, for bcast at the
root alone. A receive buffer takes none: it is landed as a memory wharf lands (R320). -/
def State.collBlocks (s : State) (t : BitVec 512) (x : Tensor) : List (Nat × Nat × Nat) :=
  let ext := (List.range 4).map (extOf x.main.entry)
  if opKind t = 19 && clPeer t != clRank t then []
  else s.tensorBlocks x .read ((List.range (boxSize ext)).map (fun i => coordOf (boxPlace ext i)))

/-- The range-checker entry of the table of a collective of `p` parties (R83). -/
def collRanges (t : BitVec 512) (p : Nat) : List Range :=
  let lo := clSpaddr t
  if clTable t then [⟨lo / 64, (lo + 4 * clWords t p - 1) / 64, ctlVchk (opCtl t), !ctlVchk (opCtl t)⟩] else []

/-- What a party registers (R318): `sx` and `rx` are the entries of its buffers. -/
def State.registration (s : State) (t sx rx : BitVec 512) (pa : Nat) (epoch : Word32) : Registration :=
  let k := opKind t
  let bank := clSpaddr t / 65536
  let ext (e : BitVec 512) : List Nat := (List.range 4).map (extOf e)
  { pa := pa, epoch := epoch, chip := s.chip, die := s.die, core := s.core, rank := clRank t
    peer := if k = 19 || k = 20 then clPeer t else 0, kind := k, op := if clReduces t then ctlOp (opCtl t) else 0, wfmt := clWfmt t
    secure := s.taskSecure, extents := ext sx, ctl := opCtl t, spaddr := clSpaddr t, rextents := ext rx
    ranks := (teRank sx, teRank rx), fmts := (teFmt sx, teFmt rx), same := clSbuf t == clRbuf t
    tableFmt := if s.bankConsistent bank then some (s.bankFmt bank) else none, tableAbsent := decide (s.nbank ≤ bank) }

/-- A go that the home of a group outside the package answers (R318): asked for once, then waited for; `k` takes its value. -/
def State.askHome (s : State) (side : Side) (b : Bound) (m : Message) (refused : Cause → Res) (k : State → Word64 → Res) : Res :=
  let set (s : State) (r : Remote) : State := { s with eng := { s.eng with remote := mset s.eng.remote .idle (sideNum side) r } }
  let here := s.pcOf (sideSeq side)
  let ask : Res := match s.hubRefusal b with
    | some c => refused c
    | none =>
      let s1 := (s.sendBound b (.go side)).emit m
      .wait (set s1 (.waiting here s1.pkg.requests))
  match mget s.eng.remote .idle (sideNum side) with
  | .answered pc v refusal =>
    if pc = here then
      match refusal with
      | some c => refused c
      | none => k (set s .idle) v
    else ask
  | .waiting pc _ => if pc = here then .wait s else ask
  | .idle => ask

/-- The chip and die of the parties of a collective whose record has its home in the package, by rank, once all `p` have registered. -/
def State.partiesOf (s : State) (pa : Nat) (epoch : Word32) (p : Nat) : List (BitVec 10 × BitVec 2) :=
  let rs := (s.registered pa epoch).filter (fun r => r.kind != 0)
  let l := (List.range p).filterMap (fun n => (rs.find? (fun r => r.rank == n)).map (fun r => (r.chip, r.die)))
  if l.length = p then l else []

/-- Whether a collective is of an epoch of a record with its home in the package. -/
def Coll.isOf (c : Coll) (pa : Nat) (epoch : Word32) : Bool := c.pa == some pa && c.epoch == epoch

/-- The core's collectives of an epoch of a record learn their parties once all have registered (R318). -/
def State.gather (s : State) (pa : Nat) (epoch : Word32) : State :=
  let ops := s.eng.ops.map (fun o => match o.coll with
    | none => o
    | some c => if c.isOf pa epoch && c.parties.isEmpty then { o with coll := some { c with parties := s.partiesOf pa epoch o.total } } else o)
  let ready := ops.filter (fun o => o.started && o.coll.any (fun c => c.isOf pa epoch && !c.sent && !c.parties.isEmpty))
  ready.foldl (fun s o => s.postOnce .collectiveComplete { n := o.id }) { s with eng := { s.eng with ops := ops } }

/-- The go of a collective (R318): `word` is the TVALUE of its causes (R200). -/
def State.goColl (s : State) (side : Side) (slot : Nat) (t : BitVec 512) (chained : Bool) (word : Word64) : Res :=
  let bad (c : Cause) : Res := .trap c (goTvalue c word) 0
  let buffer (s : State) (h : Word32) (k : State → Tensor → Res) : Res :=
    match s.bindTensor s.die s.asid s.taskSecure h [] with
    | .error f => .trap f.cause (f.tvalue h) (BitVec.ofNat 72 f.addr)
    | .ok (s1, x) => k s1 x
  let va := clGva t
  let held (p : Nat) : Bool :=
    let rs := collRanges t p
    8 ≤ (s.unstarted side).length || !s.cqRoom t || (!rs.isEmpty && s.engineRangesFull) || rs.any (fun r => s.rangeHeld r.lo r.hi r.wr) ||
      (ctlStat (opCtl t) && s.formatHeld (clSpaddr t / 65536))
  let claimed (s : State) (sb : Tensor) (k : State → List Nat → Res) : Res :=
    match s.claimBlocks (sideSeq side) (clSbuf t) (s.collBlocks t sb) with
    | .error (c, tv, tile) => .trap c (if c = .race then tv else word) (BitVec.ofNat 72 tile)
    | .ok (s1, units) => k s1 units
  let go (s : State) (m : Member) (p : Nat) (pa : Option Nat) (epoch : Word32) (sb rb : Tensor) (units : List Nat) : State :=
    let c : Coll := { pa := pa, epoch := epoch, parties := [], sent := false, own := [], land := 0, acks := [], landed := none, agreed := p = 1 }
    ((s.setMember m).pin).takeOp
      { s.newOp side slot t chained with total := p, tensors := [sb, rb], ranges := collRanges t p, claims := units, coll := some c }
  if reservedSet t then bad .reservedBits
  else if !fmtKnown (clWfmt t) || 5 < ctlOp (opCtl t) then bad .fieldRange
  else if s.tagPending (opTag t) then bad .tagBusy
  else buffer s (clSbuf t) (fun s1 sb => buffer s1 (clRbuf t) (fun s2 rb =>
    if va.toNat % 32 != 0 then bad .misalign
    else match s2.bindAs s.sup s.taskSecure va .both with
      | .error (c, _) => bad c
      | .ok (s3, b, _) =>
        let reg (epoch : Word32) : Registration := s.registration t sb.main.entry rb.main.entry b.pa epoch
        if leafChk b.leaf || 2 ≤ s3.target b.leaf then bad .atomicTarget
        else if s3.target b.leaf = 1 then
          match s3.member va with
          | none => bad .groupState
          | some m =>
            if held 4096 then .wait s
            else claimed s3 sb (fun s4 units =>
              s.askHome side b (.register b (reg m.joined) m.counted) bad (fun u v =>
                let epoch : Word32 := v.setWidth 32
                let p := fld v 32 20
                match collFault p (reg epoch) [] with
                | some c => bad c
                | none => .ok (go { s4 with eng := { s4.eng with remote := u.eng.remote } } { m with arrived := some epoch } p none epoch sb rb
                    units)))
        else match s3.homeRefusal b b.pa true with
          | some c => bad c
          | none => match s3.readHome b b.pa 32 with
            | .error c => bad c
            | .ok v =>
              let g := BitVec.ofNat 256 v
              let m := s3.member va
              let p := grpExpect g
              let r := reg (grpEpoch g)
              if !grpOpen g then bad .groupState
              else if m.any (fun x => x.arrived == some (grpEpoch g)) then .wait s
              else match collFault p r (s3.registered b.pa (grpEpoch g)), m.bind (arriveGroup g) with
                | some c, _ => bad c
                | none, none => bad .groupState
                | none, some (g1, m1) =>
                  if held p then .wait s
                  else claimed s3 sb (fun s4 units => match s4.writeHome b b.pa 32 g1.toNat with
                    | .error c => bad c
                    | .ok s5 => .ok ((go (s5.register r) m1 p (some b.pa) (grpEpoch g) sb rb units).gather b.pa (grpEpoch g)))))

/-! The parties of other cores at a home of this package (R318). -/

/-- The cause that the home's collective engine gives to another party's registration in an open record, if any; a bar.arrive (kind 0)
meets none. -/
def State.partyFault (s : State) (g : GroupRecord) (r : Registration) (counted : Bool) : Option Cause :=
  let others := s.registered r.pa r.epoch
  if !grpOpen g || r.epoch != grpEpoch g then some .groupState
  else match (if r.kind = 0 then none else collFault (grpExpect g) r others) with
    | some c => some c
    | none => if !counted then some .groupState else none

/-- Another party registers and arrives at a record, as one operation; or its registration is refused, as every request is by a stopped
package (R365). -/
def State.partyArrives (s : State) (r : Registration) (counted : Bool) : State :=
  if s.pkg.stopped then s.emit (.unregistered r .containedStop)
  else match s.readTable r.pa 32 with
  | .error c => s.emit (.unregistered r c)
  | .ok v =>
    let g := BitVec.ofNat 256 v
    match s.partyFault g r counted with
    | some c => s.emit (.unregistered r c)
    | none => ((s.register r).writeTable r.pa 32 (countArrival g).toNat).gather r.pa r.epoch

/-! What an answer from outside the package brings. -/

/-- The answer of a group's home to the go of the load or the store sequencer whose request has the number. -/
def State.goAnswered (s : State) (id : Nat) (v : Word64) (refusal : Option Cause) : State :=
  { s with eng := { s.eng with remote := s.eng.remote.map (fun (n, r) => (n, match r with
    | .waiting pc k => if k = id then .answered pc v refusal else r
    | _ => r)) } }

/-- The answer to an access of the hardware whose request has the number. -/
def State.hwAnswered (s : State) (id v : Nat) (refusal : Option Cause) : State :=
  { s with mu := { s.mu with hw := s.mu.hw.map (fun a => if a.req = id && a.answer.isNone then { a with answer := some (v, refusal) } else a) } }

/-- The request of a number has its answer, which goes to whoever waits for it: the word of the control sequencer, a go, an engine
operation's read of tiles, or an access of the hardware (R25, R26, R318). -/
def State.returned (s : State) (id : Nat) (v : Word64) (data : Nat) (refusal : Option Cause) : State :=
  (((s.answer id v refusal).goAnswered id v refusal).hwAnswered id (v.toNat + 2 ^ 64 * data) refusal).tilesCome id refusal

/-- An answer from outside the package to the request of a number: its value, with what it brings beyond 8 bytes, or its refusal. -/
def execLoadReturn (s : State) : Result :=
  let i := s.input
  occur ((s.settleId i.req).returned i.req i.v i.data i.cause)

/-! What a party sends (R320, R386). -/

/-- A party reads and sends its buffer: for bcast the root alone. -/
def clSends (t : BitVec 512) : Bool := opKind t != 19 || clPeer t == clRank t

/-- The slices that a party sends, for redscat one to each rank, and the length of one along dimension 0. -/
def clSlices (o : EngOp) : Nat := if opKind o.img = 17 then o.total else 1

/-- The ranks to which slice `j` goes, a party's own among them (R319, R386). -/
def clDestinations (o : EngOp) (j : Nat) : List Nat :=
  match opKind o.img with
  | 17 => [j]
  | 20 => [clPeer o.img]
  | _ => List.range o.total

/-- The packets of a send buffer: slice and place in it. -/
def clPackets (o : EngOp) (e : BitVec 512) : List (Nat × Nat) :=
  let n := extOf e 1 * extOf e 2 * extOf e 3 * ceilDiv (clE0 o.img (extOf e 0) o.total) 1024
  if clSends o.img then (List.range (clSlices o)).flatMap (fun j => (List.range n).map (fun i => (j, i))) else []

/-- Packet `i` of slice `j` of the send buffer, coordinates relative to the slice, with the first events of its wire blocks: rows are cut
from their first element (R320). -/
def State.shardPacket (s : State) (o : EngOp) (x : Tensor) (j i : Nat) : Except TensorFault (State × Packet × List BlockEvent) :=
  let e := x.main.entry
  let c := opCtl o.img
  let len := clE0 o.img (extOf e 0) o.total
  let cuts := ceilDiv len 1024
  let row := i / cuts
  let c0 := 1024 * (i % cuts)
  let n := min 1024 (len - c0)
  let at_ := [c0, row % extOf e 1, row / extOf e 1 % extOf e 2, row / (extOf e 1 * extOf e 2)]
  let read := (List.range n).foldl (fun acc k => match acc with
    | .error f => .error f
    | .ok (s, l) => match s.tensorElem true x (j * len + c0 + k, at4 at_ 1, at4 at_ 2, at4 at_ 3) with
      | .error f => .error f
      | .ok (s1, v) => .ok (s1, l ++ [v])) (Except.ok (s, ([] : List Sourced)))
  match read with
  | .error f => .error f
  | .ok (s1, l) =>
    let (elems, scales, ev) := encodeWire (teFmt e) (clWfmt o.img) (ctlRm c) (ctlSatd c) l
    .ok (s1, { c := at_, n := [n, 1, 1, 1], wfmt := BitVec.ofNat 5 (clWfmt o.img), rm := ctlRm c, satd := ctlSatd c
               world := o.secure, lastp := i + 1 == extOf e 1 * extOf e 2 * extOf e 3 * cuts, skind := 1, chip := s.chip, die := s.die
               stn := s.core, opid := o.id, stag := 0, elems := elems, scales := scales },
      (firstEvents ev).map (fun v => { v with block := 2 ^ 28 * j + i * 32 + v.block }))

/-- A packet goes to the party of a rank: within the package by the rings, its hops counted (R387, log entry 66), and to another chip as a
relaxed request to its landing window (R376, R379). -/
def State.sendShard (s : State) (o : EngOp) (parties : List (BitVec 10 × BitVec 2)) (p : Packet) (rank : Nat) : State :=
  let (chip, die) := parties.getD rank (s.chip, s.die)
  let s1 := if chip == s.chip then s.count 9 (hops s.die die)
    else s.sendFabric { what := .packet o.id, pool := false, chip := chip, pa := 0, secure := o.secure }
  s1.emit (.shard o.id rank chip p)

/-- The packets of a send buffer are read, encoded once each, logged with ORIGIN 3 and sent, one after another (R320, R385, R386), up to the
first cause (R313): the state then, the packets that the party keeps for itself, with their slices, those sent to others, and the cause. -/
def State.sendShards (s : State) (o : EngOp) (x : Tensor) (parties : List (BitVec 10 × BitVec 2)) :
    List (Nat × Nat) → State × List (Nat × Packet) × Nat × Option TensorFault
  | [] => (s, [], 0, none)
  | (j, i) :: rest => match s.shardPacket o x j i with
    | .error f => (s, [], 0, some f)
    | .ok (s1, p, evs) =>
      let s2 := evs.foldl (fun s e => s.logEvent 0 3 0 0 e) s1
      let dst := clDestinations o j
      let others := dst.filter (fun k => k != clRank o.img)
      let s3 := others.foldl (fun s k => s.sendShard o parties p k) s2
      let (s4, own, n, f) := s3.sendShards o x parties rest
      (s4, if dst.contains (clRank o.img) then (j, p) :: own else own, n + others.length, f)

/-! What a party receives (R320, R321, R323, R324). -/

/-- The exact value of element `j` of a packet. -/
def Packet.value (p : Packet) (j : Nat) : Val :=
  let x := p.piece j 0 0
  x.val p.wfmt.toNat

/-- A value as a lane of the reduction: FP32 by RNE for a float operation, INT32 for an integer one. -/
def reduceLane (op : Nat) (v : Val) : Lane :=
  if v == .poison then redPoisonLane op
  else .of (BitVec.ofNat 32 (if redFloat op then (encodeFloat fp32 0 false v).code else (encodePlain 21 0 false v).code))

/-- The reduction of the contributions of all ranks to one element, in rank order, with its first event (R321). -/
def reduceRanks (op : Nat) (l : List Lane) : LaneResult :=
  if l.any (redPoison op) then (redPoisonLane op, none)
  else match l with
    | [] => (.zero, none)
    | x :: rest => rest.foldl (fun a y => let r := redStep op 0 false a.1 y; (r.1, orEvent a.2 r.2)) (x, none)

/-- The packet of reduced elements at the place of the packets `ps` of all ranks, in FP32 or INT32, with the events of its
elements. -/
def reducePackets (op : Nat) (ps : List Packet) : Option (Packet × List (Nat × Event)) :=
  match ps with
  | [] => none
  | p :: _ =>
    let ys := (List.range (boxSize p.n)).map (fun j => reduceRanks op (ps.map (fun q => reduceLane op (q.value j))))
    some ({ p with wfmt := if redFloat op then 0 else 21, scales := []
                   elems := ys.map (fun y => ⟨y.1.bits, if redFloat op then y.1.fpPoison else y.1.side⟩) },
      (ys.zipIdx).filterMap (fun (y, j) => y.2.map (fun e => (j, e))))

/-- A packet lands in the receive buffer with dimension 0 moved by `base` (R320), by a reduction or by a write (R37): the events of its
reduction and of its landing, each with its place in its block. -/
def State.landShard (s : State) (o : EngOp) (x : Tensor) (p : Packet) (base : Nat) (evs : List (Nat × Event)) :
    State × Option TensorFault × List (Nat × BlockEvent) :=
  let c := opCtl o.img
  let dst (j : Nat) : List Nat := let u := p.coord j; u.set 0 (at4 u 0 + base)
  let (s1, fault, landed) := s.landTensor x (if clReduces o.img then .both else .write) p (ctlRm c).toNat (ctlSatd c) dst
  let reduced := evs.map (fun (j, e) => let y := eventPlace x.main.entry (coordOf (dst j)); (y.2, (⟨y.1, e⟩ : BlockEvent)))
  (s1, fault, reduced ++ landed)

/-- Packets that land in order, up to the first cause, with their events. -/
def State.landShards (s : State) (o : EngOp) (x : Tensor) :
    List (Packet × Nat × List (Nat × Event)) → State × Option TensorFault × List (Nat × BlockEvent)
  | [] => (s, none, [])
  | (p, base, evs) :: rest =>
    match s.landShard o x p base evs with
    | (s1, some f, es) => (s1, some f, es)
    | (s1, none, es) => let (s2, f, es') := s1.landShards o x rest; (s2, f, es ++ es')

/-- The events of what a collective lands are logged with ORIGIN 1: of a destination block the first in element order (R67, R320). -/
def State.logLanded (s : State) (es : List (Nat × BlockEvent)) : State :=
  (tiledEvents (firstEvents es)).foldl (fun s (tile, e) => s.logEvent 0 1 0 tile e) s

/-- The exact sum of the squares of a list of values, rounded once to FP32 by RNE, saturating (R324). -/
def squareSum (l : List Val) : Coded := encodeElem 0 0 false (l.foldl (fun a v => a.add 0 (v.mul v)) .zero)

/-- A word of the table of a collective. -/
def clWordAt (t : BitVec 512) (k : Nat) : Nat := clSpaddr t + 4 * k

/-- The statistics of a redscat (R324): the sums of squares of each rank's contributions and of the reduced values. -/
def State.writeStats (s : State) (t : BitVec 512) (shards : List (List Packet)) (reduced : List Packet) : State :=
  let values (ps : List Packet) : List Val := ps.flatMap (fun p => (List.range (boxSize p.n)).map p.value)
  let words := (shards ++ [reduced]).map (fun ps => squareSum (values ps))
  s.storePlaces ((words.zipIdx).map (fun (c, k) => ⟨8 * clWordAt t k, 32, c.code, c.poison⟩))

/-- Shards in ascending order of rank. -/
def insertShard (x : Shard) : List Shard → List Shard
  | [] => [x]
  | y :: r => if x.rank ≤ y.rank then x :: y :: r else y :: insertShard x r

/-- What a party lands from its own shards and those of the other parties, or none where some have not come: the packets with
their move along dimension 0 and the events of their reduction, and for a reduction the contributions by rank. -/
def collLandings (o : EngOp) (e0 : Nat) (own : List (List Packet)) (others : List Shard) :
    Option (List (Packet × Nat × List (Nat × Event)) × List (List Packet)) :=
  let t := o.img
  let r := clRank t
  let mine : Shard := ⟨r, clVer t, own.flatten⟩
  let all := others.foldr insertShard [mine]
  let whole := all.map (fun x => x.rank) == List.range o.total
  match opKind t with
  | 16 => if whole then some (all.flatMap (fun x => x.packets.map (fun p => (p, x.rank * e0, []))), []) else none
  | 19 => (all.find? (fun x => x.rank == clPeer t)).map (fun x => (x.packets.map (fun p => (p, 0, [])), []))
  | 20 => (if clPeer t = r then some mine else others.head?).map (fun x => (x.packets.map (fun p => (p, 0, [])), []))
  | _ =>
    if !whole then none
    else
      let n := mine.packets.length
      let at_ (i : Nat) : List Packet := all.filterMap (fun x => x.packets[i]?)
      some ((List.range n).filterMap (fun i => (reducePackets (ctlOp (opCtl t)) (at_ i)).map (fun (p, evs) => (p, 0, evs))),
        all.map (fun x => x.packets))

/-- The STALE ranks of an allgather with VCHK: those whose version differs from the table's word (R323). -/
def State.staleRanks (s : State) (o : EngOp) (others : List Shard) : List Nat :=
  if ctlVchk (opCtl o.img) then
    let all := others.foldr insertShard [⟨clRank o.img, clVer o.img, []⟩]
    (all.filter (fun x => s.scrRead (clWordAt o.img x.rank) 4 != x.ver.toNat)).map (fun x => x.rank)
  else []

/-- The versions that VREC records (R323). -/
def State.recordVersions (s : State) (o : EngOp) (others : List Shard) : State :=
  if ctlVrec (opCtl o.img) then
    (others.foldr insertShard [⟨clRank o.img, clVer o.img, []⟩]).foldl (fun s x => s.scrWrite (clWordAt o.img x.rank) 4 x.ver.toNat) s
  else s

/-! Completion (R325). -/

/-- An earlier collective of the core that has not ended holds this one: by a condition on it, or, of one ASID and with a common tensor slot,
until it has completed (R322). -/
def State.collHeld (s : State) (o : EngOp) (p : Coll → Bool) : Bool :=
  let slots (x : EngOp) : List (BitVec 20) := x.tensors.map (fun t => t.main.slot)
  (s.eng.ops.takeWhile (fun x => x.id != o.id)).any (fun x => !x.ended && match x.coll with
    | none => false
    | some c => !p c || (x.asid == o.asid && (slots x).any (fun k => (slots o).contains k)))

/-- The elements of a tensor. -/
def wholeTensor (x : Tensor) : List Coord :=
  let n := (List.range 4).map (extOf x.main.entry)
  (List.range (boxSize n)).map (fun i => coordOf (boxPlace n i))

/-- A collective whose parties have registered reads and sends its buffer, in the order of the gos; what it reads outside the package is
asked for and waited for first (R320, R322). -/
def State.sendColl (s : State) (o : EngOp) (c : Coll) (sb : Tensor) : State :=
  let again := s.postOnce .collectiveComplete { n := o.id }
  let outside := if clSends o.img then s.outsideTiles sb (wholeTensor sb) else []
  if s.collHeld o (fun x => x.sent) || (s.changing && s.tilesBarred sb .read (wholeTensor sb)) then again
  else if !outside.isEmpty && !(o.asked && o.asks.isEmpty) then (if o.asked then s else s.askTiles o outside)
  else
    let (s1, own, n, fault) := s.sendShards o sb c.parties (clPackets o sb.main.entry)
    let slices := (List.range (clSlices o)).map (fun j => (own.filter (fun x => x.1 == j)).map (fun x => x.2))
    let o1 := { o with open_ := n, coll := some { c with sent := true, own := slices } }
    match fault with
    | some f => (s1.setOp o1).endOp o1 f.cause (f.tvalue (clSbuf o.img)) (BitVec.ofNat 72 f.addr)
    | none =>
      let s2 := (s1.setOp o1).releaseClosed
      if o.total = 1 then s2.postOnce .collectiveComplete { n := o.id } else s2

/-- The packets of other chips among those received pass the landing window of the package (R379): whether all did. -/
def State.shardsThroughWindow (s : State) (others : List Shard) : State × Bool :=
  (others.flatMap (fun x => x.packets)).foldl (fun (s, ok) p =>
    if p.chip == s.chip then (s, ok)
    else
      let (s1, y) := s.throughWindow p s.die
      (s1, ok && y)) (s, true)

/-- The collective engine's part of a collective whose other parties' shards have come: it reduces and lands them in the order of the gos, and
its record has its value (R320 to R325). A packet that the landing window does not let through aborts it. -/
def State.landColl (s : State) (o : EngOp) (c : Coll) (sb rb : Tensor) (others : List Shard) : State :=
  let t := o.img
  let e0 := clE0 t (extOf sb.main.entry 0) o.total
  if s.collHeld o (fun x => x.landed.isSome) || (s.changing && s.tilesBarred rb .write (wholeTensor rb)) then s.post .collectiveComplete s.input
  else match collLandings o e0 c.own others with
    | none => s
    | some (ps, parts) => match s.shardsThroughWindow others with
      | (s1, false) => s1.endColl o (BitVec.allOnes 64)
      | (s1, true) =>
        let stale := s1.staleRanks o others
        let fresh := if opKind t = 16 then ps.filter (fun x => !stale.contains (x.2.1 / e0)) else ps
        let (s2, fault, es) := s1.newLanding.landShards o rb fresh
        let s3 := s2.logLanded es
        match fault with
        | some f => s3.endOp o f.cause (f.tvalue (clRbuf t)) (BitVec.ofNat 72 f.addr)
        | none =>
          let s4 := if ctlStat (opCtl t) then s3.writeStats t parts (ps.map (fun x => x.1)) else s3
          let v := if ctlVchk (opCtl t) then put (put (0 : Word64) 32 32 (stale.headD (2 ^ 32 - 1))) 0 32 stale.length else 0
          let acks := (others.flatMap (fun x => x.packets)).map (fun p => (p.chip, p.die, p.stn, p.opid))
          ((s4.recordVersions o others).setOp { o with coll := some { c with land := s4.pkg.landings, acks := acks, landed := some v } }).finishColl
            o.id

/-- A collective goes on (R320 to R325). Its parties have all registered: of a record with its home in another package, `flag2` says so, with
the chip and die of each in `data`. Then it sends its buffer; with the shards of the other parties it lands; and `flag2` then says that the
landings of every party are done. `flag` is an abort by another party's cause or by a discard. -/
def execCollectiveComplete (s : State) : Result :=
  let i := s.input
  occur (match s.engOp i.n with
    | none => s
    | some o => match o.coll, o.tensors with
      | some c, sb :: rb :: _ =>
        if o.ended then s
        else if i.flag then s.endColl o (BitVec.allOnes 64)
        else if c.parties.isEmpty then
          if !i.flag2 || c.pa.isSome then s
          else
            let ps := (List.range o.total).map (fun k => (BitVec.ofNat 10 (i.data / 2 ^ (12 * k)), BitVec.ofNat 2 (i.data / 2 ^ (12 * k + 10))))
            (s.setOp { o with coll := some { c with parties := ps } }).postOnce .collectiveComplete { n := o.id }
        else if !o.started then (if i.others.isEmpty then s else s.post .collectiveComplete i)
        else if !c.sent then
          let s1 := s.sendColl o c sb
          if i.others.isEmpty then s1 else s1.post .collectiveComplete i
        else if i.flag2 && c.landed.isSome then (s.setOp { o with coll := some { c with agreed := true } }).finishColl o.id
        else if c.landed.isSome || (i.others.isEmpty && o.total != 1) then s
        else s.landColl o c sb rb i.others
      | _, _ => s)

/-- The event of a collective kind: another party registers with a record's home in the package, or the operation of the staging copy of
a template slot is performed. -/
def collEvent (k : Nat) (s : State) : Result :=
  let side := s.input.side
  match s.input.reg with
  | some r => occur (s.partyArrives r s.input.flag)
  | none => match mget s.eng.tmpl none (tmplKey side (s.input.n % 64)) with
  | none => occur s
  | some t => if opKind t != k then occur s else finish (sideSeq side) s (s.goColl side (s.input.n % 64) t false 0)

def execAllgather (s : State) : Result := collEvent 16 s
def execRedscat (s : State) : Result := collEvent 17 s
def execAllred (s : State) : Result := collEvent 18 s
def execBcast (s : State) : Result := collEvent 19 s
def execPermute (s : State) : Result := collEvent 20 s

end Sys2Proof.Machine
end

