-- ==== Sys2Proof/Machine/Launch.lean ====
section
/-! DEFINITION. Launches (R331 to R333, R345 to R347), stage queues (R329, R335, R348), and the end of a task (R341, R347). -/
namespace Sys2Proof.Machine

/-! The checks of a launch (R331). -/

/-- A cause with TVALUE and FAULTADDR. -/
abbrev Denied := Cause × Word64 × Addr

/-- Bytes read as control-sequencer loads in units of `u` bytes, `n` units; `own` says that the issuer's claims stand beside
them. -/
def State.loadUnits (s : State) (asid : BitVec 11) (secure sup own : Bool) (u : Nat) (va : Addr) : Nat → Except Denied (State × Nat)
  | 0 => .ok (s, 0)
  | n + 1 => match s.hwRead asid secure sup .read va u with
    | .error (c, tv) => .error (c, tv, va)
    | .ok (s1, v, b) =>
      match (if own && s1.checked b && s1.target b.leaf = 0 then s1.claimRefusal .control (s1.granuleOf b) false else none) with
      | some (c, tv) => .error (c, tv, va)
      | none => match State.loadUnits s1 asid secure sup own u (va + BitVec.ofNat 72 u) n with
        | .error e => .error e
        | .ok (s2, w) => .ok (s2, v + 2 ^ (8 * u) * w)

/-- `n` bytes, a multiple of 8, at any address. -/
def State.loadBytes (s : State) (asid : BitVec 11) (secure sup own : Bool) (va : Addr) (n : Nat) : Except Denied (State × Nat) :=
  if va.toNat % 8 = 0 then s.loadUnits asid secure sup own 8 va (n / 8) else s.loadUnits asid secure sup own 1 va n

/-- A list read in order, one item at each address. -/
def State.loadItems (s : State) (asid : BitVec 11) (secure sup own : Bool) (n : Nat) : List Addr → Except Denied (State × List Nat)
  | [] => .ok (s, [])
  | a :: as => match s.loadBytes asid secure sup own a n with
    | .error e => .error e
    | .ok (s1, v) => match State.loadItems s1 asid secure sup own n as with
      | .error e => .error e
      | .ok (s2, vs) => .ok (s2, v :: vs)

/-- The accesses that `n` bytes at an address are read by. -/
def loadParts (va : Addr) (n : Nat) : List (Addr × Nat) :=
  let u := if va.toNat % 8 = 0 then 8 else 1
  (List.range (n / u)).map (fun k => (va + BitVec.ofNat 72 (u * k), u))

/-- What a launch waits for at homes outside the package (R25): its header, then its tables, then the control blocks of its queues. -/
def State.launchGate (s : State) (user : Nat) (asid : BitVec 11) (secure sup : Bool) (va : Addr) : Option State :=
  let off (n k : Nat) : Addr := va + BitVec.ofNat 72 (n + k)
  let g (s : State) (l : List (Addr × Nat)) : Option State := s.gates user asid secure sup .read (l.flatMap (fun x => loadParts x.1 x.2))
  match g s [(va, 64)] with
  | some t => some t
  | none => match s.loadBytes asid secure sup false va 64 with
    | .error _ => none
    | .ok (_, hv) =>
      let h := BitVec.ofNat 512 hv
      let qs := (List.range (min 8 (fld h 4 4))).map (fun k => off 64 (16 * k))
      let table := BitVec.ofNat 72 (fld h 96 72)
      match g s (qs.map (fun a => (a, 16)) ++ (List.range (fld h 0 3 + 1)).map (fun k => (off 192 (64 * k), 64)) ++
          (if table = 0 then [] else [(table, 3080)])) with
      | some t => some t
      | none => match s.loadItems asid secure sup false 16 qs with
        | .error _ => none
        | .ok (_, qv) => g s (qv.map (fun v => (BitVec.ofNat 72 v, 64)))

/-- The pages of the queues' control blocks: checked or not local (R331 condition 7). -/
def State.loadPages (s : State) (asid : BitVec 11) (secure sup : Bool) : List Addr → Except Denied (State × List Bool)
  | [] => .ok (s, [])
  | a :: as => match s.leafFor asid a .read sup secure with
    | .error (c, tv) => .error (c, tv, a)
    | .ok (s1, t) => match State.loadPages s1 asid secure sup as with
      | .error e => .error e
      | .ok (s2, bs) => .ok (s2, (leafChk t.leaf || s1.target t.leaf != 0) :: bs)

/-- The first condition of LAUNCH_MALFORMED that holds, with the stage or queue concerned (R331 order 2). -/
def malformedAt (h : BitVec 512) (qs : List (BitVec 128)) (ss : List (BitVec 512)) (pages : List Bool) : Option (Nat × Nat) :=
  let at_ (n : Nat) (i : Option Nat) : Option (Nat × Nat) := i.map (fun k => (n, k))
  let ins := ss.map stInq
  let outs := ss.map stOutq
  let bad (x : Nat) : Bool := x != 15 && lhNq h ≤ x
  at_ 1 (if fld h 168 344 != 0 || fld h 20 12 != 0 || h.getLsbD 3 then some 0 else none) <|>
  at_ 1 (qs.findIdx? (fun q => fld q 104 24 != 0)) <|> at_ 1 (ss.findIdx? (fun e => fld e 448 64 != 0)) <|>
  at_ 2 (if 8 < lhNq h then some 0 else none) <|>
  at_ 3 (ss.findIdx? (fun e => stCtrl e == 0 || (stCtrl e).toNat % 4 != 0 || (stLoad e).toNat % 4 != 0 ||
    (stStore e).toNat % 4 != 0 || (stCompute e).toNat % 16 != 0)) <|>
  at_ 4 (ss.findIdx? (fun e => bad (stInq e) || bad (stOutq e) || (stInq e == stOutq e && stInq e != 15) ||
    (stInq e != 15 && 1 < ins.count (stInq e)) || (stOutq e != 15 && 1 < outs.count (stOutq e)))) <|>
  at_ 5 (ss.findIdx? (fun e => stMaxc e < stMinc e)) <|>
  at_ 6 (ss.findIdx? (fun e => (stInq e == 15) == (stNact e == 0) || (stOutn e != 0 && stOutq e == 15))) <|>
  at_ 7 ((qs.zip pages).findIdx? (fun (q, p) => lqCap q < lqHiwat q || (lqBase q).toNat % 64 != 0 || p))

/-- A launch number is DONE, or PENDING or LIVE: its ASID; FREE: none (R332). -/
def State.numberAsid (s : State) (n : Nat) : Option (BitVec 11) :=
  match s.launchOf n with
  | some l => some l.asid
  | none => mget s.disp.finished none n

/-- SPCAP.CAP of a die's cores in bytes (R71). -/
def State.dieCap (s : State) (d : Nat) : Nat := if s.upperDies.getLsbD d then 4194304 else 2097152

/-- The time-division table of a die is that of a launch of this ASID and TDMVA, or no task is bound there (R334); only the modelled core's
die holds tasks (log entry 6). -/
def State.tableFits (s : State) (d : Nat) (asid : BitVec 11) (tdmva : Addr) : Bool :=
  d != s.die.toNat || (!s.task.bound && !s.disp.others) || (tdmva == 0 && s.disp.table.2 == 0) || s.disp.table == (asid, tdmva)

/-- A stage may run on a die (R334). -/
def State.runsOn (s : State) (d : Nat) (asid : BitVec 11) (tdmva : Addr) (e : BitVec 512) : Bool :=
  stSpb e ≤ s.dieCap d && s.tableFits d asid tdmva

/-- The first condition of LAUNCH_RESOURCE on stages that holds (R331 order 4). -/
def State.resourceAt (s : State) (asid : BitVec 11) (tdmva : Addr) (ss : List (BitVec 512)) : Option (Nat × Nat) :=
  ((ss.findIdx? (fun e => (List.range 4).all (fun d => s.dieCap d < stSpb e) || 48 < stVreg e || 64 < stTslot e || 16 < stRing e)).map (fun k => (1, k))) <|>
  ((ss.findIdx? (fun e => 64 * ((List.range 4).filter (fun d => s.runsOn d asid tdmva e)).length < stMinc e)).map (fun k => (2, k)))

/-- TVALUE of a failed condition. -/
def conditionTvalue (x : Nat × Nat) : Word64 := w64 (256 * x.1 + x.2)

/-- A launch that has not entered its queue sees the dependences that are released, and those of them that a launch that was aborted
releases (R332, R346, R362). -/
def State.noteDependences (s : State) (l : Launch) : Launch :=
  let hit (f : Nat → Bool) : BitVec 4 :=
    (List.range 4).foldl (fun m j => putBit m j ((lhDepv l.header).getLsbD j && !l.released.getLsbD j && f (lhDep l.header j))) 0
  let done (n : Nat) : Bool := match s.launchOf n with
    | some l => l.triggered
    | none => true
  { l with released := l.released ||| hit done, aborted := l.aborted ||| hit (fun n => s.disp.abortedNumbers.contains n) }

/-- Check of R331, after the world of the queue (R393): the launch as it will enter queue `b`. -/
def State.checkLaunch (s : State) (asid : BitVec 11) (secure sup host world : Bool) (va : Addr) (b : Nat) :
    Except Denied (State × Launch) :=
  let rd (s : State) := s.loadBytes asid secure sup (!host)
  let items (s : State) := s.loadItems asid secure sup (!host)
  let off (n k : Nat) : Addr := va + BitVec.ofNat 72 (n + k)
  if (s.cfgOf 0xC0).getLsbD b != world then .error (.world, 0, 0)
  else match rd s va 64 with
  | .error e => .error e
  | .ok (s1, hv) =>
    let h := BitVec.ofNat 512 hv
    match items s1 16 ((List.range (min 8 (lhNq h))).map (fun k => off 64 (16 * k))) with
    | .error e => .error e
    | .ok (s2, qv) => match items s2 64 ((List.range (lhNs h)).map (fun k => off 192 (64 * k))) with
      | .error e => .error e
      | .ok (s3, sv) =>
        let qs := qv.map (BitVec.ofNat 128)
        let ss := sv.map (BitVec.ofNat 512)
        match (if lhTdmva h = 0 then Except.ok (s3, []) else items s3 8 ((List.range 385).map (fun k => lhTdmva h + BitVec.ofNat 72 (8 * k)))) with
        | .error e => .error e
        | .ok (s4, tv) => match items s4 64 (qs.map lqBase) with
          | .error e => .error e
          | .ok (s5, _) => match s5.loadPages asid secure sup (qs.map lqBase) with
            | .error e => .error e
            | .ok (s6, pages) =>
              let deps := (List.range 4).filter (fun j => (lhDepv h).getLsbD j)
              let l : Launch :=
                { number := 0, asid := asid, secure := world, header := h, queues := qs, stages := ss, table := tv.map w64
                  prio := lhPrio h, newPrio := none, queue := b, released := 0, aborted := 0, live := false, triggered := false
                  run := ss.map (fun _ => ⟨0, 0, none⟩), grants := [] }
              match malformedAt h qs ss pages with
              | some x => .error (.launchMalformed, conditionTvalue x, 0)
              | none => match deps.find? (fun j => s.numberAsid (lhDep h j) != some asid) with
                | some j => .error (.dependenceInvalid, conditionTvalue (1, j), 0)
                | none => match s.resourceAt asid (lhTdmva h) ss with
                  | some x => .error (.launchResource, conditionTvalue x, 0)
                  | none =>
                    if host && 16 ≤ (mget s.disp.queues [] b).length then .error (.launchResource, conditionTvalue (3, 0), 0)
                    else .ok (s6, s.noteDependences l)

/-- 1,024 numbers are PENDING or LIVE (R332). -/
def State.numbersFull (s : State) : Bool := 1024 ≤ s.disp.launches.length

/-- The next number that is FREE or DONE, `k` of them looked at (R332). -/
def State.nextNumber (s : State) : Nat → Nat → Nat
  | n, 0 => n
  | n, k + 1 => if (s.launchOf n).isSome then s.nextNumber ((n + 1) % 65536) k else n

/-- A launch enters its queue under the next number (R332, R333). -/
def State.enterLaunch (s : State) (l : Launch) : State × Nat :=
  let n := s.nextNumber s.disp.next 1024
  let d := s.disp
  ({ s with disp := { d with
      launches := d.launches ++ [{ l with number := n }]
      finished := mset d.finished none n none
      abortedNumbers := d.abortedNumbers.filter (fun x => x != n)
      queues := mset d.queues [] l.queue (mget d.queues [] l.queue ++ [n])
      next := (n + 1) % 65536 } }, n)

/-- A checked launch enters its queue, or waits for room: it is not checked again (R345). -/
def State.enterOrWait (s : State) (d : BitVec 5) (l : Launch) : Res :=
  let l1 := s.noteDependences l
  if 16 ≤ (mget s.disp.queues [] l.queue).length || s.numbersFull then
    .wait { s with task := { s.task with launching := some (s.pcOf .control, l1) } }
  else
    let (s1, n) := ({ s with task := { s.task with launching := none } }).enterLaunch l1
    .ok ((s1.pin.setG d (w64 n)).advance .control)

def execLaunch (d a b : BitVec 5) (s : State) : Result :=
  finish .control s (s.synced 1 (fun s =>
    let va := s.aReg a
    let q := (s.gReg b).toNat
    let check : Res :=
      if va.toNat % 64 != 0 then .fail .misalign
      else if 64 ≤ q then .fail .fieldRange
      else match s.launchGate 7 s.asid s.secure s.sup va with
        | some t => .wait t
        | none => match s.checkLaunch s.asid s.secure s.sup false s.taskSecure va q with
          | .error (c, tv, fa) => .trap c tv fa
          | .ok (s1, l) => (s1.doneHw 7).enterOrWait d l
    match s.task.launching with
    | some (pc, l) => if pc = s.pcOf .control then s.enterOrWait d l else check
    | none => check))

/-! Dependences and priorities (R346). -/

def execTrigger (s : State) : Result :=
  finish .control s (s.synced 1 (fun s =>
    let s1 := match s.launchOf s.taskLaunch with
      | some l => if l.triggered then s else (s.setLaunch { l with triggered := true }).releaseDependents l.number false
      | none => s
    .ok (s1.pin.advance .control)))

/-- wait, an acquire alone: where nothing is left to wait for it returns in its issue cycle. -/
def execWait (a : BitVec 5) (s : State) : Result :=
  finish .control s (s.acquires (fun s =>
    let m := s.gReg a
    let (valid, released, aborted) : BitVec 4 × BitVec 4 × BitVec 4 := match s.launchOf s.taskLaunch with
      | some l => (lhDepv l.header, l.released, l.aborted)
      | none => (0, 0, 0)
    let named : BitVec 4 := if m = 0 then valid else m.setWidth 4
    if 16 ≤ m.toNat || named &&& ~~~valid != 0 then .fail .fieldRange
    else if named &&& aborted != 0 then .fail .dependenceInvalid
    else if named &&& ~~~released != 0 then .wait s
    else .ok (s.advance .control)))

/-- setprio: the priority takes effect at the first round that begins afterwards (R337). -/
def execSetprio (a b : BitVec 5) (s : State) : Result :=
  finish .control s (
    let n := (s.gReg a).toNat
    let p := (s.gReg b).toNat
    if 65536 ≤ n || 7 < p then .fail .fieldRange
    else match s.launchOf n with
      | none => .fail .dependenceInvalid
      | some l =>
        if l.asid != s.asid && !s.sup then .fail .dependenceInvalid
        else .ok ((s.setLaunch { l with newPrio := some p }).advance .control))

/-- yield is no release: it marks the next rendezvous and closes its region (R347). -/
def execYield (s : State) : Result :=
  finish .control s (s.acquires (fun s => .ok ({ s with phase := { s.phase with marked := true } }.advance .control)))

/-! Stage queues (R329, R335). -/

/-- `n` bytes of a stage queue read at their home, by the dispatcher, rpop or rpush, in the launch's ASID and world: the pages of a
queue are local and unchecked, and one that is not any more gives free values (R329, log entry 74). -/
def State.queueGet (s : State) (l : Launch) (va : Addr) (n : Nat) : Except Denied (State × Nat × Bound) :=
  match s.hwRead l.asid l.secure true .both va n with
  | .error (c, tv) => .error (c, tv, va)
  | .ok x => .ok x

/-- `n` bytes of a stage queue written at their home. -/
def State.queuePut (s : State) (l : Launch) (va : Addr) (n v : Nat) : Except Denied State :=
  match s.hwWrite l.asid l.secure true va n v with
  | .error (c, tv) => .error (c, tv, va)
  | .ok t => .ok t

/-- PUT and TAKE of queue `q`, with the access that read them. -/
def State.queueCounts (s : State) (l : Launch) (q : Nat) : Except Denied (State × Bound × Nat × Nat) :=
  match s.queueGet l (lqBase (l.queueDesc q)) 16 with
  | .error e => .error e
  | .ok (s1, v, b) => .ok (s1, b, v % 2 ^ 64, v / 2 ^ 64)

/-- PUT and TAKE of a queue as the dispatcher sees them; none where its home refuses the read. -/
def State.queueSeen (s : State) (l : Launch) (q : Nat) : Option (Nat × Nat) :=
  match s.queueCounts l q with
  | .ok (_, _, x) => some x
  | .error _ => none

/-- The address of record `n` of a queue. -/
def recordAddress (q : BitVec 128) (n : Nat) : Addr := lqBase q + BitVec.ofNat 72 (64 + 64 * (n % lqCap q))

/-- Records in a queue (R329). -/
def queued (x : Nat × Nat) : Nat := (x.1 + 2 ^ 64 - x.2) % 2 ^ 64

/-- Room of a queue (R335). -/
def State.room (l : Launch) (q : Nat) (x : Nat × Nat) : Nat := lqCap (l.queueDesc q) - queued x - mget l.grants 0 q

/-- Pushes granted at a queue: `up` more, or `down` fewer. -/
def Launch.grant (l : Launch) (q up down : Nat) : Launch := { l with grants := mset l.grants 0 q (mget l.grants 0 q + up - down) }

/-- ReserveAt: the launch with `n` more pushes granted at queue `o`; none: no room. -/
def State.reserveAt (s : State) (l : Launch) (o n : Nat) : Except Denied (State × List Bound × Option Launch) :=
  if o = 15 then .ok (s, [], some l)
  else match s.queueCounts l o with
    | .error e => .error e
    | .ok (s1, b, x) => .ok (s1, [b], if n ≤ State.room l o x then some (l.grant o n 0) else none)

/-- The oldest record of queue `i` is taken: none where it holds none. -/
def State.takeRecord (s : State) (l : Launch) (i : Nat) : Except Denied (State × List Bound × Option Nat) :=
  match s.queueCounts l i with
  | .error e => .error e
  | .ok (s1, b, p, t) =>
    if queued (p, t) = 0 then .ok (s1, [b], none)
    else match s1.queueGet l (recordAddress (l.queueDesc i) t) 64 with
      | .error e => .error e
      | .ok (s2, r, br) => match s2.queuePut l (lqBase (l.queueDesc i) + 8) 8 ((t + 1) % 2 ^ 64) with
        | .error e => .error e
        | .ok s3 => .ok (s3, [b, br], some r)

/-- Eight g registers from gD on take the words of a record. -/
def State.setRecord (s : State) (d : Nat) (r : Nat) : State :=
  (List.range 8).foldl (fun s k => s.setG (BitVec.ofNat 5 (d + k)) (w64 (r / 2 ^ (64 * k)))) s

/-- The record that eight g registers hold. -/
def State.gRecord (s : State) (a : Nat) : Nat := (List.range 8).foldr (fun k v => (s.gReg (BitVec.ofNat 5 (a + k))).toNat + 2 ^ 64 * v) 0

/-- rpop: a load in the orders of R140 (R348). -/
def execRpop (d : BitVec 5) (p : BitVec 4) (s : State) : Result :=
  finish .control s (
    match s.launchOf s.taskLaunch with
    | none => .fail .stageQueue
    | some l =>
      let e := l.stage s.taskStage
      let done (t : State) (bs : List Bound) (r : Nat) (ok : Bool) : Res :=
        if bs.any s.pending || !s.opsPerformed then .wait s
        else .ok (((((t.setRecord d.toNat r).setPred .control p ok).pin).advance .control))
      if stInq e = 15 then .fail .stageQueue
      else match s.reserveAt l (stOutq e) (stOutn e) with
        | .error (c, tv, fa) => .trap c tv fa
        | .ok (s1, bs, none) => done s1 bs 0 false
        | .ok (s1, bs, some l1) => match s1.takeRecord l (stInq e) with
          | .error (c, tv, fa) => .trap c tv fa
          | .ok (s2, bi, none) => done s2 (bs ++ bi) 0 false
          | .ok (s2, bi, some r) =>
            let n := if stOutq e = 15 then 0 else stOutn e
            let s3 := s2.setLaunch l1
            done { s3 with task := { s3.task with grants := s3.task.grants + n } } (bs ++ bi) r true)

/-- rpush: a store in the orders of R140 (R348). -/
def execRpush (a : BitVec 5) (s : State) : Result :=
  finish .control s (
    match s.launchOf s.taskLaunch with
    | none => .fail .stageQueue
    | some l =>
      let o := stOutq (l.stage s.taskStage)
      if o = 15 || s.task.grants = 0 then .fail .stageQueue
      else match s.queueCounts l o with
        | .error (c, tv, fa) => .trap c tv fa
        | .ok (s1, b, p, _) =>
          let at_ := recordAddress (l.queueDesc o) p
          match s1.queueGet l at_ 64 with
          | .error (c, tv, fa) => .trap c tv fa
          | .ok (_, _, br) =>
            if !s.acked 0 || s.pending b || s.pending br then .wait s
            else match s1.queuePut l at_ 64 (s.gRecord a.toNat) with
              | .error (c, tv, fa) => .trap c tv fa
              | .ok s2 => match s2.queuePut l (lqBase (l.queueDesc o)) 8 ((p + 1) % 2 ^ 64) with
                | .error (c, tv, fa) => .trap c tv fa
                | .ok s3 =>
                  let s4 := s3.setLaunch (l.grant o 0 1)
                  .ok (({ s4 with task := { s4.task with grants := s4.task.grants - 1 } }.pin).advance .control))

/-! The ends of tasks and launches (R341, R347). -/

/-- A launch is complete (R341). -/
def State.launchComplete (s : State) (l : Launch) : Bool :=
  l.live && l.run.all (fun r => r.bound == 0) && !s.disp.parked.any (fun p => p.launch == l.number) &&
    (l.stages.zip l.run).all (fun (e, r) =>
      if stInq e = 15 then stNact e ≤ r.started
      else (s.queueSeen l (stInq e)).any (fun x => queued x == 0))

/-- Launches that are complete become DONE. -/
def State.completeLaunches (s : State) : State :=
  s.disp.launches.foldl (fun s l => match s.launchOf l.number with
    | some l => if s.launchComplete l then s.endLaunch l false else s
    | none => s) s

/-- A sequencer is idle, or waits at a token get, a value-queue peek, a tag wait or the rendezvous (R347). -/
def State.restsAt (s : State) (q : Seq) (i : Nat) : Bool :=
  !(s.seqOf q).run || s.phase.reached.getLsbD i || s.task.waits.getLsbD (seqNum q)

/-- The task issued no map operation that has not taken effect, and has no retirement under way. -/
def State.mapsDone (s : State) : Bool :=
  !s.mapBusy .load && !s.mapBusy .store && s.wharves.all (fun (_, w) => w.ops.all (fun o => !(o.own && o.task == s.task.id)))

/-- Every store of the task has been performed, but for timed stores that wait at their homes, and every factor operation (R136). -/
def State.storesSettled (s : State) : Bool := s.ownRows.all (fun r => r.place == .timedBuffer) && s.ownOps.isEmpty

/-- What exit waits for (R347): the sequencers, every operation of the task, its stores, the packets bound at its maps, and the logs. -/
def State.mayExit (s : State) : Bool :=
  s.restsAt .load 0 && s.restsAt .compute 1 && s.restsAt .store 2 && s.eng.ops.isEmpty && s.mapsDone && s.mat.ops.isEmpty &&
    s.storesSettled && !s.boundPackets && s.logs.overflow.isEmpty && s.logs.unlanded.isEmpty

/-- The bound task ends: its wharf, its memory-wharf maps, its claims and its place in its stage (R347); requests to park or halt it end
with it (R364, R367), and its launch completes where this was its last task (R341). The records that vacating the wharf puts in the
unlanded queue come after the drain of R347, and the spec does not say what becomes of them (R105): they end with the task's context,
undrained, by the model's choice (log entry 78). -/
def State.endTask (s : State) : State :=
  let s1 := s.closeRegions.vacate
  let n := s.taskLaunch
  let s2 := match s1.launchOf n with
    | none => s1
    | some l =>
      let k := s.taskStage
      let r := l.runOf k
      s1.setLaunch ((l.setRun k { r with bound := r.bound - 1 }).grant (stOutq (l.stage k)) 0 s.task.grants)
  let s3 := ((s2.clearRequest 0x18).clearRequest 0x30).unbind
  match s3.launchOf n with
  | some l => if s3.launchComplete l then s3.endLaunch l false else s3
  | none => s3

def execExit (s : State) : Result :=
  finish .control s (
    if !s.task.members.isEmpty then .fail .exitLive
    else if !s.mayExit then .wait s
    else s.withDeferred (.ok s.endTask))

end Sys2Proof.Machine
end

