-- ==== Sys2Proof/Machine/Ports.lean ====
section
/-! DEFINITION. Stream records and walks (R254, R255), input ports and their run-ahead (R258), output ports (R259). -/
namespace Sys2Proof.Machine

/-! Fields of a record (R254). -/

def Record.base (r : Record) : Nat := fld r.w0 0 22
/-- The count of loop `i`. -/
def Record.count (r : Record) : Nat → Nat
  | 0 => fld r.w0 32 16
  | 1 => fld r.w0 48 16
  | 2 => fld r.w1 0 16
  | _ => fld r.w1 16 16
/-- The signed byte stride of loop `i`. -/
def Record.stride (r : Record) : Nat → Int
  | 0 => signedCode 16 (fld r.w1 32 16)
  | 1 => signedCode 16 (fld r.w1 48 16)
  | 2 => signedCode 16 (fld r.w2 0 16)
  | _ => signedCode 16 (fld r.w2 16 16)
def Record.istr (r : Record) : Int := signedCode 16 (fld r.w2 32 16)
def Record.isrc (r : Record) : Nat := fld r.w2 48 4
def Record.ien (r : Record) : Bool := r.w2.getLsbD 52
/-- A reserved bit is set. -/
def Record.reserved (r : Record) : Bool := fld r.w0 22 10 != 0 || fld r.w2 53 11 != 0
/-- NR (R255). -/
def Record.rows (r : Record) : Nat := r.count 0 * r.count 1 * r.count 2 * r.count 3
/-- The all-zero record that a bound task finds. -/
def Record.zero : Record := ⟨0, 0, 0⟩

/-- RowAddr without its index, before the wrap (R255). -/
def Record.rowBase (r : Record) (n : Nat) : Int :=
  let n0 := r.count 0
  let n1 := r.count 1
  let n2 := r.count 2
  r.base + (n % n0 : Nat) * r.stride 0 + (n / n0 % n1 : Nat) * r.stride 1 + (n / (n0 * n1) % n2 : Nat) * r.stride 2 +
    (n / (n0 * n1 * n2) : Nat) * r.stride 3

/-- A byte address modulo the 22-bit scratchpad space. -/
def wrapScr (x : Int) : Nat := (x % 2 ^ 22).toNat

/-- Why a row of a walk is not read: the index walk has ended, a write of a bank's format holds it, or a cause with FAULTADDR (R64, R255,
R258). -/
inductive RowStop where
  | ended
  | held
  | bad (c : Cause) (addr : Nat)
deriving DecidableEq, Repr

/-- What is not good of a row at address `x` (R255), with the consistency of its bank's format (R63), by the format in force once no write
of it is pending (R64). -/
def State.rowFault (s : State) (x : Nat) (index : Bool) : Option RowStop :=
  let b := x / 65536
  let y := x % 65536
  let w := s.bankWidth b
  if !s.bankExists x then some (.bad .notMapped x)
  else if s.formatHeld b then some .held
  else if 8 * y % w != 0 || 65536 < y + 8 * w then some (.bad .fieldRange 0)
  else if (fmtBlock (s.bankFmt b) && 8 * y / w % 32 != 0) || !s.bankConsistent b || (index && !fmtInt (s.bankFmt b)) then
    some (.bad .formatMismatch 0)
  else none

/-- The element index of the first element of a row. -/
def State.rowElem (s : State) (x : Nat) : Nat := 8 * (x % 65536) / s.bankWidth (x / 65536)

/-- Index(ISRC, n): element `n` of the index walk (R255). -/
def State.indexAt (s : State) (r : Record) (n : Nat) : Except RowStop Int :=
  if r.rows ≤ n / 64 then .error .ended
  else
    let x := wrapScr (r.rowBase (n / 64))
    match s.rowFault x true with
    | some e => .error e
    | none =>
      match s.elemVal (x / 65536) (s.rowElem x + n % 64) with
      | .fin neg m _ => .ok (if neg then -(m : Int) else m)
      | _ => .error (.bad .poison x)

/-- The address of row `n` of a bound walk (R255). -/
def State.rowAddr (s : State) (b : Binding) (n : Nat) : Except RowStop Nat :=
  if b.walk.ien then
    match s.indexAt b.index n with
    | .error e => .error e
    | .ok i => .ok (wrapScr (b.walk.rowBase n + i * b.walk.istr))
  else .ok (wrapScr (b.walk.rowBase n))

/-- A good row of a bound walk: its address. -/
def State.goodRow (s : State) (b : Binding) (n : Nat) : Except RowStop Nat :=
  match s.rowAddr b n with
  | .error e => .error e
  | .ok x => match s.rowFault x false with
    | some e => .error e
    | none => .ok x

/-- TVALUE of a cause raised for a row. -/
def rowTvalue (c : Cause) : Word64 := if c = .notMapped then absentBank else 0

/-! Input ports. -/

/-- A port without a binding. -/
def InPort.idle : InPort := ⟨none, 0, []⟩
def OutPort.idle : OutPort := ⟨none, 0, []⟩

def State.inPort (s : State) (p : Nat) : InPort := mget s.vec.inp .idle p
def State.setInPort (s : State) (p : Nat) (x : InPort) : State :=
  { s with vec := { s.vec with inp := mset s.vec.inp .idle p x } }
def State.outPort (s : State) (p : Nat) : OutPort := mget s.vec.out .idle p
def State.setOutPort (s : State) (p : Nat) (x : OutPort) : State :=
  { s with vec := { s.vec with out := mset s.vec.out .idle p x } }

/-- The run-ahead of a port has a row to read. -/
def InPort.reads (p : InPort) : Bool :=
  match p.bound with
  | none => false
  | some b =>
    match p.images.getLast? with
    | none => p.popped * 16 < b.walk.rows
    | some i => i.fault.isNone &&
        (i.rows < 16 || (p.images.length < 4 && (p.popped + p.images.length) * 16 < b.walk.rows))

/-- The state with the next row read of a port due, if it has one and none is due (R258). -/
def State.runAhead (s : State) (p : Nat) : State :=
  if (s.inPort p).reads && !s.agenda.any (fun e => e.event == .portRowRead && e.input.n == p) then
    s.post .portRowRead { n := p } else s

/-- A lane read from an element of a bank (R258), and its event. -/
def State.laneOf (s : State) (b : Binding) (bank i : Nat) : Lane × Option Event :=
  let f := s.bankFmt bank
  if fmtRaw f then let e := s.stored bank i; (⟨BitVec.ofNat 32 e.code, e.poison⟩, none)
  else if fmtInt f then
    match s.elemVal bank i with
    | .fin neg m _ => (⟨BitVec.ofInt 32 (if neg then -(m : Int) else m), false⟩, none)
    | _ => (⟨0, true⟩, none)
  else
    let c := encodeFloat fp32 b.rm.toNat b.satd (s.elemVal bank i)
    (⟨BitVec.ofNat 32 c.code, c.poison⟩, c.event)

/-- The image that the next row of a port belongs to, and those before it. -/
def InPort.current (p : InPort) : List InImage × InImage :=
  match p.images.getLast? with
  | some i => if i.rows < 16 then (p.images.dropLast, i) else (p.images, ⟨[], 0, none⟩)
  | none => ([], ⟨[], 0, none⟩)

/-- A row of the run-ahead of input port `n` is read (R258). -/
def State.readRow (s : State) (n : Nat) : State :=
  let p := s.inPort n
  match p.bound with
  | none => s
  | some b =>
    if !p.reads then s
    else
      let (before, img) := p.current
      let put (i : InImage) : State := s.setInPort n { p with images := before ++ [i] }
      match s.goodRow b ((p.popped + before.length) * 16 + img.rows) with
      | .error .held => s
      | .error .ended => put { img with fault := some (.queueUnderflow, 0) }
      | .error (.bad c a) => put { img with fault := some (c, a) }
      | .ok x =>
        let bank := x / 65536
        let e0 := s.rowElem x
        let row := mtabFrom Lane.zero (fun i => (s.laneOf b bank (e0 + i % 64)).1) (64 * img.rows) 64
        let evs := (List.range 64).filterMap (fun j => (s.laneOf b bank (e0 + j)).2.map (fun e => (j, BlockEvent.mk ((e0 + j) / 32) e)))
        ((put { img with lanes := img.lanes ++ row, rows := img.rows + 1 }).logEvents 0 6 bank 0 (firstEvents evs)).runAhead n

def execPortRowRead (s : State) : Result := occur (s.readRow s.input.n)

/-- What a source operand finds. -/
inductive Source where
  | got (r : VReg) (s : State)
  | waits
  | fails (c : Cause) (tvalue : Word64) (addr : Addr)

/-- A source operand that names input port `n`, popped or peeked (R258). -/
def State.takeImage (s : State) (n : Nat) (pop : Bool) : Source :=
  let p := s.inPort n
  match p.bound with
  | none => .fails .queueUnderflow 0 0
  | some b =>
    if b.walk.rows ≤ p.popped * 16 then .fails .queueUnderflow 0 0
    else match p.images with
      | [] => .waits
      | i :: rest =>
        match i.fault with
        | some (c, a) => .fails c (rowTvalue c) (BitVec.ofNat 72 a)
        | none =>
          if i.rows < 16 then .waits
          else if pop then .got i.lanes ((s.setInPort n { p with popped := p.popped + 1, images := rest }).runAhead n)
          else .got i.lanes s

/-! Output ports. -/

/-- The addresses of the rows of an image of a walk. -/
def State.imageRows (s : State) (b : Binding) (image : Nat) : Except RowStop (List Nat) :=
  (List.range 16).foldr (fun k acc =>
    match acc, s.goodRow b (image * 16 + k) with
    | .ok l, .ok x => .ok (x :: l)
    | _, .error e => .error e
    | .error e, _ => .error e) (.ok [])

/-- The state with the next row write of a port due, if it has one and none is due (R259). -/
def State.runBehind (s : State) (p : Nat) : State :=
  if (s.outPort p).images.isEmpty || s.agenda.any (fun e => e.event == .portRowWrite && e.input.n == p) then s
  else s.post .portRowWrite { n := p }

/-- The image of a V slot queued at output port `o` (R259). -/
def State.queueImage (s : State) (o : Nat) (lanes : VReg) : Source :=
  let p := s.outPort o
  match p.bound with
  | none => .fails .queueOverflow 0 0
  | some b =>
    if b.walk.rows < (p.queued + 1) * 16 then .fails .queueOverflow 0 0
    else if 4 ≤ p.images.length then .waits
    else match s.imageRows b p.queued with
      | .error .held => .waits
      | .error .ended => .fails .queueOverflow 0 0
      | .error (.bad c a) => .fails c (rowTvalue c) (BitVec.ofNat 72 a)
      | .ok xs =>
        let lo := xs.foldl min (2 ^ 22) / 64
        let hi := xs.foldl (fun m x => max m ((x + 8 * s.bankWidth (x / 65536) - 1) / 64)) 0
        if s.accessRangesFull || s.rangeHeld lo hi true then .waits
        else
          let i : OutImage := ⟨lanes, s.vec.slot1, b.rm, b.satd, s.vec.now, xs, 0, [], ⟨lo, hi, false, true⟩⟩
          .got [] ((s.setOutPort o { p with queued := p.queued + 1, images := p.images ++ [i] }).runBehind o)

/-- What a poison lane writes into a format whose lanes are bit patterns: the poison code of L32 and of LNORM, the reserved code of a
scale format, else 0 (R48, R273, R286). -/
def rawPoison (f : Nat) : Nat :=
  if f = 22 then l32Poison
  else if f = 24 then normPoison.toNat
  else if f = 25 || f = 26 then 0xFF
  else if f = 27 then 0xFFFF
  else 0

/-- The next row of the oldest image of output port `n` is written (R259); of a destination block one event is logged for the image
(R67). -/
def State.writeRow (s : State) (n : Nat) : State :=
  let p := s.outPort n
  match p.images with
  | [] => s
  | i :: rest =>
    let x := i.addrs.getD i.done 0
    let bank := x / 65536
    let f := s.bankFmt bank
    let e0 := s.rowElem x
    let lane (j : Nat) : Lane := mget i.lanes Lane.zero (64 * i.done + j)
    let (s1, evs) :=
      if fmtRaw f then
        (s.storePlaces ((List.range 64).map (fun j =>
          ⟨s.elemBit bank (e0 + j), s.bankWidth bank, if (lane j).side then rawPoison f else (lane j).bits.toNat % 2 ^ s.bankWidth bank, (lane j).side⟩)), [])
      else s.storeVals bank i.rm.toNat i.satd ((List.range 64).map (fun j =>
        (e0 + j, if (lane j).side then Val.poison
          else if fmtInt f then Val.ofInt (lane j).bits.toInt else decodeFloat fp32 (lane j).bits.toNat)))
    let new := evs.filter (fun e => !i.logged.contains (bank, e.block))
    let i1 := { i with done := i.done + 1, logged := new.map (fun e => (bank, e.block)) ++ i.logged }
    let images := if i.done = 15 then rest else i1 :: rest
    let s2 := ((s1.setOutPort n { p with images := images }).logEvents 0 (if i.slot1 then 5 else 4) bank 0 new).runBehind n
    if s2.scr.fmtPend.isEmpty then s2 else s2.postOnce .bankfmtEffect

def execPortRowWrite (s : State) : Result := occur (s.writeRow s.input.n)

/-! Binding (R257). -/

/-- The record of number `n`. -/
def State.recordOf (s : State) (n : Nat) : Record := mget s.vec.records .zero n

/-- The checks of sbind on record `n`. -/
def State.recordFault (s : State) (n : Nat) : Bool :=
  let r := s.recordOf n
  let i := s.recordOf r.isrc
  let bad (r : Record) : Bool := r.reserved || r.rows == 0
  bad r || r.rows % 16 != 0 || (r.ien && (decide (11 < r.isrc) || r.isrc == n || i.ien || bad i))

/-- The binding that sbind makes of record `n`. -/
def State.bindingOf (s : State) (n : Nat) : Binding :=
  let r := s.recordOf n
  ⟨r, if r.ien then s.recordOf r.isrc else .zero, BitVec.ofNat 2 (fld s.fmode 0 2), s.fmode.getLsbD 2⟩

/-- The state with an input port bound or unbound: its images and its walk go. -/
def State.bindIn (s : State) (p : Nat) (b : Option Binding) : State := (s.setInPort p ⟨b, 0, []⟩).runAhead p

/-- Images queued at an output port before the group that runs: sbind and sunbind wait for them. -/
def State.outBusy (s : State) (p : Nat) : Bool :=
  (s.outPort p).images.any (fun i => i.issued != s.vec.now || s.vec.image.isNone)

/-- The state with an output port bound or unbound. -/
def State.bindOut (s : State) (p : Nat) (b : Option Binding) : State := s.setOutPort p ⟨b, 0, (s.outPort p).images⟩

end Sys2Proof.Machine
end

