-- ==== Sys2Proof/Machine/VecOps.lean ====
section
/-! DEFINITION. The vector file and its timing (R248 to R253), and the way of every V-slot word: its operands, its result
under mask, its events, and where the result goes (R192, R249, R252, R259, R262). -/
namespace Sys2Proof.Machine

/-- The registers as they stood when the group issued. -/
def State.regs (s : State) : VecFile := (s.vec.image.map AtIssue.file).getD s.vec.file

/-- What a group that issues now sees as it stands. -/
def State.atIssue (s : State) : AtIssue := ⟨s.vec.file, s.mat.stored, !s.mat.mq.isEmpty⟩

def State.vReg (s : State) (n : Nat) : VReg := mget s.regs.v [] n
def State.kReg (s : State) (n : Nat) : BitVec 1024 := mget s.regs.k 0 n
/-- The zero vector in every row. -/
def DReg.zero : DReg := ⟨[], []⟩
def State.dReg (s : State) (n : Nat) : DReg := mget s.regs.d .zero n

/-- A component of a directional register. -/
def DReg.comp (d : DReg) (row j : Nat) : Int := (mget d.comps 0 (64 * row + j)).toInt
/-- A norm of a directional register. -/
def DReg.norm (d : DReg) (row : Nat) : Word32 := mget d.norms normZero row

/-- The word of a slot as a decode cause's TVALUE lays it out (R187). -/
def wordTvalue (slot : Nat) (i : Instr) : Word64 := w64 (slot * 2 ^ 32 + ((encode i).getD 0).toNat)

/-- The number of the V slot whose word runs. -/
def State.vslot (s : State) : Nat := s.vec.slot1.toNat

/-! Timing (R251, R253). -/

/-- The readable cycle of a write to a bank, moved past the writes it would overlap (R253), with at most `n` moves: each write overlaps two
of the places that a moved one comes to, no more. -/
def writePort (ports : List (Nat × Nat)) (bank : Nat) : Nat → Nat → Nat
  | t, 0 => t
  | t, n + 1 =>
    if ports.any (fun p => p.1 == bank && (p.2 < t + 4 && t < p.2 + 4)) then writePort ports bank (t + 4) n else t

/-- The state with a register readable from a cycle. -/
def State.setReady (s : State) (key t : Nat) : State := { s with vec := { s.vec with ready := mset s.vec.ready 0 key t } }

/-- The state with a v register written, readable after a latency and its bank's write port (R253). -/
def State.setV (s : State) (n : Nat) (r : VReg) (latency : Nat) : State :=
  let live := s.vec.ports.filter (fun p => s.vec.now < p.2)
  let t := writePort live (n % 6) (s.vec.now + latency) (2 * live.length + 1)
  let s := s.setReady n t
  { s with vec := { s.vec with file := { s.vec.file with v := mset s.vec.file.v [] n r }, ports := (n % 6, t) :: live } }

/-- The state with a mask register written. -/
def State.setK (s : State) (n : Nat) (m : BitVec 1024) (latency : Nat) : State :=
  let s := s.setReady (64 + n) (s.vec.now + latency)
  { s with vec := { s.vec with file := { s.vec.file with k := mset s.vec.file.k 0 n m } } }

/-- A directional register of 16 rows. -/
def DReg.ofRows (rows : List DRow) : DReg :=
  ⟨mtab 1024 0 (fun i => BitVec.ofInt 16 (((rows.getD (i / 64) (.zeros normZero)).comps).getD (i % 64) 0)),
   mtab 16 normZero (fun r => (rows.getD r (.zeros normZero)).norm)⟩

/-- The state with a directional register and its norms written (R273). -/
def State.setD (s : State) (n : Nat) (d : DReg) (latency : Nat) : State :=
  let s := s.setReady (128 + n) (s.vec.now + latency)
  { s with vec := { s.vec with file := { s.vec.file with d := mset s.vec.file.d .zero n d } } }

/-! Operands. -/

/-- The latch of a field of the slot that runs: 0 LA, 1 LB, 2 LC (R252). -/
def State.latchOf (s : State) (field : Nat) : Option (Nat × VReg) := mget s.vec.latch none (3 * s.vslot + field)
/-- The state with a latch filled or emptied. -/
def State.setLatch (s : State) (field : Nat) (l : Option (Nat × VReg)) : State :=
  { s with vec := { s.vec with latch := mset s.vec.latch none (3 * s.vslot + field) l } }

/-- A source field of a V-slot word: a register, its latch under a hold, or a port (R192, R252, R258). -/
def State.source (s : State) (i : Instr) (field : Nat) (code : BitVec 6) (hold : Bool) : Source :=
  let c := code.toNat
  if c < 48 then
    if hold then
      match s.latchOf field with
      | some (r, img) => if r = c then .got img s else .fails .badRegister (wordTvalue s.vslot i) 0
      | none => .fails .badRegister (wordTvalue s.vslot i) 0
    else .got (s.vReg c) (s.setLatch field (some (c, s.vReg c)))
  else (s.setLatch field none).takeImage (c - 48) (!hold)

/-- The operands of a V-slot word. -/
structure Operands where
  a : VReg
  b : VReg
  d : VReg
  da : DReg
  db : DReg
  /-- The mask kK. -/
  k : BitVec 1024
  rm : Nat
  satd : Bool

/-- What a V-slot word computes. `same`: every lane has the value of lane 0. -/
inductive Computed where
  | lanes (same : Bool) (f : Nat → LaneResult)
  | mask (same : Bool) (f : Nat → Bool)
  | rows (r : List DRow)

/-- The mask of a predicate on lanes. -/
def maskOf (same : Bool) (f : Nat → Bool) : BitVec 1024 :=
  if same then (if f 0 then BitVec.allOnes 1024 else 0)
  else BitVec.ofNat 1024 ((List.range 1024).foldr (fun i acc => 2 * acc + (f i).toNat) 0)

/-- The register image of a function on lanes. -/
def imageOf (same : Bool) (f : Nat → LaneResult) : VReg :=
  if same then (if (f 0).1 = .zero then [] else mtab 1024 .zero (fun _ => (f 0).1))
  else mtab 1024 .zero (fun i => (f i).1)

/-- The events of the lanes written, one a block of 32 lanes at most (R67, R262). -/
def laneEvents (same : Bool) (wm : BitVec 1024) (f : Nat → LaneResult) : List BlockEvent :=
  if same && (f 0).2.isNone then []
  else (List.range 32).filterMap (fun j =>
    ((List.range 32).findSome? (fun i => if wm.getLsbD (32 * j + i) then (f (32 * j + i)).2 else none)).map (fun e => ⟨j, e⟩))

/-- The result of a V-slot word goes to its destination (R249, R259, R262, R273). -/
def State.putResult (s : State) (f : VForm) (latency : Nat) (k : BitVec 1024) (c : Computed) : Source :=
  let d := f.d.toNat
  let origin := 4 + s.vslot
  match c with
  | .mask same g =>
    let m := maskOf same g
    .got [] (s.setK d (if f.men then (mget s.vec.file.k 0 d &&& ~~~k) ||| (m &&& k) else m) latency)
  | .rows rows =>
    let evs := rows.zipIdx.filterMap (fun (r, i) => r.event.map (fun e => BlockEvent.mk i e))
    .got [] ((s.setD d (DReg.ofRows rows) latency).logEvents 0 origin d 0 evs)
  | .lanes same g =>
    let wm := if f.men && f.dk != .selReg then k else BitVec.allOnes 1024
    let s1 := s.logEvents 0 origin d 0 (laneEvents same wm g)
    if d < 48 then
      let old := mget s.vec.file.v [] d
      let new := if wm = BitVec.allOnes 1024 then imageOf same g
        else mtab 1024 .zero (fun i => if wm.getLsbD i then (g i).1 else mget old .zero i)
      .got [] (s1.setV d new latency)
    else
      let s2 := s1.setReady (if d < 52 then 152 + d else 204 + s.vslot) (s.vec.now + latency)
      if d < 52 then s2.queueImage (d - 48) (imageOf same g) else .got [] s2

/-- A source operand, then what follows with its image. -/
def Source.andThen (x : Source) (s : State) (k : VReg → State → Res) : Res :=
  match x with
  | .got r t => k r t
  | .waits => .wait s
  | .fails c tv a => .ofRow c tv a

/-- A field that is read as a vector source, else nothing. -/
def State.sourceIf (s : State) (b : Bool) (i : Instr) (field : Nat) (code : BitVec 6) (hold : Bool) : Source :=
  if b then s.source i field code hold else .got [] s

/-- The way of a V-slot word: operands in the order A, B, D, then the result; the slot accepts its next word 4 cycles
later (R251 to R253). -/
def vrun (i : Instr) (f : VForm) (latency : Nat) (compute : Operands → Computed) (s : State) : Result :=
  finish .compute s (
    (s.sourceIf (f.ak == .vec) i 0 f.a f.ha).andThen s (fun a s1 =>
    (s1.sourceIf (f.bk == .vec) i 1 f.b f.hb).andThen s (fun b s2 =>
    (s2.sourceIf (f.dk == .regRead) i 2 f.d f.hc).andThen s (fun d s3 =>
      let k := if f.men then s.kReg f.k.toNat else BitVec.allOnes 1024
      let o : Operands := ⟨a, b, d, s.dReg f.a.toNat, s.dReg f.b.toNat, k, fld s.fmode 0 2, s.fmode.getLsbD 2⟩
      (s3.putResult f latency k (compute o)).andThen s (fun _ s4 =>
        .ok { s4 with vec := { s4.vec with accept := mset s4.vec.accept 0 s.vslot (s.vec.now + 4) } })))))

/-! Lane by lane. -/

/-- A lane of an image. -/
def vlane (r : VReg) (i : Nat) : Lane := mget r .zero i

/-- An instruction of one source. -/
def lanes1 (g : Operands → Lane → LaneResult) (o : Operands) : Computed := .lanes o.a.isEmpty (fun i => g o (vlane o.a i))
/-- An instruction of two sources. -/
def lanes2 (g : Operands → Lane → Lane → LaneResult) (o : Operands) : Computed :=
  .lanes (o.a.isEmpty && o.b.isEmpty) (fun i => g o (vlane o.a i) (vlane o.b i))
/-- An instruction of three sources: A, B and D. -/
def lanes3 (g : Operands → Lane → Lane → Lane → LaneResult) (o : Operands) : Computed :=
  .lanes (o.a.isEmpty && o.b.isEmpty && o.d.isEmpty) (fun i => g o (vlane o.a i) (vlane o.b i) (vlane o.d i))
/-- A compare of two sources. -/
def masks2 (g : Lane → Lane → Bool) (o : Operands) : Computed :=
  .mask (o.a.isEmpty && o.b.isEmpty) (fun i => g (vlane o.a i) (vlane o.b i))
/-- A lane mover: the source index of lane `i` (R268). -/
def moved (src : Nat → Nat) (o : Operands) : Computed := .lanes o.a.isEmpty (fun i => (vlane o.a (src i), none))

/-! Operand forms of the words (R192, R261). -/

def formAB (d a b : BitVec 6) (m : BitVec 1) (k : BitVec 3) (x y : BitVec 1) : VForm :=
  ⟨.reg, .vec, .vec, d, a, b, m == 1#1, k, x == 1#1, y == 1#1, false⟩
def formABD (d a b : BitVec 6) (m : BitVec 1) (k : BitVec 3) (x y z : BitVec 1) : VForm :=
  ⟨.regRead, .vec, .vec, d, a, b, m == 1#1, k, x == 1#1, y == 1#1, z == 1#1⟩
def formMask (d a b : BitVec 6) (m : BitVec 1) (k : BitVec 3) (x y : BitVec 1) : VForm :=
  ⟨.mask, .vec, .vec, d, a, b, m == 1#1, k, x == 1#1, y == 1#1, false⟩
def formA (d a : BitVec 6) (m : BitVec 1) (k : BitVec 3) (x : BitVec 1) : VForm :=
  ⟨.reg, .vec, .none, d, a, 0, m == 1#1, k, x == 1#1, false, false⟩
def formAI (d a i : BitVec 6) (m : BitVec 1) (k : BitVec 3) (x : BitVec 1) : VForm :=
  ⟨.reg, .vec, .imm, d, a, i, m == 1#1, k, x == 1#1, false, false⟩

/-- A word of form AB on lanes. -/
def vAB (i : Instr) (f : VForm) (g : Operands → Lane → Lane → LaneResult) (s : State) : Result := vrun i f 8 (lanes2 g) s
/-- An INT32 word of form AB. -/
def vInt (i : Instr) (f : VForm) (g : Word32 → Word32 → Word32) (s : State) : Result := vrun i f 8 (lanes2 (fun _ => int2 g)) s
/-- An INT32 word with an immediate shift. -/
def vImm (i : Instr) (f : VForm) (g : Word32 → Nat → Word32) (s : State) : Result :=
  vrun i f 8 (lanes1 (fun _ => int1 (fun w => g w f.b.toNat))) s
/-- A compare. -/
def vCmp (i : Instr) (f : VForm) (g : Lane → Lane → Bool) (s : State) : Result := vrun i f 8 (masks2 g) s
/-- A widening multiply-accumulate. -/
def vWmac (i : Instr) (f : VForm) (w : Nat) (signed sat : Bool) (s : State) : Result :=
  vrun i f 8 (lanes3 (fun _ => wmac w signed sat)) s
/-- The relations of icmp on lanes without poison. -/
def intCompare (rel : Word32 → Word32 → Bool) (x y : Lane) : Bool := !(x.side || y.side) && rel x.bits y.bits

/-- A reduction along rows or columns (R269). -/
def vRed (i : Instr) (f : VForm) (latency : Nat) (byRow : Bool) (s : State) : Result :=
  vrun i f latency (fun o =>
    let line (n : Nat) : LaneResult :=
      if byRow then reduce f.b.toNat o.rm o.satd 6 ((List.range 64).map (fun c => vlane o.a (64 * n + c)))
      else reduce f.b.toNat o.rm o.satd 4 ((List.range 16).map (fun r => vlane o.a (64 * r + n)))
    let all := (List.range (if byRow then 16 else 64)).map line
    .lanes o.a.isEmpty (fun i => all.getD (if byRow then i / 64 else i % 64) (.zero, none))) s

/-- A scan along rows or columns (R269). -/
def vScan (i : Instr) (f : VForm) (latency : Nat) (byRow : Bool) (s : State) : Result :=
  vrun i f latency (fun o =>
    let line (n : Nat) : List LaneResult :=
      if byRow then scanFrom f.b.toNat o.rm o.satd none ((List.range 64).map (fun c => vlane o.a (64 * n + c)))
      else scanFrom f.b.toNat o.rm o.satd none ((List.range 16).map (fun r => vlane o.a (64 * r + n)))
    let all := (List.range (if byRow then 16 else 64)).map line
    .lanes false (fun i =>
      if byRow then (all.getD (i / 64) []).getD (i % 64) (.zero, none)
      else (all.getD (i % 64) []).getD (i / 64) (.zero, none))) s

end Sys2Proof.Machine
end

