-- ==== Sys2Proof/Machine/Matrix.lean ====
section
/-! DEFINITION. The matrix engine (R289 to R303): K steps, operations from go to retirement, engine time, accumulator
words and the result queue mq. -/
namespace Sys2Proof.Machine

/-! Fields of an mma template (R291). -/

def mmaAcc (t : BitVec 512) : Nat := fld t 32 2
def mmaRingA (t : BitVec 512) : Nat := fld t 64 4
def mmaRingB (t : BitVec 512) : Nat := fld t 96 4
def mmaLayA (t : BitVec 512) : Nat := fld t 128 7
def mmaLayB (t : BitVec 512) : Nat := fld t 160 7
def mmaNk (t : BitVec 512) : Nat := fld t 192 16
def mmaInit (t : BitVec 512) : Bool := t.getLsbD 224
def mmaPopA (t : BitVec 512) : Bool := t.getLsbD 225
def mmaPopB (t : BitVec 512) : Bool := t.getLsbD 226

/-! Accumulators (R296). -/

/-- Element `i` of an accumulator, row by row. -/
def State.accElem (s : State) (n i : Nat) : Word32 := mget (mget s.mat.acc [] n) 0 i
def State.accFlags (s : State) (n : Nat) : BitVec 4 := mget s.mat.flags 0 n
def State.setAcc (s : State) (n : Nat) (e : SMap Word32) (f : BitVec 4) : State :=
  { s with mat := { s.mat with acc := mset s.mat.acc [] n e, flags := mset s.mat.flags 0 n f } }

/-- The flags of R296. -/
def flagPsn : BitVec 4 := 1
def flagNan : BitVec 4 := 2
def flagOvf : BitVec 4 := 4
def flagClost : BitVec 4 := 8

/-! Inside a K step (R294, R295). -/

/-- The elements of row `r` of the tile in slot `j` of a ring (R76, R90, R290). -/
def State.tileRow (s : State) (d : Word64) (j r : Nat) : List Val :=
  let f := ringFmt d
  let w := fmtWidth f
  let bank := ringFb d + r % ringNb d
  let base := ringByte (put d 12 3 0) j r 0
  if (List.range 6).any (fun g => s.scrPoison (base + 64 * g)) then [.poison]
  else
    let row := (List.range 384).foldr (fun b acc => (s.scrByte (ringByte d j r b)).toNat + 256 * acc) 0
    let e0 := 8 * (base % 65536) / w
    (List.range (3072 / w)).map (fun k =>
      let code := row / 2 ^ (k * w) % 2 ^ w
      if fmtBlock f then
        let (x, p) := s.elemScale bank ((e0 + k) / 32)
        if p then .poison else decodeElem f code x
      else decodeElem f code 0)

/-- The exact sum of a list of finite values (R294). -/
def sumVals (l : List Val) : Val := l.foldl (fun a b => a.add 0 b) .zero

/-- The block terms of R294. -/
def blockTerms : Nat → List Val → List Val
  | 0, _ => []
  | n + 1, l => sumVals (l.take 32) :: blockTerms n (l.drop 32)

/-- ⌊log2 |x|⌋ of a non-zero finite value. -/
def Val.log2 : Val → Int
  | .fin _ m e => Nat.log2 m + e
  | _ => 0

/-- Trunc(x) in units of 2^(E − 48) (R295). -/
def truncTo (top : Int) : Val → Int
  | .fin neg m e =>
    let sh := e + 48 - top
    let q : Nat := if 0 ≤ sh then m * 2 ^ sh.toNat else m / 2 ^ (-sh).toNat
    if neg then -(q : Int) else q
  | _ => 0

/-- A finite value is not zero. -/
def Val.nonzero : Val → Bool
  | .fin _ m _ => m != 0
  | _ => false

/-- KStep (R295) on one element: its new pattern and the flags raised. -/
def kStep (c : Word32) (ra rb : List Val) (fs4 : Bool) : Word32 × BitVec 4 :=
  let cv := decodeFloat fp32 c.toNat
  if cv == .poison || ra.contains .poison || rb.contains .poison then (0x7FFFFFFF, flagPsn)
  else
    let products := List.zipWith Val.mul ra rb
    let infs := (cv :: products).filter (fun v => v == .inf false || v == .inf true)
    if cv == .nan || ra.contains .nan || rb.contains .nan || products.contains .nan ||
        (infs.contains (.inf false) && infs.contains (.inf true)) then (0x7FC00000, flagNan)
    else match infs with
      | .inf neg :: _ => (if neg then 0xFF800000 else 0x7F800000, 0)
      | _ =>
        let terms := if fs4 then blockTerms (products.length / 32) products else products
        let z := (cv :: terms).filter Val.nonzero
        match z with
        | [] => (0, 0)
        | x :: rest =>
          let top := rest.foldl (fun m v => max m v.log2) x.log2
          let lost := cv.nonzero && truncTo top cv == 0
          let sum := z.foldl (fun a v => a + truncTo top v) 0
          if sum = 0 then (0, if lost then flagClost else 0)
          else
            let q := encodeFloat fp32 0 false (.fin (decide (sum < 0)) sum.natAbs (top - 48))
            (BitVec.ofNat 32 q.code, (if lost then flagClost else 0) ||| (if q.event.isSome then flagOvf else 0))

/-- One K step of an operation on the tiles in slots `ja` and `jb` (R289). -/
def State.kStepAll (s : State) (o : MatOp) (ja jb : Nat) : State :=
  let n := mmaAcc o.img
  let start := mmaInit o.img && o.done == 0
  let rowsA := (List.range 64).map (fun r => s.tileRow o.da ja r)
  let rowsB := (List.range 64).map (fun r => s.tileRow o.db jb r)
  let fs4 := ringFmt o.da == 18 || ringFmt o.db == 18
  let out := (List.range 4096).map (fun i =>
    kStep (if start then 0 else s.accElem n i) (rowsA.getD (i / 64) []) (rowsB.getD (i % 64) []) fs4)
  s.setAcc n (mtab 4096 0 (fun i => (out.getD i (0, 0)).1))
    (out.foldl (fun f x => f ||| x.2) (if start then 0 else s.accFlags n))

/-! Operations. -/

/-- The reserved bits of an mma template: every bit that no field holds, and bits [7:6]. -/
def mmaReserved (t : BitVec 512) : Bool :=
  [(6, 26), (34, 30), (68, 28), (100, 28), (135, 25), (167, 25), (208, 16), (227, 285)].any (fun (lo, n) => fld t lo n != 0)

/-- The checks of R292. -/
def State.mmaFault (s : State) (t : BitVec 512) : Option Cause :=
  let da := s.ringDesc (mmaRingA t)
  let db := s.ringDesc (mmaRingB t)
  let mixed (d : Word64) (lay : Nat) : Bool :=
    ringFmt d != lay % 32 || !fmtMatrix (ringFmt d) || (ringBanks d).any (fun b => s.bankFmt b != ringFmt d || !s.bankConsistent b)
  let laid (d : Word64) (lay : Nat) : Bool := ringSwz d != lay / 32 || (fmtBlock (ringFmt d) && ringSwz d != 0)
  if mmaReserved t then some .reservedBits
  else if mmaNk t = 0 || mmaRingA t = mmaRingB t then some .fieldRange
  else if !ringV da || !ringV db then some .ringUnderrun
  else if ringTc da < mmaNk t || ringTc db < mmaNk t then some .fieldRange
  else if mixed da (mmaLayA t) || mixed db (mmaLayB t) || fmtWidth (ringFmt da) != fmtWidth (ringFmt db) then some .formatMismatch
  else if laid da (mmaLayA t) || laid db (mmaLayB t) then some .layoutMismatch
  else none

/-- Rd of a ring (R297): 8 × the largest count of 64-byte accesses of a tile to one bank, rows and scales together. -/
def State.tileReadTime (s : State) (d : Word64) : Nat :=
  let w := fmtWidth (ringFmt d)
  let load (b : Nat) : Nat :=
    ((List.range 64).map (fun r =>
      let bank := ringFb d + r % ringNb d
      (if bank = b then 384 else 0) +
        (if fmtBlock (ringFmt d) && s.bankSbank bank = b then 3072 / w / 32 * scaleBytes (ringFmt d) else 0))).sum
  8 * ((List.range 64).map (fun b => (load b + 63) / 64)).foldl max 0

/-- Tiles of ring `k` that operations not yet retired will pop (R293). -/
def State.popsDue (s : State) (k : Nat) : Nat :=
  (s.mat.ops.map (fun o => if (mmaPopA o.img && mmaRingA o.img == k) || (mmaPopB o.img && mmaRingB o.img == k)
    then mmaNk o.img else 0)).sum

/-- The engine time at which the window of a ring has room for `nk` tiles (R293, R298). -/
def State.windowTime (s : State) (k nk : Nat) : Nat :=
  let tc := ringTc (s.ringDesc k)
  let room (t : Nat) : Bool := ((s.mat.pops.map (fun (r, n, nr) => if r == k && t < nr then n else 0)).sum + nk) ≤ tc
  ((s.vec.now :: s.mat.pops.map (fun p => p.2.2)).filter room).foldl min (s.mat.nr + s.vec.now)

/-- The engine time at which at most one operation has not started (R298). -/
def State.queueTime (s : State) : Nat :=
  ((s.mat.starts.filter (fun t => 2 ≤ (s.mat.starts.filter (fun u => t ≤ u)).length)).foldl max 0)

/-- The engine time that a go of an mma waits for. -/
def State.goTime (s : State) (t : BitVec 512) : Nat :=
  max s.queueTime (max (s.windowTime (mmaRingA t) (mmaNk t)) (s.windowTime (mmaRingB t) (mmaNk t)))

/-- The state with the next operation's start due. -/
def State.kickMatrix (s : State) : State :=
  match s.mat.ops with
  | o :: _ => if o.running then s else s.postOnce .mma
  | [] => s

/-- Slot of tile `n` from the first slot of an operation's tiles. -/
def tileSlot (d : Word64) (first n : Nat) : Nat := (first + n) % ringTc d

/-- The tiles of an operation's next K step are both ready (R293). -/
def State.tilesReady (s : State) (o : MatOp) : Bool :=
  s.slotReady (mmaRingA o.img) (tileSlot o.da o.sa o.done) && s.slotReady (mmaRingB o.img) (tileSlot o.db o.sb o.done)

/-- The state with the next K step of the running operation due, if it can begin. -/
def State.kickStep (s : State) : State :=
  match s.mat.ops with
  | o :: _ => if o.running && o.done < mmaNk o.img && s.tilesReady o then s.postOnce .mmaKStep else s
  | [] => s

/-- The state with the times of an operation, for the steps it has left, reckoned from now on (R297, R298). -/
def State.reckon (s : State) (o : MatOp) : State :=
  let t := o.img
  let now := s.vec.now
  let d := max (max (fmtCycles (ringFmt o.da)) (fmtCycles (ringFmt o.db))) (max (s.tileReadTime o.da) (s.tileReadTime o.db))
  let n := mmaAcc t
  let ns := max (max (now + 1) s.mat.ne) (max (mget s.mat.wordDone 0 n) (if o.chained then s.mat.nr else 0))
  let ne := ns + (mmaNk t - o.done) * d
  let nr := ne + 16
  let pops := (if mmaPopA t then [(mmaRingA t, mmaNk t, nr)] else []) ++ (if mmaPopB t then [(mmaRingB t, mmaNk t, nr)] else [])
  { s with mat := { s.mat with
      opDone := mset s.mat.opDone 0 n nr, ne := ne, nr := nr
      starts := s.mat.starts.filter (fun x => now < x) ++ [ns]
      pops := s.mat.pops.filter (fun (p : Nat × Nat × Nat) => now < p.2.2) ++ pops } }

/-- A go of an mma template that has passed its checks: it waits for room in the queue and in its rings' windows, for the tiles at their
HEADs (R79), and for pending writes of their formats (R293, R298, R64). -/
def State.mmaGo (s : State) (t : BitVec 512) (slot : Nat) (chained : Bool) : Res :=
  let s1 := s.selfTo (s.goTime t)
  let ka := mmaRingA t
  let kb := mmaRingB t
  let da := s1.ringDesc ka
  let db := s1.ringDesc kb
  let nk := mmaNk t
  if 2 ≤ (s1.mat.ops.filter (fun o => !o.running)).length || ringTc da < s1.popsDue ka + nk ||
      ringTc db < s1.popsDue kb + nk || !s1.slotReady ka (ringHead da) || !s1.slotReady kb (ringHead db) || (ringBanks da ++ ringBanks db).any s1.formatHeld then .wait s1
  else
    let o : MatOp := ⟨t, slot, da, db, (ringHead da + s1.popsDue ka) % ringTc da, (ringHead db + s1.popsDue kb) % ringTc db,
      chained, false, 0⟩
    .ok (({ s1 with mat := { s1.mat with ops := s1.mat.ops ++ [o] } }).reckon o).kickMatrix

/-- The slots of the operations' tiles, computed again from HEAD with the tiles that those before them will pop (R293, R303). -/
def State.placeTiles (s : State) : List MatOp → List MatOp → List MatOp
  | before, [] => before
  | before, o :: rest =>
    let t := { s with mat := { s.mat with ops := before } }
    let first (k : Nat) (d : Word64) : Nat := (ringHead (s.ringDesc k) + t.popsDue k) % ringTc d
    s.placeTiles (before ++ [{ o with sa := first (mmaRingA o.img) o.da, sb := first (mmaRingB o.img) o.db }]) rest

/-- The operations of a task that is bound again are reckoned from then on, each with the steps it has left (R303). -/
def State.reckonAll (s : State) : State :=
  let ops := s.placeTiles [] s.mat.ops
  ops.foldl State.reckon { s with mat := { s.mat with ops := ops, ne := 0, nr := 0, starts := [], pops := [] } }

/-- The state with the operation at the head of the engine replaced. -/
def State.setHead (s : State) (o : MatOp) : State :=
  { s with mat := { s.mat with ops := o :: s.mat.ops.tail } }

/-- The next operation starts, in go order (R293). -/
def execMma (s : State) : Result :=
  occur (match s.mat.ops with
    | o :: _ => if o.running then s else (s.setHead { o with running := true }).kickStep
    | [] => s)

/-- A K step of the running operation (R293, R295), unless a save stops the engine between two of them (R303). -/
def execMmaKStep (s : State) : Result :=
  occur (match s.mat.ops with
    | o :: _ =>
      if o.running && o.done < mmaNk o.img && s.tilesReady o && !s.stopsEngines then
        let s1 := ((s.kStepAll o (tileSlot o.da o.sa o.done) (tileSlot o.db o.sb o.done)).setHead { o with done := o.done + 1 }).count
          16 1
        if o.done + 1 = mmaNk o.img then s1.postOnce .mmaRetire else s1.kickStep
      else s
    | [] => s)

/-- The operation retires: its tiles are popped (R293), so packets that wait for a slot may land. -/
def execMmaRetire (s : State) : Result :=
  occur (match s.mat.ops with
    | o :: rest =>
      if o.done = mmaNk o.img then
        let s1 := if mmaPopA o.img then s.popSlots (mmaRingA o.img) (mmaNk o.img) else s
        let s2 := if mmaPopB o.img then s1.popSlots (mmaRingB o.img) (mmaNk o.img) else s1
        let s3 := ({ s2 with mat := { s2.mat with ops := rest } }).kickMatrix.postOnce .packetBeat
        if s3.scr.fmtPend.isEmpty then s3 else s3.postOnce .bankfmtEffect
      else s
    | [] => s)

/-! Accumulator words (R299 to R302). -/

/-- The engine time until which words on these accumulators wait (R301). -/
def State.accTime (s : State) (l : List Nat) : Nat :=
  l.foldl (fun t n => max t (max (mget s.mat.wordDone 0 n) (mget s.mat.opDone 0 n))) 0

/-- A word waits for these accumulators, in engine time and in fact (R298, R301). -/
def State.onAccs (s : State) (l : List Nat) (k : State → Res) : Res :=
  let s1 := s.selfTo (s.accTime l)
  if s1.mat.ops.any (fun o => l.contains (mmaAcc o.img)) then .wait s1 else k s1

/-- The state with a word on accumulators busy for `n` cycles from now on (R300). -/
def State.accBusy (s : State) (l : List Nat) (n : Nat) : State :=
  { s with mat := { s.mat with wordDone := l.foldl (fun m a => mset m 0 a (s.vec.now + n)) s.mat.wordDone } }

def execAccClr (a : BitVec 2) (s : State) : Result :=
  finish .compute s (s.onAccs [a.toNat] (fun s => .ok ((s.setAcc a.toNat [] 0).accBusy [a.toNat] 8)))

/-- D = A changes nothing. -/
def execAccMov (d a : BitVec 2) (s : State) : Result :=
  finish .compute s (s.onAccs [d.toNat, a.toNat] (fun s =>
    .ok ((s.setAcc d.toNat (mget s.mat.acc [] a.toNat) (s.accFlags a.toNat)).accBusy [d.toNat, a.toNat] 8)))

def execAccTov (d : BitVec 6) (a q : BitVec 2) (s : State) : Result :=
  finish .compute s (s.onAccs [a.toNat] (fun s =>
    let lanes : VReg := mtab 1024 .zero (fun i =>
      let x := s.accElem a.toNat (1024 * q.toNat + i)
      ⟨x, x == 0x7FFFFFFF⟩)
    let s1 := s.setV d.toNat lanes 8
    .ok (s1.accBusy [a.toNat] (mget s1.vec.ready 0 d.toNat - s1.vec.now))))

def execAccFromv (a q : BitVec 2) (src : BitVec 6) (s : State) : Result :=
  finish .compute s (s.onAccs [a.toNat] (fun s =>
    let x : Source := if src.toNat < 48 then .got (s.vReg src.toNat) s else s.takeImage (src.toNat - 48) true
    x.andThen s (fun r s1 =>
      let n := a.toNat
      let lo := 1024 * q.toNat
      let bad (i : Nat) : Bool := (vlane r i).fpPoison
      let e := mtab 4096 0 (fun i =>
        if lo ≤ i && i < lo + 1024 then (if bad (i - lo) then 0x7FFFFFFF else (vlane r (i - lo)).bits) else s1.accElem n i)
      let f := if (List.range 1024).any bad then s1.accFlags n ||| flagPsn else s1.accFlags n
      .ok ((s1.setAcc n e f).accBusy [n] 8))))

/-- The banks of acc.ld and acc.st and their element width, with the checks of R300. -/
def State.accBanks (s : State) (fb nbl offu : Nat) : Except (Cause × Word64) (List Nat × Nat) :=
  let nb := 2 ^ nbl
  let banks := (List.range nb).map (fun i => fb + i)
  let w := s.bankWidth fb
  if 64 < fb + nb then .error (.fieldRange, 0)
  else if s.nbank < fb + nb then .error (.notMapped, absentBank)
  else if banks.any (fun b => 2 < s.bankFmt b || s.bankWidth b != w || !s.bankConsistent b) then .error (.formatMismatch, 0)
  else if 65536 < 256 * offu + 8 * w * 64 / nb then .error (.fieldRange, 0)
  else .ok (banks, w)

/-- Banks in flight for a word of `n` cycles (R64, R300). -/
def State.accFlight (s : State) (banks : List Nat) (n : Nat) : State :=
  let c := s.clk.toNat
  { s with mat := { s.mat with banks := s.mat.banks.filter (fun (x : Nat × Nat) => c < x.2) ++ banks.map (fun b => (b, c + n)) } }

/-- acc.ld and acc.st on the banks of their layout: the element index of (row, column) in bank fb + (row mod nb). -/
def State.accRun (s : State) (a : BitVec 2) (f : BitVec 6) (n : BitVec 3) (o : BitVec 8)
    (k : State → Nat → Nat → (Nat → Nat) → Res) : Res :=
  s.onAccs [a.toNat] (fun s =>
    match s.accBanks f.toNat n.toNat o.toNat with
    | .error (c, tv) => .trap c tv 0
    | .ok (banks, w) =>
      if banks.any s.formatHeld then .wait s
      else
        let nb := 2 ^ n.toNat
        let busy := 64 * w / nb + 20
        k (s.accFlight banks busy) nb busy (fun r => 8 * (256 * o.toNat + 8 * w * (r / nb)) / w))

def execAccLd (a : BitVec 2) (f : BitVec 6) (n : BitVec 3) (o : BitVec 8) (s : State) : Result :=
  finish .compute s (s.accRun a f n o (fun s nb busy at_ =>
    let out := (List.range 4096).map (fun i => s.elemVal (f.toNat + i / 64 % nb) (at_ (i / 64) + i % 64))
    let e := mtab 4096 0 (fun i => BitVec.ofNat 32 (encodeFloat fp32 0 false (out.getD i .zero)).code)
    .ok ((s.setAcc a.toNat e (if out.contains .poison then flagPsn else 0)).accBusy [a.toNat] busy)))

def execAccSt (a : BitVec 2) (f : BitVec 6) (n : BitVec 3) (o : BitVec 8) (s : State) : Result :=
  finish .compute s (s.accRun a f n o (fun s nb busy at_ =>
    let (s1, evs) := (List.range nb).foldl (fun (acc : State × List BlockEvent) b =>
      let xs := ((List.range (64 / nb)).flatMap (fun j => (List.range 64).map (fun c =>
        (at_ (b + nb * j) + c, decodeFloat fp32 (s.accElem a.toNat (64 * (b + nb * j) + c)).toNat))))
      let (t, e) := acc.1.storeVals (f.toNat + b) 0 false xs
      (t, acc.2 ++ e)) (s, [])
    let fl := if evs.isEmpty then s1.accFlags a.toNat else s1.accFlags a.toNat ||| flagOvf
    let s2 := (s1.setAcc a.toNat (mget s1.mat.acc [] a.toNat) fl).accBusy [a.toNat] busy
    .ok { s2 with mat := { s2.mat with stored := max s2.mat.stored (s2.vec.now + busy) } }))

def execMpush (a : BitVec 2) (r c : BitVec 6) (l : BitVec 1) (s : State) : Result :=
  finish .compute s (s.onAccs [a.toNat] (fun s =>
    if 8 ≤ s.mat.mq.length then .fail .queueOverflow
    else
      let n := a.toNat
      let x := (s.accElem n (64 * r.toNat + c.toNat)).setWidth 64
      let s1 := { s with mat := { s.mat with mq := s.mat.mq ++ [(x, (s.accFlags n).setWidth 6, s.vec.now + 4)] } }
      .ok ((s1.setAcc n (mget s1.mat.acc [] n) (if l = 1 then 0 else s1.accFlags n)).accBusy [n] 4)))

def execMwait (a : BitVec 2) (s : State) : Result := finish .compute s (s.onAccs [a.toNat] .ok)
def execMwaitAll (s : State) : Result := finish .compute s (s.onAccs [0, 1, 2, 3] .ok)

end Sys2Proof.Machine
end

