-- ==== Sys2Proof/Machine/Dispatcher.lean ====
section
/-! DEFINITION. The rendezvous of a swap and its commit (R171, R178), saving and restoring a task (R183, R339, R340, R364, R367),
the selection round and binding (R333 to R338), and the writes of LQCMD, RESUME, PREQ and DHALT. -/
namespace Sys2Proof.Machine

/-! What may be bound (R334 to R336). -/

/-- A stage is ready; `work` false leaves out the condition on its work, as for a parked task (R335). -/
def State.stageReady (s : State) (l : Launch) (n : Nat) (work : Bool) : Bool :=
  let e := l.stage n
  let r := l.runOf n
  let u := if stInq e = 15 then some 0 else (s.queueSeen l (stInq e)).map queued
  let room := stOutq e = 15 || (s.queueSeen l (stOutq e)).any (fun x => decide (stOutn e ≤ State.room l (stOutq e) x))
  match u with
  | none => false
  | some u =>
    (!work || (if stInq e = 15 then r.started < stNact e else 1 ≤ u)) && room &&
      (r.bound < stMinc e || (r.bound < stMaxc e && (stInq e = 15 || lqHiwat (l.queueDesc (stInq e)) < u)))

/-- A parked task is ready to resume (R335, R340, R367). -/
def State.parkedReady (s : State) (p : Parked) : Bool :=
  (p.resumed || p.why = .yield || p.why = .preempt) &&
    match s.launchOf p.launch with
    | some l => s.stageReady l p.stage false
    | none => false

/-- p of R336: a level more for each 4,000,000 ticks of W, which counts from the tick `since`. -/
def State.levelOf (s : State) (l : Launch) (since : Option Nat) : Nat := min 7 (l.prio + (s.clk.toNat - since.getD s.clk.toNat) / 4000000)

/-- A stage may run on the die of the modelled core (R334). -/
def State.mayRun (s : State) (l : Launch) (n : Nat) : Bool := s.runsOn s.die.toNat l.asid (lhTdmva l.header) (l.stage n)

/-- The candidates for a free core: new activations and parked tasks. -/
def State.candidates (s : State) : List Chosen :=
  let stages := (s.disp.launches.filter (fun l => l.live)).flatMap (fun l =>
    ((List.range l.stages.length).filter (fun n => s.stageReady l n true && s.mayRun l n)).map (fun n =>
      (⟨l.number, n, none, s.levelOf l (l.runOf n).since, s.clk.toNat⟩ : Chosen)))
  let parked := s.disp.parked.zipIdx.filterMap (fun (p, i) =>
    match s.launchOf p.launch with
    | some l => if s.parkedReady p && s.mayRun l p.stage then some (⟨p.launch, p.stage, some i, s.levelOf l p.since, s.clk.toNat⟩ : Chosen) else none
    | none => none)
  stages ++ parked

/-- Rotate of R336 on a level of the core's die: the launch, and the state with the rotation moved. -/
def State.rotate (s : State) (level : Nat) (top : List Chosen) : Option Launch × State :=
  let key := 8 * s.die.toNat + level
  let r := mget s.disp.rotations ⟨65536, 0⟩ key
  let ls := s.disp.launches.filter (fun l => l.live)
  let order := ls.dropWhile (fun l => l.number != r.ptr) ++ ls
  match order.find? (fun l => top.any (fun c => c.launch == l.number)) with
  | none => (none, s)
  | some l =>
    let credit := (if l.number = r.ptr then r.credit else l.weight) - 1
    let r1 : Rotation := if credit = 0 then
        match s.launchAfter l.number with
        | some a => ⟨a.number, a.weight⟩
        | none => ⟨l.number, credit⟩
      else ⟨l.number, credit⟩
    (some l, { s with disp := { s.disp with rotations := mset s.disp.rotations ⟨65536, 0⟩ key r1 } })

/-- SelectFor of R336 for the modelled core. -/
def State.select (s : State) : State :=
  let k := s.candidates
  let p := k.foldl (fun p c => max p c.prio) 0
  let top := k.filter (fun c => c.prio == p)
  match s.rotate p top with
  | (none, _) => s
  | (some l, s1) =>
    let mine := top.filter (fun c => c.launch == l.number)
    let c := (mine.find? (fun c => c.parked.isSome)) <|> (mine.filter (fun c => c.parked.isNone)).getLast?
    { s1 with disp := { s1.disp with chosen := c } }.postOnce .bindTask

/-- The tick from which W of a stage or a parked task counts (R336): `now` where it has become ready. -/
def readySince (now : Nat) (ready : Bool) (since : Option Nat) : Option Nat := if ready then some (since.getD now) else none

/-- What has become ready in the tick that ends, and what is ready no more (R336). -/
def State.noteReady (s : State) : State :=
  let d := s.disp
  { s with disp := { d with
    launches := d.launches.map (fun l => { l with run := l.run.zipIdx.map (fun (r, n) =>
      { r with since := readySince s.clk.toNat (l.live && s.stageReady l n true) r.since }) })
    parked := d.parked.map (fun p => { p with since := readySince s.clk.toNat (s.parkedReady p) p.since }) } }

/-- Priorities that setprio has written take effect as a round begins (R337). -/
def State.takePriorities (s : State) : State :=
  { s with disp := { s.disp with launches := s.disp.launches.map (fun l => { l with prio := l.newPrio.getD l.prio, newPrio := none }) } }

/-- The head of a launch queue is admitted, or aborted where it depends on an aborted launch (R333, R362). -/
def State.admit1 (s : State) (q : Nat) : State :=
  match (mget s.disp.queues [] q).head? with
  | none => s
  | some n => match s.launchOf n with
    | none => s
    | some l =>
      let early := lhEarly l.header
      if !early && lhDepv l.header &&& ~~~l.released != 0 then s
      else
        let d := s.disp
        let s1 := { s with disp := { d with
          queues := mset d.queues [] q (mget d.queues [] q).tail
          launches := (d.launches.filter (fun x => x.live)) ++ [{ l with live := true }] ++
            d.launches.filter (fun x => !x.live && x.number != n) } }
        if !early && l.aborted != 0 then s1.endLaunch { l with live := true } true else s1

/-- LQSTAT of a submission that has been judged (R333). -/
def State.setLqstat (s : State) (n : Nat) (busy ok : Bool) (c : Option Cause) (launch : Option Nat) : State :=
  let a := 0x1000 + 32 * n + 16
  let r := put (putBit (putBit (s.cfgOf a) 63 busy) 62 ok) 56 6 ((c.map (fun x => x.code.toNat)).getD 0)
  s.setCfg a (match launch with
    | some l => put r 0 16 l
    | none => r)

/-- A descriptor of the host that has been checked enters its queue, or waits for a number (R332, R333). -/
def State.enterSubmitted (s : State) (n : Nat) (l : Launch) : State :=
  let l1 := s.noteDependences l
  let set (t : State) (x : Option Launch) : State := { t with disp := { t.disp with submitted := mset t.disp.submitted none n x } }
  if s.numbersFull || 16 ≤ (mget s.disp.queues [] n).length then (set s (some l1)).setLqstat n true false none none
  else
    let (s1, k) := (set s none).enterLaunch l1
    s1.setLqstat n false true none (some k)

/-- A submission of the host in an ASID is checked, as LQVA and LQCMD stand at its GO (R333, R393); it stays BUSY while homes outside the
package have not answered its reads. -/
def State.submitHost (s : State) (n : Nat) (asid : BitVec 11) : State :=
  let cmd := s.cfgOf (0x1000 + 32 * n + 8)
  let va : Addr := (cmd.setWidth 8 : BitVec 8) ++ s.cfgOf (0x1000 + 32 * n)
  match s.descriptor asid with
  | .error (c, _) => s.setLqstat n false false (some c) none
  | .ok d => match s.launchGate (8 + n) asid (d.getLsbD 1) true va with
    | some t => (t.setLqstat n true false none none).postOnce .lqcmdGo { n := n, flag := true, asid := asid }
    | none =>
      let s0 := s.doneHw (8 + n)
      match s.checkLaunch asid (d.getLsbD 1) true true (d.getLsbD 1) va n with
      | .error (c, _, _) => s0.setLqstat n false false (some c) none
      | .ok (s1, l) => (s1.enterSubmitted n l).doneHw (8 + n)

/-- Launch queues are open: the firmware was accepted and the counters run (R397, R400). -/
def State.queuesOpen (s : State) : Bool := s.pkg.firmware && s.pkg.clkRuns && !s.pkg.stopped

/-- The ASID of a virtual function (R389). -/
def State.vfAsid (s : State) (v : Nat) : Nat := fld (s.cfgOf (0x280 + 8 * v)) 0 11

/-- A submission of queue `n` is under way. -/
def State.submitting (s : State) (n : Nat) : Bool := (s.cfgOf (0x1000 + 32 * n + 16)).getLsbD 63

/-- A write of LQCMD of queue `n` through function `f`: its fields are taken, and with GO = 1 the host's descriptor is checked and submitted;
GO is ignored while BUSY (R333). A virtual function leaves ASID as it stands, and submits in the ASID of its VFASID (R389). -/
def State.lqcmdWrite (s : State) (n f : Nat) (v : Word64) : State :=
  let a := 0x1000 + 32 * n + 8
  let asid := if f = 0 then fld v 32 11 else fld (s.cfgOf a) 32 11
  let s1 := s.setCfg a (put (put (0 : Word64) 0 8 (fld v 0 8)) 32 11 asid)
  if v.getLsbD 63 && !s.submitting n && s.queuesOpen then s1.submitHost n (BitVec.ofNat 11 (if f = 0 then asid else s.vfAsid f)) else s1

/-- A write of LQCMD through function `w`; with `flag` a submission whose reads were not answered is looked at again. -/
def execLqcmdGo (s : State) : Result :=
  let n := s.input.n % 64
  occur (if s.input.flag then (if s.submitting n then s.submitHost n s.input.asid else s) else s.lqcmdWrite n (s.input.w.toNat % 16) s.input.v)

/-- One selection round (R336): priorities, submissions that wait for a number, completions, admissions, and the free core; `flag` tells
whether every other core of the die holds a task (log entry 6). -/
def execSelectionRound (s : State) : Result :=
  occur (
    let s := { s with disp := { s.disp with others := s.input.flag } }
    if s.pkg.stopped then s
    else
      let s1 := (List.range 64).foldl (fun (s : State) n => match mget s.disp.submitted none n with
        | some l => s.enterSubmitted n l
        | none => s) s.takePriorities
      let s2 := (List.range 64).foldl (fun s n => s.admit1 n) s1.completeLaunches
      if s2.task.bound || s2.disp.chosen.isSome then s2 else s2.select)

/-! Binding (R338). -/

/-- A write to a time-division register of a die is staged (R113). -/
def State.stage (s : State) (d : BitVec 2) (a : Nat) (v : Word64) : State :=
  { s with pkg := { s.pkg with staged := mset s.pkg.staged none a (some v), stagedAt := mset s.pkg.stagedAt 0 d.toNat s.pkg.cycles } }

/-- The die's time-division table becomes the launch's own (R334): its registers are staged, and switch at a revolution boundary
(R113). -/
def State.writeTable3080 (s : State) (l : Launch) : State :=
  let image (k : Nat) : Word64 :=
    if l.table.isEmpty then (if k = 384 then 6 else tdmReset k)
    else if k = 384 then w64 (fld (l.table.getD k 0) 0 3) else l.table.getD k 0
  let addr (k : Nat) : Nat := dieCfg s.die (if k = 384 then 0 else 0x1000 + 8 * k)
  let s1 := { s with disp := { s.disp with table := (l.asid, lhTdmva l.header) } }
  if (List.range 385).all (fun k => (mget s.pkg.staged none (addr k)).getD (s.cfgOf (addr k)) == image k) then s1
  else (List.range 385).foldl (fun (s : State) k => s.stage s.die (addr k) (image k)) s1

/-- The registers of a new activation at its binding: those of R338 step 2, in an empty context. -/
def State.bindContext (s : State) (l : Launch) (n act prio : Nat) (record : Nat) : State :=
  let e := l.stage n
  let pc (a : Addr) : SeqRegs := { SeqRegs.reset with pc := a }
  let taskid : Word64 := put (putBit (put (put (0 : Word64) 40 16 l.number) 37 3 n) 36 (stCompat e)) 0 32 act
  let s0 := s.emptyHold.clearContext
  let s1 := { s0 with
    seqs := ⟨pc (stLoad e), pc (stCompute e), pc (stStore e), pc (stCtrl e)⟩
    task := { s0.task with
      bound := true, starting := true, id := s.disp.tasks, secure := l.secure, prio := prio, grants := if stOutq e = 15 then 0 else stOutn e }
    disp := { s0.disp with tasks := s.disp.tasks + 1 } }
  let s2 := (((s1.setCsr 0 (putBit 0 2 l.secure)).setCsr 8 taskid).setCsr 9 (l.asid.setWidth 64)).setCsr 0xA ((stPht e).setWidth 64)
  (s2.setCsr 0xB ((stPht e >>> 64).setWidth 64)).setRecord 8 record

/-- A new activation is bound (R338): its record is taken after the room for its pushes is reserved; where no record
remains the binding is abandoned. W of the stage restarts with the round (R336). -/
def State.bindNew (s : State) (l : Launch) (n prio round : Nat) : State :=
  let e := l.stage n
  match s.reserveAt l (stOutq e) (stOutn e) with
  | .error _ => s
  | .ok (_, _, none) => s
  | .ok (s0, _, some l1) =>
    let taken : Option (State × Nat) := if stInq e = 15 then some (s0, 0) else match s0.takeRecord l (stInq e) with
      | .ok (s1, _, some r) => some (s1, r)
      | _ => none
    match taken with
    | none => s
    | some (s1, r) =>
      let x := l.runOf n
      let s2 := s1.setLaunch (l1.setRun n ⟨x.started + 1, x.bound + 1, some round⟩)
      ((s2.writeTable3080 l).bindContext l n x.started prio r).post .taskStart

/-- The copies of a restored task go on, and its collectives whose shards are here (R184, R327). -/
def State.resumeOps (s : State) : State :=
  let s1 := s.eng.ops.foldl (fun (s : State) o =>
    let k := opKind o.img
    if !o.started || o.ended then s
    else if kindColl k then (if o.coll.any (fun c => !c.parties.isEmpty) then s.postOnce .collectiveComplete { n := o.id } else s)
    else if o.total ≤ o.sent then s.postOnce .copyComplete { n := o.id }
    else if k = 5 then s
    else s.postOnce (kindEvent k) { n := o.id, side := o.side }) s
  ((s1.kickRelay).kickSide .load).kickSide .store

/-- Work of a restored task goes on: every event that its state makes due is posted (R183). -/
def State.resumeWork (s : State) : State :=
  let ports := (List.range 8).foldl (fun (s : State) (n : Nat) =>
    if (mget s.vec.inp (InPort.mk none 0 []) n).bound.isSome then s.postOnce .portRowRead { n := n } else s) s.resumeOps
  let mat := ports.kickMatrix.kickStep
  let log1 := mat.logs.overflow.foldl (fun (s : State) _ => s.post .overflowLogDrain) mat
  let log2 := log1.logs.unlanded.foldl (fun (s : State) _ => s.post .unlandedLogDrain) log1
  let swap := if log2.allReached then log2.postOnce .swapRendezvous else log2
  if swap.scr.fmtPend.isEmpty then swap else swap.postOnce .bankfmtEffect

/-- A stopped operation goes on from its progress register; where its DONE is not below its total, or its template slot is
empty or of another kind, PROGRESS_COMPAT is raised and it is dropped (R184). -/
def State.resumeProgress (s : State) : State :=
  let m := s.csrOf 0x1B
  let c := s.csrOf 0x1C
  let kindAt (k : Nat) : Nat := ((mget s.eng.tmpl none k).map (fun (t : BitVec 512) => fld t 0 6)).getD 0
  let fail (s : State) : State := s.async ⟨.progressCompat, .control, 0, 0, none⟩
  let s1 : State := if !m.getLsbD 0 then s
    else if fld m 16 16 ≤ fld m 32 16 || kindAt (128 + fld m 48 6) != 1 then
      fail { s with mat := { s.mat with ops := s.mat.ops.tail } }
    else match s.mat.ops with
      | o :: os => { s with mat := { s.mat with ops := { o with done := fld m 32 16 } :: os } }
      | [] => s
  let s2 : State := if !c.getLsbD 0 then s1
    else match s1.eng.ops.find? EngOp.stopped with
      | none => s1
      | some o =>
        let key := fld c 52 6 + (if c.getLsbD 51 then 64 else 0)
        if o.total ≤ fld c 24 27 || kindAt key != fld o.img 0 6 then
          fail ({ s1.dropOp o with eng := { (s1.dropOp o).eng with ops := s1.eng.ops.filter (fun x => x.id != o.id) } }).releaseClosed
        else { s1 with eng := { s1.eng with ops := s1.eng.ops.map (fun x => if x.id = o.id then { x with sent := fld c 24 27 } else x) } }
  (s2.setCsr 0x1B 0).setCsr 0x1C 0

/-- The commit state of a restored task is the state that its frame gives it: a save is taken at a commit, or in a phase that nothing
cancels any more (R183, R340, R367). -/
def State.recommit (s : State) : State :=
  { s with phase := { s.phase with commit := s.commitState s.phase.record.live, fqNew := [], cqNew := []
                                   tagsOld := s.csrOf 0x1A, tagsNew := 0, landedNew := [], slotsNew := [] } }

/-- The context of a frame takes the core (R338 step 2, R364). -/
def State.restore (s : State) (c : Context) (prio : Nat) : State :=
  let s0 := s.emptyHold.clearContext
  let s1 := { s0 with
    seqs := c.seqs, sc := { c.sc with bankG := s0.sc.bankG, bankA := s0.sc.bankA }
    csr := mergeMaps 0 s0.csr c.csr contextCsr, q := c.q, scr := c.scr, vec := c.vec, mat := c.mat
    eng := { c.eng with nextId := max s0.eng.nextId c.eng.nextId }, logs := { c.logs with memUnlanded := s0.logs.memUnlanded }
    phase := c.phase, task := { c.task with bound := true, prio := prio }
    mu := { s0.mu with fq := c.fq, remote := c.remote, deferred := c.deferred }
    trap := { s0.trap with pend := c.pend, step := c.step } }
  (s1.setWharf .core c.wharf).resumeProgress.recommit.reckonAll.resumeWork

/-- A parked task is bound again; a frame whose format or kind is none of R364 contains it with INTEGRITY. -/
def State.bindParked (s : State) (i : Nat) (p : Parked) (prio round : Nat) : State :=
  let s1 := { s with disp := { s.disp with parked := s.disp.parked.eraseIdx i } }
  match s1.readFrame p.secure p.frame p.context with
  | none => (s1.dropParked p .contained true .integrity).abortLaunch p.launch .integrity
  | some c => match s1.launchOf p.launch with
    | none => s1.setFrame p.secure p.frame false
    | some l =>
      let x := l.runOf p.stage
      let s2 := (s1.setLaunch (l.setRun p.stage { x with bound := x.bound + 1, since := some round })).writeTable3080 l
      (s2.restore c prio).setFrame p.secure p.frame false

/-- The dispatcher binds what was selected (R338). -/
def execBindTask (s : State) : Result :=
  occur (
    let s0 := { s with disp := { s.disp with chosen := none } }
    match s.disp.chosen with
    | none => s
    | some c =>
      if s.task.bound || s.pkg.stopped then s0
      else match c.parked with
        | some i => match s.disp.parked[i]? with
          | some p => s0.bindParked i p c.prio c.round
          | none => s0
        | none => match s.launchOf c.launch with
          | some l => s0.bindNew l c.stage c.prio c.round
          | none => s0)

/-- The first phase of a task: its record is read when its first group comes to issue, or, where the compute sequencer is idle, is
record 0 (R174, R175). -/
def State.beginFirst (s : State) : State :=
  if s.seqs.compute.run || s.compat then s.beginPhase .unread
  else
    let (s1, rec) := s.readRecord 0
    s1.beginPhase rec

/-- The four sequencers begin (R162), and with them the first phase (R170). -/
def execTaskStart (s : State) : Result :=
  occur (
    let first := if s.seqs.compute.pc = 0 && !s.compat then s.gate 4 s.asid s.taskSecure false .read s.phtBase 32 0 else none
    if !s.task.starting then s
    else if first.isSome then (first.getD s).postOnce .taskStart
    else
      let go (r : SeqRegs) : SeqRegs := { r with run := r.pc != 0 }
      let t := s.seqs
      { s with seqs := ⟨go t.load, go t.compute, go t.store, { t.control with run := true }⟩
               task := { s.task with starting := false } }.beginFirst)

/-! The rendezvous (R171). -/

/-- The check of R178: the cause of a mismatch. -/
def State.phaseCheck (s : State) : Option Cause :=
  match s.phase.record with
  | .got _ r =>
    let stat := s.csrOf 0xC
    if s.compat then none
    else if recCycen r && fld stat 0 19 != recExpcyc r then some .phaseCycles
    else if recSigen r && fld stat 32 32 != recSig r then some .phaseSignature
    else none
  | _ => none

/-- Every declared double buffer exchanges its halves, and its refetch list is that of the phase that ends (R172, R359). -/
def State.flipBuffers (s : State) : State :=
  (List.range 8).foldl (fun s n =>
    let d := s.dbuf n
    if dbufV d then
      let s1 := s.setCsr (0x90 + n) (putBit d 16 (!d.getLsbD 16))
      { s1 with eng := { s1.eng with refetch := mset (mset s1.eng.refetch ⟨false, []⟩ (8 + n) (s.refetchMade n)) ⟨true, []⟩ n ⟨true, []⟩ } }
    else s) s

/-- LATE_STORE is raised at every safe point at which LATEMASK is not zero (R132). -/
def State.lateCheck (s : State) : State :=
  if s.csrOf 0x13 = 0 then s else s.async ⟨.lateStore, .control, s.csrOf 0x13, 0, none⟩

/-- A task that yields is parked: a candidate of greater priority waits and no core of the die is free, or its stage may shrink (R339). -/
def State.parksAtYield (s : State) : Bool :=
  let shrink := match s.launchOf s.taskLaunch with
    | none => false
    | some l =>
      let e := l.stage s.taskStage
      let few (q : Nat) (f : Nat × Nat → Bool) : Bool := q != 15 && (s.queueSeen l q).any f
      stMinc e < (l.runOf s.taskStage).bound &&
        (few (stInq e) (fun x => queued x == 0) || few (stOutq e) (fun x => State.room l (stOutq e) x < stOutn e))
  (s.disp.others && s.candidates.any (fun c => s.task.prio < c.prio)) || shrink

/-- A request register of the core's die names the core. -/
def State.requested (s : State) (off : Nat) : Bool := (s.cfgOf (dieCfg s.die off)).getLsbD s.core.toNat

/-- A pending debug halt or pre-emption begins its save (R183, R364, R367). -/
def State.preempt (s : State) : Option State :=
  if s.requested 0x30 then some (s.askSave .halt true)
  else if s.requested 0x18 then some (s.askSave .preempt s.compat)
  else none

/-- The commit of R171, and what follows it at a safe point. -/
def State.commitPhase (s : State) : State :=
  let yields := s.phase.yields || s.phase.marked
  let step (s : State) (q : Seq) (i : Nat) : State := if s.phase.reached.getLsbD i then s.advance q else s
  let s1 := (step (step (step s.flipBuffers .load 0) .compute 1) .store 2).closeRegions
  let (s2, rec) := if s.compat then (s1, PhaseRec.unread) else s1.nextRecord
  let s3 := (s2.beginPhase rec).lateCheck
  match s3.preempt with
  | some t => t
  | none => if yields && s3.parksAtYield then s3.askSave .yield s.compat else s3

def execSwapRendezvous (s : State) : Result :=
  occur (
    if !s.task.bound || !s.allReached || s.phase.reached = 0 || s.inh || s.disp.saving.isSome then s
    else match s.phaseCheck with
      | some c => s.rerun c .compute (s.pcOf .compute) 0 0
      | none =>
        let next := if s.phase.reached.getLsbD 1 then s.nextPc .compute else s.pcOf .compute
        match (if s.compat then none else s.recordGate next) with
        | some t => t.postOnce .swapRendezvous
        | none => s.commitPhase)

/-! Saves (R364). -/

/-- The engines of the task are where a save may take them: they have completed every operation, or, in a save that stops them, no packet
and no read of tiles is unanswered, no collective runs, and no matrix operation has only to retire (R183, R184, R303, R313). -/
def State.enginesRest (s : State) : Bool :=
  if s.stopsEngines then
    s.eng.ops.all (fun o => o.open_ == 0 && o.asks.isEmpty && !(kindColl (opKind o.img) && o.started) && !o.ended) &&
      s.mat.ops.all (fun o => o.done < mmaNk o.img)
  else s.eng.ops.isEmpty && s.mat.ops.isEmpty

/-- A save need not wait any longer (R183, R136): the engines rest, stores are performed or wait at their homes for their time, no packet
is bound at the wharf, images have been written, logs are drained, and no answer is awaited. -/
def State.saveReady (s : State) : Bool :=
  let idle (r : Remote) : Bool := match r with
    | .waiting _ _ => false
    | _ => true
  s.enginesRest && s.mapsDone && (s.wharf .core).ops.isEmpty && !s.boundPackets && s.storesSettled && s.mu.notBefore.isNone &&
    s.vec.out.all (fun x => x.2.images.isEmpty) && s.logs.overflow.isEmpty && s.logs.unlanded.isEmpty && idle s.mu.remote &&
    s.eng.remote.all (fun x => idle x.2)

/-- The task is parked in a frame: its record, its place in its stage, and the core free; its PREQ bit clears, and at a halt its DHALT bit
(R364, R367). -/
def State.saveTask (s : State) (why : ParkWhy) (full : Bool) (frame : Nat) : State :=
  let secure := s.taskSecure
  let s0 := s.emptyHold.closeRegions
  let s1 := if full then s0.progress else s0
  let ctx := if full then s1.context else s1.keepLive s1.context s1.phase.record.live
  let addr := BitVec.ofNat 72 (s1.frameAddress secure frame)
  let s2 := match why with
    | .yield => s1.writeFrame frame full .illegal ctx
    | .fault => s1.writeFrame frame full .pageAbsent ctx
    | .halt => ((s1.writeFrame frame full .debugHalt ctx).faultOfTask .halt .debugHalt 0 addr (s.pcOf .control) .control).clearRequest 0x30
    | .preempt => (s1.writeFrame frame full .preempted ctx).faultOfTask .preempted .preempted 0 0 (s.pcOf .control) .control
  let s3 := (s2.setFrame secure frame true).clearRequest 0x18
  let p : Parked := ⟨s.taskLaunch, s.taskStage, s.taskAct, secure, why, false, frame, full, none, ctx⟩
  let s4 := match s3.launchOf s.taskLaunch with
    | some l => let x := l.runOf s.taskStage; s3.setLaunch (l.setRun s.taskStage { x with bound := x.bound - 1 })
    | none => s3
  { s4 with disp := { s4.disp with parked := s4.disp.parked ++ [p] } }.unbind

/-- The save that was asked for takes place once its work has settled and a frame is free; until then it waits bound. -/
def execTaskSave (s : State) : Result :=
  occur (match s.disp.saving with
    | none => s
    | some (why, full) =>
      if !s.saveReady then s
      else match s.freeFrame s.taskSecure with
        | none => s
        | some n => s.saveTask why full n)

/-! The registers that name tasks (R340, R364, R367). -/

/-- RESUME: a task parked by a page fault or a debug halt becomes ready (R340). -/
def State.resumeTask (s : State) (v : Word64) : State :=
  { s with disp := { s.disp with parked := s.disp.parked.map (fun p =>
    if p.launch = fld v 40 16 && p.stage = fld v 37 3 && p.act = fld v 0 32 && (p.why = .fault || p.why = .halt) then
      { p with resumed := true }
    else p) } }

def execResumeWrite (s : State) : Result := occur (s.resumeTask s.input.v)

/-- PREQ: bits written 1 are set (R364). -/
def State.preqWrite (s : State) (die : BitVec 2) (v : Word64) : State :=
  let a := dieCfg die 0x18
  s.setCfg a (s.cfgOf a ||| v)

def execPreqWrite (s : State) : Result := occur (s.preqWrite s.input.die s.input.v)

/-- DHALT: bits written 1 are set; one for a secure task that the host or the non-secure supervisor sets is cleared at
once (R367). `secure` says that the secure supervisor writes. -/
def State.dhaltWrite (s : State) (die : BitVec 2) (v : Word64) (secure : Bool) : State :=
  let a := dieCfg die 0x30
  let barred := die == s.die && s.task.bound && s.taskSecure && !secure
  s.setCfg a (s.cfgOf a ||| (if barred then putBit v s.core.toNat false else v))

def execDhaltWrite (s : State) : Result := occur (s.dhaltWrite s.input.die s.input.v s.input.flag)

end Sys2Proof.Machine
end

