-- ==== Sys2Proof/Machine/ConfigSpace.lean ====
section
/-! DEFINITION. Configuration space (R13, R14): the registers by address, who may read and write each, and what a write does. -/
namespace Sys2Proof.Machine

/-- The registers of configuration space. -/
inductive CfgReg where
  | pkgcfg | clkinit | clkstat | modpwr | cstop | pkgrst | asdtbase | ilvctl | tvecn | tvecs | fringn | frings
  | frpooln | frpools | resume | fabto | plwctl | migcmd | migdst | ckctl | ckmap | ckdst | rwcmd | kscmd | lqworld | fprogv
  | plwadm | pwin | kskey | vfasid | fprog | sgctl | sgstat | sgkctl | sgkt | sgkey | lqva | lqcmd | lqstat
  | intlv | ksctl | admset | lst
  | tdmctl | mwholdt | mwulog | preq | leavectl | thrstat | dhalt | tdm
deriving DecidableEq, Repr

/-- The registers of the package block at 0 to 0xC8, one each 8 bytes (R14). -/
def hubRegs : List CfgReg :=
  [.pkgcfg, .clkinit, .clkstat, .modpwr, .cstop, .pkgrst, .asdtbase, .ilvctl, .tvecn, .tvecs, .fringn, .frings,
   .frpooln, .frpools, .resume, .fabto, .plwctl, .migcmd, .migdst, .ckctl, .ckmap, .ckdst, .rwcmd, .kscmd, .lqworld, .fprogv]

/-- The registers at the head of a die block (R14). -/
def dieRegs : List CfgReg := [.tdmctl, .mwholdt, .mwulog, .preq, .leavectl, .thrstat, .dhalt]

/-- The register at a configuration address, with its number in its range; none where no register exists (R14). -/
def cfgReg (a : Nat) : Option (CfgReg × Nat) :=
  let at_ (base count : Nat) : Bool := decide (base ≤ a) && a < base + 8 * count
  if a % 8 != 0 then none
  else if a < 0xD0 then (hubRegs[a / 8]?).map (fun r => (r, 0))
  else if at_ 0x100 16 then some (.plwadm, (a - 0x100) / 8)
  else if at_ 0x180 16 then some (.pwin, (a - 0x180) / 8)
  else if at_ 0x200 8 then some (.kskey, (a - 0x200) / 8)
  else if at_ 0x288 15 then some (.vfasid, (a - 0x280) / 8)
  else if at_ 0x400 64 then some (.fprog, (a - 0x400) / 8)
  else if at_ 0x800 128 then
    let k := a % 0x40 / 8
    some ([CfgReg.sgctl, .sgstat, .sgkctl, .sgkt].getD k .sgkey, (a - 0x800) / 0x40)
  else if at_ 0x1000 256 then ([CfgReg.lqva, .lqcmd, .lqstat][a % 0x20 / 8]?).map (fun r => (r, (a - 0x1000) / 0x20))
  else if at_ 0x10000 2048 then some (.intlv, (a - 0x10000) / 8)
  else if at_ 0x20000 1024 then some (.ksctl, (a - 0x20000) / 8)
  else if at_ 0x40080 1008 then some (.admset, (a - 0x40000) / 8)
  else if at_ 0x80000 65536 then some (.lst, (a - 0x80000) / 8)
  else if 0x100000000 ≤ a && a < 0x104000000 then
    let d := (a - 0x100000000) / 0x1000000
    let o := a % 0x1000000
    if o < 0x38 then (dieRegs[o / 8]?).map (fun r => (r, d))
    else if 0x1000 ≤ o && o < 0x1C00 then some (.tdm, d) else none
  else none

/-- Who accesses configuration space: a supervisor of the secure or the non-secure world, or the host through a function. -/
inductive Agent where
  | supervisor (secure : Bool)
  | host (fn : Nat)
deriving DecidableEq, Repr

/-- A register that belongs to the secure world (R13): a non-secure access to it raises WORLD. Where a map only says who may write it,
what a non-secure read does is the model's choice (log entry 64). -/
def CfgReg.secure : CfgReg → Bool
  | .clkinit => true
  | .modpwr => true
  | .asdtbase => true
  | .tvecs => true
  | .frings => true
  | .frpools => true
  | .fabto => true
  | .plwctl => true
  | .plwadm => true
  | .migcmd => true
  | .migdst => true
  | .ckctl => true
  | .ckmap => true
  | .ckdst => true
  | .rwcmd => true
  | .kscmd => true
  | .kskey => true
  | .ksctl => true
  | .admset => true
  | .lqworld => true
  | .vfasid => true
  | .intlv => true
  | .sgctl => true
  | .sgkctl => true
  | .sgkt => true
  | .sgkey => true
  | .pwin => true
  | .leavectl => true
  | _ => false

/-- A register that every world may read and only the secure one may write. -/
def CfgReg.secureWrite (r : CfgReg) : Bool :=
  r.secure || r == .pkgcfg || r == .ilvctl || r == .mwulog || r == .lqva || r == .pkgrst

/-- A register that the host may write. -/
def CfgReg.hostWrites : CfgReg → Bool
  | .lqva => true
  | .lqcmd => true
  | .preq => true
  | .dhalt => true
  | .pkgrst => true
  | _ => false

/-- A register that the host may read during a contained stop (R365). -/
def CfgReg.openStopped : CfgReg → Bool
  | .cstop => true
  | .pkgcfg => true
  | .fringn => true
  | .frings => true
  | _ => false

/-- The writable fields of a register that a write only stores (R10); the others have a behaviour of their own. -/
def CfgReg.stored : CfgReg → Option Word64
  | .asdtbase => some (fieldMask [(17, 43)])
  | .tvecn => some (fieldMask [(0, 64)])
  | .tvecs => some (fieldMask [(0, 64)])
  | .fringn => some (fieldMask [(17, 43)])
  | .frings => some (fieldMask [(17, 43)])
  | .frpooln => some (fieldMask [(0, 64)])
  | .frpools => some (fieldMask [(0, 64)])
  | .plwctl => some (fieldMask [(0, 3)])
  | .plwadm => some (fieldMask [(0, 64)])
  | .migdst => some (fieldMask [(0, 62)])
  | .ckmap => some (fieldMask [(15, 45)])
  | .ckdst => some (fieldMask [(0, 32)])
  | .pwin => some (fieldMask [(0, 64)])
  | .vfasid => some (fieldMask [(0, 11)])
  | .fprog => some (fieldMask [(0, 64)])
  | .fprogv => some (fieldMask [(0, 8)])
  | .admset => some (fieldMask [(0, 64)])
  | .sgkctl => some (fieldMask [(0, 16)])
  | .lqva => some (fieldMask [(0, 64)])
  | .mwulog => some (fieldMask [(62, 2), (0, 43)])
  | .leavectl => some (fieldMask [(8, 56), (0, 3)])
  | _ => none

/-! Reads. -/

/-- Requests in flight of the modelled core that are bound to the non-current interleave version (R120). -/
def State.oldOwn (s : State) : Nat :=
  (s.mu.storeQ.filter (fun r => r.bound.ver != s.ilvCur && s.target r.bound.leaf == 0)).length +
    (s.mu.factor.filter (fun f => f.bound.ver != s.ilvCur && s.target f.bound.leaf == 0 && f.result.isNone)).length +
    (s.mu.notBefore.filter (fun x => x.1.ver != s.ilvCur)).toList.length

/-- OLDCNT (R119). -/
def State.oldCount (s : State) : Nat := s.oldOwn + s.pkg.oldRequests

/-- LSTn (R333). -/
def State.launchState (s : State) (n : Nat) : Word64 :=
  match s.launchOf n with
  | some l => put (put (0 : Word64) 2 11 l.asid.toNat) 0 2 (if l.live then 2 else 1)
  | none => match mget s.disp.finished none n with
    | some asid => put (put (0 : Word64) 2 11 asid.toNat) 0 2 3
    | none => 0

/-- The registers of a die that hold a staged value (R113). -/
def State.stagedOf (s : State) (d : BitVec 2) : SMap (Option Word64) :=
  s.pkg.staged.filter (fun (x : Nat × Option Word64) => (x.1 - 0x100000000) / 0x1000000 == d.toNat)

/-- A register as it reads. -/
def State.regValue (s : State) (r : CfgReg) (n a : Nat) : Word64 :=
  let v := s.cfgOf a
  match r with
  | .pkgcfg => put (put (put (put (put (0 : Word64) 38 10 (fld v 38 10)) 34 4 s.upperDies.toNat) 31 3 s.pkg.fused.toNat) 21 10 512)
      20 1 s.pkg.part.toNat
  | .clkinit => v
  | .pkgrst => 0
  | .resume => 0
  | .kskey => 0
  | .sgkey => 0
  | .ilvctl => put (v &&& 5) 16 24 (min s.oldCount (2 ^ 24 - 1))
  | .lqstat => put v 16 5 (mget s.disp.queues [] n).length
  | .lst => s.launchState n
  | .tdmctl => putBit v 3 (!(s.stagedOf (BitVec.ofNat 2 n)).isEmpty)
  | .sgstat => put v 0 24 (min (s.boundTo n).length (2 ^ 24 - 1))
  | _ => v

/-- A configuration read: WORLD for the non-secure supervisor at a register of the secure world; the host reads those as zero;
during a contained stop only the registers that stay open are read (R13, R365, log entry 18). -/
def State.cfgRead (s : State) (a : Nat) (g : Agent) : Except Cause Word64 :=
  match cfgReg a with
  | none => if s.pkg.stopped then .error .containedStop else .ok 0
  | some (r, n) =>
    if s.pkg.stopped && !r.openStopped then .error .containedStop
    else match g with
      | .supervisor true => .ok (s.regValue r n a)
      | .supervisor false => if r.secure then .error .world else .ok (s.regValue r n a)
      | .host _ => .ok (if r.secure && !(s.pkg.stopped && r.openStopped) then 0 else s.regValue r n a)

/-! Assignment (R391). -/

def Tdi.none : Tdi := ⟨0, 0, false⟩
/-- The device interface of function `v`. -/
def State.tdi (s : State) (v : Nat) : Tdi := mget s.pkg.tdis .none v
def State.setTdi (s : State) (v : Nat) (t : Tdi) : State := { s with pkg := { s.pkg with tdis := mset s.pkg.tdis .none v t } }
/-- A function's configuration is locked. -/
def State.tdiLocked (s : State) (v : Nat) : Bool := (s.tdi v).state != 0

/-- The functions whose lock covers a register (R391); none for one that is locked by bits. -/
def State.lockers (s : State) (r : CfgReg) (n a : Nat) : List Nat :=
  let fs := (List.range 16).filter s.tdiLocked
  match r with
  | .vfasid => fs.filter (fun v => v == n)
  | .ksctl => fs.filter (fun v => v != 0 && fld (s.cfgOf a) 32 11 == s.vfAsid v)
  | _ => []

/-- LQWORLD bits that stand locked: those of the queues of locked functions. -/
def State.lockedQueues (s : State) : Word64 :=
  ((List.range 16).filter s.tdiLocked).foldl (fun w v => put w (4 * v) 4 15) 0

/-- A function goes to ERROR with ASSIGNMENT_LOCK in its error status: its bound task is contained, its launches are aborted, and
the descriptors that its queues wait to submit are dropped (R391). -/
def State.tdiError (s : State) (v : Nat) : State :=
  let s1 := s.setTdi v { s.tdi v with state := 3, lockError := true }
  let mine (l : Launch) : Bool := l.queue / 4 == v
  let s2 := if s1.task.bound && ((s1.launchOf s1.taskLaunch).map mine).getD false then
      s1.containTask .assignmentLock 0 0 (s1.pcOf .control) .control else s1
  let s3 := (s2.disp.launches.filter mine).foldl (fun s l => s.abortLaunch l.number .assignmentLock) s2
  [0, 1, 2, 3].foldl (fun (s : State) j =>
    let n := 4 * v + j
    if s.submitting n then
      ({ s with disp := { s.disp with submitted := mset s.disp.submitted none n none } }).setLqstat n false false (some .assignmentLock) none
    else s) s3

/-! Writes. -/

/-- The writable fields of a register take a value. -/
def State.mergeCfg (s : State) (a : Nat) (m v : Word64) : State := s.setCfg a ((s.cfgOf a &&& ~~~m) ||| (v &&& m))

/-- A write to a command register: its fields are taken, and with GO = 1 the command begins with them; a GO while one runs, and GO reads 1,
is ignored. -/
def State.command (s : State) (a go : Nat) (fields v : Word64) (e : Instr) : State :=
  let s1 := s.mergeCfg a fields v
  if v.getLsbD go && !(s.cfgOf a).getLsbD go then
    let s2 := s1.setCfg a (putBit (s1.cfgOf a) go true)
    ({ s2 with pkg := { s2.pkg with running := mset s2.pkg.running 0 a (v &&& fields) } }).postFirst e { v := v }
  else s1

/-- The governor looks again where a phase waits for its leave (R405). -/
def State.kickLeave (s : State) : State := if s.phase.asked.isSome && !s.phase.granted then s.postOnce .leaveGrant else s

/-- FLIP makes the other version current at once (R119, R120); `n` is the count of outside agents' requests that are bound to the old one. -/
def State.flip (s : State) (n : Nat) : State :=
  let r := s.cfgOf 0x38
  if r.getLsbD 2 then s
  else
    let s1 := s.setCfg 0x38 (putBit (putBit r 0 (!r.getLsbD 0)) 2 true)
    { s1 with pkg := { s1.pkg with oldRequests := n } }

/-- CHIP is read-only: a SerDes group is not down (R401). -/
def State.chipFixed (s : State) : Bool := (List.range 16).any (fun k => s.sgStep k != 0)

/-- The part of a write that the register's own rule gives. -/
def State.writeReg (s : State) (r : CfgReg) (n a : Nat) (g : Agent) (v : Word64) : Except Cause State :=
  let ok (t : State) : Except Cause State := .ok t
  match r with
  | .pkgcfg => ok (if s.chipFixed then s else s.setCfg a (put (0 : Word64) 38 10 (fld v 38 10)))
  | .clkinit => ok (s.postFirst .clkinitWrite { v := v })
  | .modpwr =>
    ok (if 1600 ≤ fld v 0 12 && fld v 0 12 ≤ 2600 then (s.setCfg a (w64 (fld v 0 12))).kickLeave else s)
  | .leavectl => ok ((s.mergeCfg a (fieldMask [(8, 56), (0, 3)]) v).kickLeave)
  | .pkgrst => ok (if v.getLsbD 63 && fld v 0 8 = 0xA5 then s.postFirst .pkgrstWrite { v := v } else s)
  | .ilvctl =>
    let (free, t) := s.draw
    ok (if v.getLsbD 1 then t.flip (fld free 0 24) else s)
  | .intlv =>
    let ver := decide (1024 ≤ n)
    ok (if ver == s.ilvCur || (s.cfgOf 0x38).getLsbD 2 then s else s.setCfg a (v &&& fieldMask [(15, 1), (0, 10)]))
  | .fabto => ok (if fld v 0 32 = 0 then s else s.setCfg a (w64 (fld v 0 32)))
  | .mwholdt => if fld v 0 23 = 0 || 4194304 < fld v 0 23 then .error .fieldRange else ok (s.setCfg a (w64 (fld v 0 23)))
  | .resume => ok (s.resumeTask v)
  | .migcmd => ok (s.command a 63 (fieldMask [(0, 35)]) v .migcmdGo)
  | .ckctl =>
    ok (if v.getLsbD 63 && 1 < fld v 54 2 && !(s.cfgOf a).getLsbD 63 then s.mergeCfg a (fieldMask [(54, 2), (32, 16)]) v
      else s.command a 63 (fieldMask [(54, 2), (32, 16)]) v .ckctlGo)
  | .rwcmd => ok (s.command a 63 (fieldMask [(61, 2), (0, 18)]) v .rwcmdGo)
  | .kscmd =>
    let slot := fld v 0 10
    ok (if slot = 0 || !(s.lockers .ksctl slot (0x20000 + 8 * slot)).isEmpty then s
      else s.command a 63 (fieldMask [(62, 1), (0, 10)]) v (if v.getLsbD 62 then .keyErase else .keyLoad))
  | .pwin => ok (s.setCfg a v).rebindStalled
  | .kskey => ok { s with pkg := { s.pkg with secret := mset s.pkg.secret 0 a v } }
  | .sgkey => ok { s with pkg := { s.pkg with secret := mset s.pkg.secret 0 a v } }
  | .ksctl => ok (if n = 0 then s else s.mergeCfg a (fieldMask [(62, 1), (32, 11), (0, 6)]) v)
  | .lqworld =>
    let keep := s.lockedQueues
    ok (s.setCfg a ((s.cfgOf a &&& keep) ||| (v &&& ~~~keep)))
  | .sgctl =>
    let s1 := s.mergeCfg a (fieldMask [(6, 2), (0, 2)]) v
    ok (if v.getLsbD 2 && (s.sgStep n = 0 || s.sgStep n = 6) then s1.postFirst .sgctlGo { n := n, v := s1.cfgOf a } else s1)
  | .sgkt => ok (s.postFirst .keySwitchSchedule { n := n, v := v })
  | .lqcmd =>
    ok (s.lqcmdWrite n (match g with
      | .host f => f
      | .supervisor _ => 0) v)
  | .preq => ok (s.preqWrite (BitVec.ofNat 2 n) v)
  | .dhalt => ok (s.dhaltWrite (BitVec.ofNat 2 n) v (g == .supervisor true))
  | .tdm => ok (s.stage (BitVec.ofNat 2 n) a v)
  | .tdmctl => ok (s.stage (BitVec.ofNat 2 n) a (w64 (fld v 0 3)))
  | _ => ok (match r.stored with
    | some m => s.mergeCfg a m v
    | none => s)

/-- A configuration write (R13): a locked register is not written, and the function goes to ERROR unless the secure supervisor wrote
(R391); WORLD for the non-secure supervisor; a write that its agent may not make is ignored. -/
def State.cfgWrite (s : State) (a : Nat) (g : Agent) (v : Word64) : Except Cause State :=
  match cfgReg a with
  | none => if s.pkg.stopped then .error .containedStop else .ok s
  | some (r, n) =>
    if s.pkg.stopped && r != .pkgrst then .error .containedStop
    else
      let locked := s.lockers r n a
      let denied := (s.lockedQueues &&& (s.cfgOf a ^^^ v)) != 0 && r == .lqworld
      let holders := if denied then
          (List.range 16).filter (fun f => s.tdiLocked f && fld (s.cfgOf a ^^^ v) (4 * f) 4 != 0) else locked
      match g with
      | .supervisor true => if !locked.isEmpty then .ok s else s.writeReg r n a g v
      | .supervisor false =>
        if !holders.isEmpty then .ok (holders.foldl (fun s f => s.tdiError f) s)
        else if r == .pkgcfg && s.chipFixed then .ok s
        else if r.secureWrite then .error .world else s.writeReg r n a g v
      | .host _ =>
        if !holders.isEmpty then .ok (holders.foldl (fun s f => s.tdiError f) s)
        else if r.hostWrites then s.writeReg r n a g v else .ok s

end Sys2Proof.Machine
end

