-- ==== Sys2Proof/Machine/Patch.lean ====
section
/-! DEFINITION. Templates: tmpl.ld (R199) and the patch words with their go (R200, R201). -/
namespace Sys2Proof.Machine

/-- A template table: that of the load or the store sequencer, or the matrix table (R198). -/
inductive Table where
  | engine (side : Side)
  | matrix
deriving DecidableEq, Repr

/-- The key of a template slot. -/
def Table.key (t : Table) (slot : Nat) : Nat :=
  match t with
  | .engine side => tmplKey side slot
  | .matrix => 128 + slot

/-- A kind is assigned for a table (R198, R291, R307). -/
def Table.assigned (t : Table) (k : Nat) : Bool :=
  match t with
  | .engine side => Machine.assigned side k
  | .matrix => k == 1

/-- The number of fields of an image's kind in a table. -/
def Table.fields (t : Table) (img : BitVec 512) : Nat := fieldCount (opKind img) (t == .matrix)

/-- The place and the width of a field of an image's kind in a table (R198, R291, R308, R309). -/
def Table.place (t : Table) (img : BitVec 512) (f : Nat) : Nat × Nat :=
  match t with
  | .engine _ => fieldPlace (opKind img) f
  | .matrix => (32 * f, [8, 2, 4, 4, 7, 7, 16, 3].getD f 0)

/-- The sequencer that issues a table's patch words. -/
def Table.seq : Table → Seq
  | .engine side => sideSeq side
  | .matrix => .compute

/-- The issue checks of an image and its go (R200, R201): `word` is the TVALUE of its causes. -/
def State.go (s : State) (t : Table) (slot : Nat) (img : BitVec 512) (chained : Bool) (word : Word64) : Res :=
  match t with
  | .matrix =>
    match s.mmaFault img with
    | some c => .trap c word 0
    | none => s.mmaGo img slot chained
  | .engine side =>
    let k := opKind img
    if kindCopy k then s.goCopy side slot img chained word
    else if kindMap k then s.goMap side img chained word
    else s.goColl side slot img chained word

/-- Patch (R200) of a table: the fields of the word, its value `v`, and the word's TVALUE. -/
def State.patch (s : State) (t : Table) (slot f : Nat) (v : BitVec 16) (high queued go chained : Bool) (word : Word64) : Res :=
  let bad (c : Cause) : Res := .trap c word 0
  match mget s.eng.tmpl none (t.key slot) with
  | none => bad .templateEmpty
  | some img =>
    if t.fields img ≤ f then bad .fieldRange
    else
      let (lo, w) := t.place img f
      let old := fld img lo w
      let n : BitVec 1 := v.setWidth 1
      let peek := v.getLsbD 1
      let entries := s.valueQueue n
      let x : Option Nat :=
        if queued then entries.head?.map (fun e => if high then fld e 32 32 else fld e 0 32)
        else some (if high then old % 65536 + 65536 * v.toNat else old / 65536 * 65536 + v.toNat)
      match x with
      | none => if peek then .wait s else bad .queueUnderflow
      | some x =>
        if x / 2 ^ w != 0 then bad .fieldRange
        else if f = 0 && !t.assigned (x % 64) then bad .illegal
        else if f = 0 && x / 64 != 0 then bad .reservedBits
        else
          let img1 := put img lo w x
          let s1 := { s with eng := { s.eng with tmpl := mset s.eng.tmpl none (t.key slot) (some img1) } }
          let s2 := if queued && !peek then s1.setValueQueue n entries.tail else s1
          if !go then .ok s2
          else match s2.go t slot img1 chained word with
            | .wait t => .wait { t with q := s.q, eng := { t.eng with tmpl := s.eng.tmpl } }
            | r => r

/-- The patch word of the load or the store sequencer. -/
def execPatch (sl : BitVec 6) (f : BitVec 5) (v : BitVec 16) (h q g c : BitVec 1) (s : State) : Result :=
  let side : Side := if s.engineSeq = .store then .store else .load
  let word : BitVec 32 := 1#1 ++ sl ++ f ++ v ++ h ++ q ++ g ++ c
  finish s.engineSeq s ((s.patch (.engine side) sl.toNat f.toNat v (h == 1) (q == 1) (g == 1) (c == 1) (word.setWidth 64)).andOk
    (fun t => t.advance s.engineSeq))

/-- The patch word of the M slot. -/
def execPatchM (sl : BitVec 6) (f : BitVec 5) (v : BitVec 16) (h q g c : BitVec 1) (s : State) : Result :=
  let word : BitVec 32 := 1#1 ++ sl ++ f ++ v ++ h ++ q ++ g ++ c
  finish .compute s (s.patch .matrix sl.toNat f.toNat v (h == 1) (q == 1) (g == 1) (c == 1) (w64 (2 * 2 ^ 32 + word.toNat)))

/-- TmplLd (R199); the bytes of an image from another chip are free values past the word of the answer (log entry 3). -/
def execTmplLd (t : BitVec 2) (sl : BitVec 6) (a : BitVec 4) (o : BitVec 14) (s : State) : Result :=
  let va := s.aReg (a.setWidth 5) + (o.signExtend 72) * 64
  let table : Table := if t = 0 then .engine .load else if t = 1 then .engine .store else .matrix
  finish .control s (
    if va.toNat % 64 != 0 then .fail .misalign
    else s.loadVirtual va 64 (fun u v =>
      let img := BitVec.ofNat 512 v
      if !table.assigned (opKind img) then .fail .illegal
      else if fld img 6 2 != 0 then .fail .reservedBits
      else .ok ({ u with eng := { u.eng with tmpl := mset u.eng.tmpl none (table.key sl.toNat) (some img) } }.advance .control)))

end Sys2Proof.Machine
end

