-- ==== Sys2Proof/Machine/Csr.lean ====
section
/-! DEFINITION. CSRs (R223 to R225): what each reads and what a write does, with the writes that have a rule of their own (R64, R77,
R81, R108, R172), the clock (R226) and the locality query (R123, R227, R228). -/
namespace Sys2Proof.Machine

/-! Banks in use (R64, R172). -/

/-- Banks whose bytes an engine operation of the core reads or writes. -/
def EngOp.banks (o : EngOp) : List Nat :=
  if kindCopy (opKind o.img) then cpBanks o.img else if clTable o.img then [clSpaddr o.img / 65536] else []

/-- Banks whose bytes instructions, engine operations, matrix operations and output images in flight reference; an acc.ld or acc.st does
up to its done time (R64, R300). -/
def State.busyBanks (s : State) : List Nat :=
  s.eng.ops.flatMap EngOp.banks ++
  s.mat.ops.flatMap (fun o => ringBanks o.da ++ ringBanks o.db) ++
  s.vec.out.flatMap (fun (x : Nat × OutPort) => x.2.images.flatMap (fun i => (i.addrs.drop i.done).map (fun a => a / 65536))) ++
  ((s.mu.factor.filter (fun f => f.task == s.task.id && f.kind < 2)).map (fun f => f.block.toNat / 65536)) ++
  ((s.mat.banks.filter (fun x => s.clk.toNat < x.2)).map (fun x => x.1))

/-- Bank `n` is referenced by work in flight, for a write of its format (R64): an arrival that waits for such a write does not
count. -/
def State.formatBusy (s : State) (n : Nat) : Bool :=
  let arrivals := (s.wharf .core).transit.flatMap (fun t =>
    (t.binds.filter (fun b => b.waits != .format)).flatMap (fun b => s.reachedBanks (s.mapSlot .core b.slot) t.packet))
  (s.busyBanks ++ arrivals).any (fun b => (s.bankRefs b).contains n)

/-- The rows that a bound input port has still to read, and those of its index walk, lie in these banks. -/
def State.walkBanks (s : State) (p : InPort) : List Nat :=
  match p.bound with
  | none => []
  | some b =>
    let from_ := 16 * (p.popped + p.images.length - (if (p.images.getLast?.map (fun i => decide (i.rows < 16))).getD false then 1 else 0))
    ((List.range (b.walk.rows - from_)).flatMap (fun i =>
      (match s.rowAddr b (from_ + i) with
        | .ok x => [x / 65536]
        | .error _ => []) ++
      (if b.walk.ien then [wrapScr (b.index.rowBase ((from_ + i) / 64)) / 65536] else []))).eraseDups

/-- A bank of a range is touched by an operation of the task in flight, for a write of a double buffer (R172). -/
def State.rangeBusy (s : State) (lo hi : Nat) : Bool :=
  let arrivals := (s.wharf .core).transit.flatMap (fun t => t.binds.flatMap (fun b => s.mapBanks (s.mapSlot .core b.slot).map))
  let walks := s.vec.inp.flatMap (fun (x : Nat × InPort) => s.walkBanks x.2)
  ((s.busyBanks ++ arrivals ++ walks).flatMap s.bankRefs).any (fun b => lo ≤ b && b < hi)

/-! Writes with a rule of their own. -/

/-- A write of BANKFMTn (R61, R64): at once where nothing references the bank, else it waits, and the control sequencer with it. -/
def State.writeBankfmt (s : State) (n : Nat) (v : Word64) : Except Cause State :=
  let x := v &&& fieldMask [(16, 3), (10, 6), (8, 2), (0, 5)]
  if s.nbank ≤ n then .ok s
  else if !fmtKnown (fld x 0 5) || fld x 8 2 = 3 then .error .fieldRange
  else if s.formatBusy n then .ok ({ s with scr := { s.scr with fmtPend := s.scr.fmtPend ++ [(⟨n, x⟩ : FormatWrite)] } }.postOnce .bankfmtEffect)
  else .ok ((s.setCsr (0x40 + n) x).postOnce .packetBeat)

/-- Writes of bank formats take effect where nothing references their banks any more; what they held goes on (R64). -/
def State.bankfmtEffect (s : State) : State :=
  let s1 := s.scr.fmtPend.foldl (fun s w =>
    if s.formatBusy w.bank then s
    else { s.setCsr (0x40 + w.bank) w.value with scr := { s.scr with fmtPend := s.scr.fmtPend.filter (fun x => x != w) } }) s
  if s1.scr.fmtPend.length = s.scr.fmtPend.length then s
  else (List.range 8).foldl (fun s n => s.runAhead n) (s1.postOnce .packetBeat)

/-- A write of DBUFn (R172). -/
def State.writeDbuf (s : State) (n : Nat) (v : Word64) : Except Cause State :=
  let d := putBit (v &&& fieldMask [(10, 6), (7, 3), (0, 1)]) 16 ((s.dbuf n).getLsbD 16)
  let fb := dbufFb d
  let span := 2 ^ (dbufNbl d + 1)
  let meets (k : Nat) : Bool := k != n && dbufV (s.dbuf k) && fb < dbufFb (s.dbuf k) + 2 ^ (dbufNbl (s.dbuf k) + 1) &&
    dbufFb (s.dbuf k) < fb + span
  if dbufV d && (5 < dbufNbl d || fb % span != 0 || s.nbank < fb + span || (List.range 8).any meets || s.rangeBusy fb (fb + span)) then
    .error .fieldRange
  else .ok { s.setCsr (0x90 + n) d with eng := { s.eng with refetch := mset (mset s.eng.refetch ⟨true, []⟩ n ⟨false, []⟩) ⟨false, []⟩ (8 + n) ⟨false, []⟩ } }

/-- A write of BOEXPn arms a barrier object (R108). -/
def State.writeBoexp (s : State) (n : Nat) (v : Word64) : Except Cause State :=
  let x := v &&& fieldMask [(48, 6), (0, 48)]
  let t := fld x 48 6
  if s.tagPending t then .error .tagBusy
  else
    let s1 := (s.setCsr (0xA0 + n) x).tagIssue t
    if fld x 0 48 = 0 then .ok ((s1.setCsr (0xB0 + n) 0).tagDone t) else .ok (s1.setCsr (0xB0 + n) (putBit 0 63 true))

/-- A write of TAGS clears complete tags (R81), but for those completed in the cycle of the write, which counts as performed first (R82). -/
def State.writeTags (s : State) (v : Word64) : State := s.clearTags (v &&& ~~~s.cycle.tags)

/-! Reads. -/

/-- A read or a write in user mode raises PRIVILEGE (R13, R353). -/
def csrSupervisor (n : Nat) : Bool := n = 7 || n = 0x1D || n = 0x1E

/-- CLAIMSTAT (R149). -/
def State.claimstat (s : State) : Word64 :=
  put (put (put (0 : Word64) 22 11 (s.ownClaims .control).length) 11 11 (s.ownClaims .store).length) 0 11 (s.ownClaims .load).length

/-- SPCAP (R71). -/
def State.spcap (s : State) : Word64 := put (putBit (put (0 : Word64) 24 23 s.nbank) 7 (s.nbank == 64)) 0 7 s.nbank

/-- The value of a CSR other than CFGDATA. -/
def State.csrValue (s : State) (n : Nat) : Word64 :=
  if n = 7 then s.pkg.deleg
  else if n = 0xE then s.freezeStat
  else if n = 0xF then s.claimstat
  else if n = 0x10 then s.clk
  else if n = 0x11 then s.cfgOf 0x10
  else if n = 0x15 then s.spcap
  else if 0x80 ≤ n && n < 0x90 then s.ringRead (n - 0x80)
  else s.csrOf n

/-- CSRs as a cycle begins, with CLAIMSTAT and FRZSTAT as they read then (R225). -/
def State.startCsr (s : State) : SMap Word64 := mset (mset s.csr 0 0xF s.claimstat) 0 0xE s.freezeStat

/-- A CSR read, with its privilege and world checks: the value at the start of the cycle (R223, R225). -/
def State.csrRead (s : State) (n : Nat) : Except Cause Word64 :=
  if csrSupervisor n && !s.sup then .error .privilege
  else if n = 0x1E then s.cfgRead (s.csrOf 0x1D).toNat (.supervisor s.secure)
  else .ok (match s.cycle.csr with
    | none => s.csrValue n
    | some m => if n = 0xE || n = 0xF then mget m 0 n else { s with csr := m }.csrValue n)

/-! Writes. -/

/-- A register whose fields are all read-only (R88, R149, R160, R176, R182, R108). -/
def csrReadOnly (n : Nat) : Bool :=
  n = 8 || n = 0xC || n = 0xD || n = 0xE || n = 0xF || n = 0x10 || n = 0x11 || n = 0x15 || n = 0x1A || (0xB0 ≤ n && n < 0xC0)

/-- A register that user mode may not write. -/
def csrUserRo (n : Nat) : Bool :=
  n ≤ 7 || n = 9 || n = 0xA || n = 0xB || n = 0x13 || n = 0x1B || n = 0x1C || n = 0x1D || n = 0x1E || (0x80 ≤ n && n < 0x90)

/-- A CSR write (R223). -/
def State.csrWrite (s : State) (n : Nat) (v : Word64) : Except Cause State :=
  if (csrReadOnly n || csrUserRo n) && !s.sup then .error .privilege
  else if csrReadOnly n then .ok s
  else if n = 0 then
    let st := putBit (putBit s.status 0 (v.getLsbD 0)) 3 (v.getLsbD 3)
    .ok (s.setCsr 0 (if s.secure then putBit st 4 (v.getLsbD 4) else st))
  else if n = 7 then .ok (if s.secure then { s with pkg := { s.pkg with deleg := v &&& 0x0FFFFFFFFFF7FFFF } } else s)
  else if n = 0x16 then
    if fld v 0 23 = 0 || 4194304 < fld v 0 23 then .error .fieldRange else .ok (s.setCsr n (w64 (fld v 0 23)))
  else if n = 0x19 then .ok (s.writeTags v)
  else if n = 0x1E then s.cfgWrite (s.csrOf 0x1D).toNat (.supervisor s.secure) v
  else if 0x40 ≤ n && n < 0x80 then s.writeBankfmt (n - 0x40) v
  else if 0x80 ≤ n && n < 0x90 then s.writeRing (n - 0x80) v
  else if 0x90 ≤ n && n < 0x98 then s.writeDbuf (n - 0x90) v
  else if 0xA0 ≤ n && n < 0xB0 then s.writeBoexp (n - 0xA0) v
  else if 0xC0 ≤ n && n < 0xC8 && 17 < fld v 0 6 then .error .fieldRange
  else .ok (s.setCsr n (v &&& csrMask n))

/-! The instructions. -/

/-- An access to CFGDATA waits until every earlier access of the control sequencer has been performed (R225). -/
def State.csrOrdered (s : State) (n : Nat) (k : Res) : Res :=
  if n = 0x1E && !(s.ownRows.isEmpty && s.opsPerformed) then .wait s else k

/-- A CSR word that reads into `d`, where it has a destination, and writes `f` of the value read. -/
def State.csrWord (s : State) (d : Option (BitVec 5)) (n : Nat) (f : Option (Word64 → Word64)) : Res :=
  s.csrOrdered n (
    let old : Except Cause Word64 := if d.isSome then s.csrRead n else .ok 0
    match old with
    | .error c => .fail c
    | .ok x =>
      let written : Except Cause State := match f with
        | none => .ok s
        | some g => s.csrWrite n (g x)
      match written with
      | .error c => .fail c
      | .ok s1 =>
        let s2 := match d with
          | some r => s1.setG r x
          | none => s1
        .ok (s2.advance .control))

/-- csrr. -/
def execCsrr (d : BitVec 5) (c : BitVec 12) (s : State) : Result := finish .control s (s.csrWord (some d) c.toNat none)
/-- csrw. -/
def execCsrw (a : BitVec 5) (c : BitVec 12) (s : State) : Result :=
  finish .control s (s.csrWord none c.toNat (some (fun _ => s.gReg a)))
/-- csrs: TAGS, which clears by ones, takes gA itself (R223). -/
def execCsrs (d a : BitVec 5) (c : BitVec 12) (s : State) : Result :=
  finish .control s (s.csrWord (some d) c.toNat (some (fun x => if c = 0x19 then s.gReg a else x ||| s.gReg a)))
/-- csrc: TAGS takes 0 (R223). -/
def execCsrc (d a : BitVec 5) (c : BitVec 12) (s : State) : Result :=
  finish .control s (s.csrWord (some d) c.toNat (some (fun x => if c = 0x19 then 0 else x &&& ~~~(s.gReg a))))
/-- csrrw. -/
def execCsrrw (d a : BitVec 5) (c : BitVec 12) (s : State) : Result :=
  finish .control s (s.csrWord (some d) c.toNat (some (fun _ => s.gReg a)))

/-- rdclk (R226). -/
def execRdclk (d : BitVec 5) (s : State) : Result := finish .control s (.ok ((s.setG d s.clk).advance .control))
/-- clkadd (R226). -/
def execClkadd (d a : BitVec 5) (s : State) : Result :=
  finish .control s (.ok ((s.setG d (s.clk + s.gReg a)).advance .control))

/-! The locality query (R123). -/

/-- The value of a failed query: VALID 0 and the cause. What TARGET and VER hold then R123 and R228 leave open: every other field is 0, even
where a leaf was reached, by the model's choice (log entry 78). -/
def localityFault (c : Cause) : Word64 := put (0 : Word64) 18 6 c.code.toNat

/-- The value for a leaf and a physical address; a span that is not placed fails (R44). Where TARGET is not local R123 gives DIE and SLICE alone
as 0: HOPS is 0 too, VER is the current version, and no placement is checked; and a peer leaf that names the own chip, which R25 treats as
local, is reported as the peer leaf that it is. Both are the model's choice (log entry 78). -/
def State.locality (s : State) (leaf : BitVec 128) (pa : Nat) : Word64 :=
  let v : Word64 := putBit (putBit (put (0 : Word64) 16 2 (leafTarget leaf)) 7 s.ilvCur) 0 true
  if leafTarget leaf != 0 then v
  else if (s.cellOf s.ilvCur pa).isNone then localityFault .notMapped
  else
    let d := s.homeDie s.ilvCur pa
    put (put (put v 14 2 d.toNat) 10 4 (homeSlice pa)) 8 2 (hops s.die d)

/-- locq: the checks of R24 as for a read. -/
def execLocq (d a : BitVec 5) (s : State) : Result :=
  finish .control s (
    let va := s.aReg a
    match s.leafFor s.asid va .read s.sup s.secure with
    | .error (c, _) => .ok (((s.failedMiss .control c va).setG d (localityFault c)).advance .control)
    | .ok (s1, t) => .ok ((s1.setG d (s1.locality t.leaf (leafAddress t.leaf t.level va))).advance .control))

/-- locq.t: the checks of R38 without the pin, and of the tile's leaf. -/
def execLocqT (d a : BitVec 5) (s : State) : Result :=
  finish .control s (
    let h : Word32 := (s.gReg a).setWidth 32
    let x := s.gReg (a + 1)
    let y := s.gReg (a + 2)
    let c : Coord := (fld x 0 24, fld x 24 24, fld y 0 24, fld y 24 24)
    let answer (s : State) (v : Word64) : Res := .ok ((s.setG d v).advance .control)
    match s.tensorEntry s.die s.asid h with
    | .error f => answer s (localityFault f.cause)
    | .ok e => match boundsFault e.entry c with
      | some f => answer s (localityFault f.cause)
      | none =>
        let (tile, bit) := locate e.entry (fmtWidth (teFmt e.entry)) c
        match (s.cacheEntry s.die s.asid e).tileEntry ⟨s.asid, s.secure, s.die, e, none⟩ e tile .read with
        | .error f => answer s (localityFault f.cause)
        | .ok (s1, l) => answer s1 (s1.locality l (leafFrame l * 2 ^ 17 + swz (fld e.entry 9 3) (bit / 8))))

/-! The events of writes. -/

/-- A write performed for the control sequencer: its effect, or its cause. -/
def written (s : State) (r : Except Cause State) : Result :=
  finish .control s (match r with
    | .error c => .fail c
    | .ok t => .ok t)

def execBankfmtWrite (s : State) : Result := written s (s.writeBankfmt (s.input.n % 64) s.input.v)
def execBankfmtEffect (s : State) : Result := occur s.bankfmtEffect
def execRingdescWrite (s : State) : Result :=
  written s (if s.sup then s.writeRing (s.input.n % 16) s.input.v else .error .privilege)
def execDbufWrite (s : State) : Result := written s (s.writeDbuf (s.input.n % 8) s.input.v)
def execBoexpWrite (s : State) : Result := written s (s.writeBoexp (s.input.n % 16) s.input.v)
def execTagsWrite (s : State) : Result := written s (.ok (s.writeTags s.input.v))
/-- A write of a CSR without a behaviour of its own (R10). -/
def execRegisterWrite (s : State) : Result := written s (s.csrWrite (s.input.n % 4096) s.input.v)

/-- The configuration read of CFGDATA, into the register of the word (R13). -/
def execCfgdataRead (s : State) : Result :=
  finish .control s (match s.csrRead 0x1E with
    | .error c => .fail c
    | .ok v => .ok (s.setG (BitVec.ofNat 5 s.input.n) v))
/-- The configuration write of CFGDATA (R13). -/
def execCfgdataWrite (s : State) : Result := written s (s.csrWrite 0x1E s.input.v)

end Sys2Proof.Machine
end

