-- ==== Sys2Proof/Machine/Hub.lean ====
section
/-! DEFINITION. The hub: the interleave table and the time-division tables (R113, R119, R120), personalities of SerDes groups
(R369 to R378), the peer landing window (R379), page migration (R380 to R382), link keys (R383) and checkpoints (R384). -/
namespace Sys2Proof.Machine

/-! The interleave table. -/

/-- FLIP makes the other version current; `n` requests of outside agents are bound to the old one (R119, R120). -/
def execIlvFlip (s : State) : Result := occur (s.flip s.input.n)

/-- Requests of outside agents to the old version are performed; BUSY falls once those of the core are too (R120). -/
def execIlvDrained (s : State) : Result :=
  occur (
    let s1 := { s with pkg := { s.pkg with oldRequests := 0 } }
    if s1.oldOwn = 0 then s1.setCfg 0x38 (putBit (s1.cfgOf 0x38) 2 false) else s1)

/-- The staged table of a die takes effect now: at a boundary of its rings' revolutions of 96 cycles whose number is a multiple of the
new ROUNDS, at least 8 cycles after the last write (R109, R113). -/
def State.tableDue (s : State) (d : BitVec 2) : Bool :=
  let rounds := fld ((mget s.pkg.staged none (dieCfg d 0)).getD (s.cfgOf (dieCfg d 0))) 0 3 + 1
  !(s.stagedOf d).isEmpty && s.pkg.cycles % 96 == 0 && s.pkg.cycles / 96 % rounds == 0 && mget s.pkg.stagedAt 0 d.toNat + 8 ≤ s.pkg.cycles

/-- The staged registers of a die take effect together. -/
def State.switchTable (s : State) (d : BitVec 2) : State :=
  let l := s.stagedOf d
  let s1 := l.foldl (fun (s : State) (x : Nat × Option Word64) => match x.2 with
    | some v => s.setCfg x.1 v
    | none => s) s
  { s1 with pkg := { s1.pkg with staged := s1.pkg.staged.filter (fun x => !l.contains x) } }

/-- A cycle of the rings passes: staged tables that are due take effect. -/
def State.revolve (s : State) : State :=
  let s1 := { s with pkg := { s.pkg with cycles := s.pkg.cycles + 1 } }
  if s1.pkg.staged.isEmpty then s1
  else [0, 1, 2, 3].foldl (fun (s : State) n => let d := BitVec.ofNat 2 n; if s.tableDue d then s.switchTable d else s) s1

/-- The staged time-division table of a die takes effect at its revolution boundary (R113). -/
def execTdmSwitch (s : State) : Result :=
  occur (if s.tableDue s.input.die then s.switchTable s.input.die else s)

/-! Refusals of requests on the fabric. -/

/-- A request to a peer or to pool memory is refused (R374, R378): a word precisely, a store by R26, an engine operation by R313, a factor
operation in its result, an element of a landing at its map, and what the hardware asked for as its home would have done. -/
def State.refuseFabric (s : State) (f : FabricReq) (c : Cause) : State :=
  let s1 := s.settle f
  match f.what with
  | .store n => (match s1.mu.storeQ.find? (fun (r : StoreRow) => r.id == n && r.place != StoreAt.queued) with
      | none => s1
      | some r => (s1.removeRow r).refuseStore r c none).kick
  | .factor n =>
    (s1.setFactor (s1.mu.factor.map (fun o => if o.id = n then { o with result := some (0, c.code) } else o))).releaseClosed.post
      .factorResult
  | .packet n => s1.packetAnswered n 0 false (some c)
  | .element land => s1.elementAnswered land (some c)
  | .image => s1.imageAnswered f.id [] (some c)
  | _ => s1.returned f.id 0 0 (some c)

/-- The requests that stand in a list and have no answer yet are refused, one after another. -/
def State.refuseAll (s : State) (l : List FabricReq) (c : Cause) : State :=
  l.foldl (fun s f => match s.request f.id with
    | none => s
    | some g => s.refuseFabric g c) s

/-- A pool access that has stalled 400,000 ticks with no window is refused with WINDOW_CLOSED (R374). -/
def execWindowStallTimeout (s : State) : Result :=
  occur (
    let s1 := s.rebindStalled
    match s1.pkg.fabric.find? (fun f => f.pool && f.group.isNone && f.sent + 400000 ≤ s1.clk.toNat) with
    | none => s1
    | some f => s1.refuseFabric f .windowClosed)

/-- A request has had its FABTO ticks on the fabric; one that waits at the hub for an open pool window has not been sent (R374, R378). -/
def State.fabricDue (s : State) (f : FabricReq) : Bool :=
  (f.group.isSome || !f.pool) && f.sent + fld (s.cfgOf 0x78) 0 32 ≤ s.clk.toNat

/-- A request without an answer after FABTO ticks is refused with FABRIC_TIMEOUT (R378). -/
def execFabricTimeout (s : State) : Result :=
  occur (match s.pkg.fabric.find? s.fabricDue with
    | none => s
    | some f => s.refuseFabric f .fabricTimeout)

/-! Personalities. -/

def State.setSgstat (s : State) (n : Nat) (v : Word64) : State := s.setCfg (sgBase n + 8) v
/-- A group goes to a step (R371). -/
def State.setStep (s : State) (n k : Nat) : State := s.setSgstat n (put (s.sgstat n) 33 3 k)
/-- A group goes down: no lane carries traffic. -/
def State.groupDown (s : State) (n : Nat) : State := (s.setSgstat n (put (s.sgstat n) 40 8 0)).setStep n 0

/-- The IEEE 1588 port: the lowest group that is up as Ultra Ethernet (R375). -/
def State.setPort (s : State) : State :=
  let g := ((List.range 16).find? (fun n => s.sgStep n == 6 && s.sgCur n == 3)).getD 0xFF
  s.setCfg 0x10 (put (s.cfgOf 0x10) 48 8 g)

/-- GO of SGCTL, whose fields are `v`: quiesce ends at once, and the group drains (R370, R373). -/
def execSgctlGo (s : State) : Result :=
  occur (
    let n := s.input.n % 16
    if s.sgStep n != 0 && s.sgStep n != 6 then s
    else
      let s1 := (s.setSgstat n (put (s.sgstat n) 48 16 0)).setStep n 2
      let g := s1.serdes n
      ((s1.setSerdes n { g with ctl := s.input.v, drainEnd := some (s1.clk.toNat + 400000), lanes := 0xFF, replays := [] }).post
        .groupDrainEnd { n := n }))

/-- A group leaves GROUPS of every pool window (R373). -/
def State.leaveWindows (s : State) (n : Nat) : State :=
  (List.range 16).foldl (fun (s : State) k => s.setCfg (0x180 + 8 * k) (putBit (s.cfgOf (0x180 + 8 * k)) (48 + n) false)) s

/-- A drain may end: nothing is bound to the group, or its time has passed (R373). -/
def State.drainDue (s : State) (n : Nat) : Bool :=
  s.sgStep n == 2 && ((s.boundTo n).isEmpty || match (s.serdes n).drainEnd with
    | some t => decide (t ≤ s.clk.toNat)
    | none => false)

/-- The drain ends: what is still bound is refused, the group leaves the windows and the port, and it trains, or stays down where PERS
is off (R373). -/
def execGroupDrainEnd (s : State) : Result :=
  occur (
    let n := s.input.n % 16
    if !s.drainDue n then s
    else
      let s1 := s.refuseAll (s.boundTo n) .fabricTimeout
      let g := s1.serdes n
      let pers := fld g.ctl 0 2
      let s2 := ((s1.setSerdes n { g with drainEnd := none }).leaveWindows n).setPort
      let s3 := s2.setSgstat n (put (put (putBit (s2.sgstat n) 32 (g.ctl.getLsbD 6)) 30 2 pers) 40 8 0)
      if pers = 0 then (s3.setSgstat n (putBit (s3.sgstat n) 32 false)).groupDown n else s3.setStep n 4)

/-- The lanes that a training at half rate leaves, where `old` carried traffic before and `bad` names the lanes that fail: all while none
fails; else a half without a failed lane, the one in use before any other (R372). -/
def halfLanes (old bad : Nat) : Nat :=
  let free (m : Nat) : Bool := bad &&& m == 0
  if free 0xFF then old
  else if old != 0xFF && free old then old
  else if free 0x0F then 0x0F
  else if free 0xF0 then 0xF0
  else 0

/-- Training ends: `v` and `w` name the lanes that failed at full and at half rate (R372). -/
def execGroupRetrainEnd (s : State) : Result :=
  occur (
    let n := s.input.n % 16
    if s.sgStep n != 4 then s
    else
      let g := s.serdes n
      let half := (s.sgstat n).getLsbD 32 || fld s.input.v 0 8 != 0
      let lanes := if half then halfLanes g.lanes (fld s.input.w 0 8) else g.lanes
      let s1 := (s.setSerdes n { g with lanes := lanes }).setSgstat n (put (putBit (s.sgstat n) 32 half) 40 8 lanes)
      if lanes = 0 then s1.groupDown n else s1.setStep n 5)

/-- SGKEY of a group as written (R383). -/
def State.nextKey (s : State) (n : Nat) : BitVec 256 :=
  (List.range 4).foldl (fun (k : BitVec 256) i => put k (64 * i) 64 (mget s.pkg.secret 0 (sgBase n + 32 + 8 * i)).toNat) 0

/-- Link keys are in force and the group is up, or their setting failed and it is down (R373). -/
def execGroupRekeyEnd (s : State) : Result :=
  occur (
    let n := s.input.n % 16
    if s.sgStep n != 5 then s
    else if s.input.flag then s.groupDown n
    else ((s.setSerdes n { s.serdes n with key := s.nextKey n }).setStep n 6).setPort.rebindStalled)

/-- A group that is up replays `v` times: REPLAY counts them, and where they are more than 1,024 within 4,000,000 ticks the group retrains
at half rate (R371, R372). -/
def execGroupRateFall (s : State) : Result :=
  occur (
    let n := s.input.n % 16
    if s.sgStep n != 6 then s
    else
      let g := s.serdes n
      let recent := (s.clk.toNat, s.input.v.toNat) :: g.replays.filter (fun x => s.clk.toNat < x.1 + 4000000)
      let t := put (s.sgstat n) 48 16 (min (fld (s.sgstat n) 48 16 + s.input.v.toNat) 65535)
      let s1 := (s.setSerdes n { g with replays := recent }).setSgstat n t
      if (recent.map (fun x => x.2)).sum ≤ 1024 then s1
      else (((s1.setSerdes n { g with replays := [] }).setSgstat n (put (putBit t 32 true) 40 8 0)).setStep n 4).setPort)

/-! Link keys (R383). -/

/-- A of a group. -/
def State.keyWindow (s : State) (n : Nat) : Nat := 160 + fld (s.cfgOf (sgBase n + 16)) 0 16
/-- PEND of SGKCTL. -/
def State.keyPend (s : State) (n : Nat) : Bool := (s.cfgOf (sgBase n + 16)).getLsbD 63
/-- The time of the scheduled switch. -/
def State.keyTime (s : State) (n : Nat) : Nat := (s.cfgOf (sgBase n + 24)).toNat
/-- KPH of a group. -/
def State.keyPhase (s : State) (n : Nat) : Bool := (s.sgstat n).getLsbD 29

/-- A write of SGKT schedules a switch; it is ignored while one is scheduled, or where it is too near. -/
def execKeySwitchSchedule (s : State) : Result :=
  occur (
    let n := s.input.n % 16
    if s.keyPend n || s.input.v.toNat < s.clk.toNat + 2 * s.keyWindow n then s
    else (s.setCfg (sgBase n + 24) s.input.v).setCfg (sgBase n + 16) (putBit (s.cfgOf (sgBase n + 16)) 63 true))

/-- Transmitted flits may take the new phase. -/
def State.phaseDue (s : State) (n : Nat) : Bool :=
  s.keyPend n && (s.serdes n).txPhase == s.keyPhase n && s.keyTime n ≤ s.clk.toNat

/-- From the scheduled time on, transmitted flits take the new key phase; a CXL group then accepts both key sets. -/
def execKeyPhaseSwitch (s : State) : Result :=
  occur (
    let n := s.input.n % 16
    if !s.phaseDue n then s
    else
      let g := s.serdes n
      let cxl := s.sgCur n == 1
      s.setSerdes n { g with txPhase := !g.txPhase, oldSet := cxl, key := if cxl then s.nextKey n else g.key })

/-- The switch is complete: KPH flips and PEND clears. -/
def State.keyDone (s : State) (n : Nat) : State :=
  (s.setSgstat n (putBit (s.sgstat n) 29 (!s.keyPhase n))).setCfg (sgBase n + 16) (putBit (s.cfgOf (sgBase n + 16)) 63 false)

/-- The receiver of a group that is not CXL may erase the old key. -/
def State.eraseDue (s : State) (n : Nat) : Bool :=
  s.keyPend n && (s.serdes n).txPhase != s.keyPhase n && s.sgCur n != 1 && s.keyTime n + s.keyWindow n ≤ s.clk.toNat

/-- A ticks after the switch the receiver erases the old key. -/
def execOldKeyErase (s : State) : Result :=
  occur (
    let n := s.input.n % 16
    if !s.eraseDue n then s else (s.setSerdes n { s.serdes n with key := s.nextKey n }).keyDone n)

/-- The first flit under a CXL group's new key set ends the acceptance of the old one. -/
def execFirstFlitUnderNewSet (s : State) : Result :=
  occur (
    let n := s.input.n % 16
    if !(s.serdes n).oldSet then s else (s.setSerdes n { s.serdes n with oldSet := false }).keyDone n)

/-! The peer landing window (R379). -/

/-- A packet of another chip is refused, discarded with a record, or handed to the wharf that DST names: die `die`, its memory
wharf where `flag` is set, else the wharf of core `n`; a stopped package refuses it (R365). -/
def execPeerWindowPacket (s : State) : Result :=
  occur (match s.input.packet with
    | none => s
    | some p => match s.throughWindow p s.input.die with
      | (s1, false) => s1
      | (s1, true) => s1.deliver { p with skind := 2 } s.chip s.input.die s.input.flag (BitVec.ofNat 6 s.input.n))

/-! Page migration (R380 to R382). -/

/-- A 64-byte granule as its home holds it: its bytes and its metadata. -/
def State.granuleAt (s : State) (c : Nat) : Nat × Granule :=
  let g := s.granule c
  (if g.owner.isNone then 0 else getBytes s.cell c 64, g)

/-- A granule written whole with its metadata. -/
def State.putGranule (s : State) (c v : Nat) (g : Granule) : State :=
  { s with mem := { s.mem with bytes := putBytes s.mem.bytes c 64 v } }.setGranule c g

/-- The owner of a granule still holds its key: the migration engine can decrypt it (R396). -/
def State.keyHeld (s : State) (g : Granule) : Bool :=
  match g.owner with
  | none => true
  | some (k, e) => (s.ksctl k.toNat).getLsbD 63 && fld (s.ksctl k.toNat) 56 6 == e.toNat

/-- Granule `i` of a frame of the old leaf, as the new home takes it under the new key: its bytes and its poison; of an outside frame from
the answer of its hub, and free bytes where the owner's key is gone (R382, R396, log entry 50). -/
def State.granuleFrom (s : State) (e : BitVec 128) (image : List (Nat × Bool)) (i : Nat) : Nat × Bool × State :=
  if s.target e = 0 then match s.cellOf s.ilvCur (leafFrame e * 2 ^ 17 + 64 * i) with
    | some c =>
      let (v, g) := s.granuleAt c
      if s.keyHeld g then (v, g.poison, s)
      else
        let (x, s1) := s.drawBytes 64
        (x, g.poison, s1)
    | none => (0, false, s)
  else
    let (v, p) := image.getD i (0, false)
    (v, p, s)

/-- Each granule of the old frame is copied to the new one, in ascending order, with its poison mark; its owner there is MIGDST.KEY with the
slot's present epoch (R382, R396). -/
def State.copyFrame (s : State) (e new : BitVec 128) (image : List (Nat × Bool)) : State :=
  let dst := leafFrame new * 2 ^ 17
  let owner := some (s.slotEpoch (leafKey new))
  if s.target new = 0 then
    (List.range 2048).foldl (fun (s : State) i =>
      let (v, p, s1) := s.granuleFrom e image i
      match s1.cellOf s1.ilvCur (dst + 64 * i) with
      | none => s1
      | some c => s1.putGranule c v ⟨p, owner⟩) s
  else
    let (l, s1) := (List.range 2048).foldl (fun (l, s) i =>
      let (v, p, s1) := State.granuleFrom s e image i
      (l ++ [(v, (⟨p, owner⟩ : Granule))], s1)) (([] : List (Nat × Granule)), s)
    let b : Bound := ⟨0, 0, leafWorld new, new, dst, s.ilvCur⟩
    (s1.sendBound b .image).emit (.image (leafTarget new + 1) (leafChip new).toNat dst l)

/-- Two leaves name one frame. -/
def sameFrame (a b : BitVec 128) : Bool := leafFrame a == leafFrame b && leafTarget a == leafTarget b && leafChip a == leafChip b

/-- Accesses bound to the old leaf go to the new home (R382). -/
def Bound.moved (b : Bound) (e new : BitVec 128) : Bound :=
  if sameFrame b.leaf e then { b with leaf := new, pa := leafFrame new * 2 ^ 17 + b.pa % 2 ^ 17 } else b

/-- What becomes of a store bound to the old leaf: from a home in the package to one outside it leaves the store queue again; one that an
outside home had taken is performed there or forwarded from there, and where the new home lies in the package it is performed here. -/
def State.movedRow (s : State) (e new : BitVec 128) (r : StoreRow) : StoreRow :=
  if !sameFrame r.bound.leaf e then r
  else
    let place := if s.target e = 0 && s.target new != 0 then StoreAt.queued
      else if s.target e != 0 && s.target new = 0 && r.place == .timedBuffer then .sent else r.place
    { r with bound := r.bound.moved e new, place := place }

/-- A not-before load that waits at the old home goes on to the new one, as a new request where that lies outside the package. -/
def State.movedNotBefore (s : State) (e new : BitVec 128) : State :=
  match s.mu.notBefore with
  | none => s
  | some (b, n, t, id) =>
    let b1 := b.moved e new
    if !sameFrame b.leaf e || s.target new = 0 then { s with mu := { s.mu with notBefore := some (b1, n, t, id) } }
    else
      let s1 := (s.sendBound b1 .word).emit (.notBefore b1 n t)
      let remote := match s.mu.remote with
        | .waiting pc k => Remote.waiting pc (if k = id then s1.pkg.requests else k)
        | r => r
      { s1 with mu := { s1.mu with notBefore := none, remote := remote } }

/-- DropLeaves, package-wide, and the forwarding of every access of the core that is bound to the old leaf (R381, R382): the translation
caches and the layout units lose the leaves that name the old frame. -/
def State.forwardFrame (s : State) (e new : BitVec 128) : State :=
  let home (t : State) : State := if s.target e != 0 && s.target new = 0 then
      (s.mu.storeQ.filter (fun r => r.place != .queued && sameFrame r.bound.leaf e)).foldl (fun t r => t.answered (.store r.id)) t else t
  let mu := { s.mu with
    tlb := s.mu.tlb.filter (fun t => !sameFrame t.leaf e)
    storeQ := s.mu.storeQ.map (s.movedRow e new)
    factor := s.mu.factor.map (fun f => { f with bound := f.bound.moved e new }) }
  let layout := s.layout.map (fun (n, u) => (n, { u with leaves := u.leaves.filter (fun l => !sameFrame l.leaf e) }))
  (home (({ s with mu := mu, layout := layout }).movedNotBefore e new)).kick.post .storeQueueDepart

/-- The leaf that a move writes, for a move in the count `n` from the stamp `st` (R381). -/
def movedLeaf (e : BitVec 128) (dst : Word64) (n st : Nat) : BitVec 128 :=
  let new := put (put (put (put e 64 43 (fld dst 0 40)) 16 2 (fld dst 40 2)) 18 10 (fld dst 42 10)) 28 10 (fld dst 52 10)
  put (put new 13 3 n) 38 24 st

/-- A request for the granules of a frame goes to the hub of its peer chip, or to pool memory (R382). -/
def State.askFrame (s : State) (cmd : Word64) (e : BitVec 128) : State :=
  let b : Bound := ⟨0, 0, leafWorld e, e, leafFrame e * 2 ^ 17, s.ilvCur⟩
  let s1 := (s.sendBound b .image).emit (.access false b 131072 0)
  { s1 with pkg := { s1.pkg with moveAsks := some (cmd, s1.pkg.requests, e), running := mset s1.pkg.running 0 0x90 (s.cfgOf 0x90) } }

/-- Move of R381, up to the change of the leaf; `flag` says that another agent changed the leaf meanwhile, and `flag2` that the granules of an
outside frame have come, in `image`. A CasLeaf that fails comes after the copy. -/
def execMigcmdGo (s : State) : Result :=
  occur (
    let asked := if s.input.flag2 then s.pkg.moveAsks else none
    let cmd := (asked.map (fun x => x.1)).getD s.input.v
    let pa := fld cmd 0 35 * 16
    let dst := if asked.isSome then s.running 0x90 else s.cfgOf 0x90
    let s := { s with pkg := { s.pkg with moveAsks := none } }
    match s.readTable pa 16 with
    | .error c => s.moveEnds 3 (some c)
    | .ok v =>
      let e := (asked.map (fun x => x.2.2)).getD (BitVec.ofNat 128 v)
      let now := fld s.clk 24 24
      let old := fld e 13 3 = 0 || 3 ≤ (now + 2 ^ 24 - fld e 38 24) % 2 ^ 24
      let n := if old then 0 else fld e 13 3
      let new := movedLeaf e dst (n + 1) (if old then now else fld e 38 24)
      let placed (l : BitVec 128) : Bool := s.target l != 0 || (s.cellOf s.ilvCur (leafFrame l * 2 ^ 17)).isSome
      let lost := s.input.flag || v != e.toNat
      if !e.getLsbD 0 || !e.getLsbD 1 || !e.getLsbD 2 then s.moveEnds 3 (some .notMapped)
      else if fld dst 40 2 = 2 || leafChk e || leafSeal e then s.moveEnds 3 (some .fieldRange)
      else if e.getLsbD 10 then s.moveEnds 2 none
      else if n = 4 then (if lost then s.moveEnds 4 none else (s.writeTable pa 16 (putBit e 10 true).toNat).moveEnds 1 none)
      else if !placed e || !placed new then s.moveEnds 3 (some .notMapped)
      else if s.target e != 0 && asked.isNone then s.askFrame cmd e
      else
        let s0 := s.copyFrame e new s.input.image
        if lost then s0.moveEnds 4 none
        else
          let s1 := (s0.writeTable pa 16 new.toNat).forwardFrame e new
          { s1 with pkg := { s1.pkg with moving := some new } }.post .migrationRetire)

/-- Accesses that were bound to the old frame of a move and are not yet performed. -/
def State.moveBusy (s : State) (new : BitVec 128) : Bool :=
  s.mu.storeQ.any (fun r => sameFrame r.bound.leaf new) || s.mu.factor.any (fun f => f.result.isNone && sameFrame f.bound.leaf new) ||
    s.mu.notBefore.any (fun (b, _) => sameFrame b.leaf new) || s.pkg.fabric.any (fun f => f.what == .image)

/-- A move ends once every access that was bound to the old frame has been performed (R382). -/
def execMigrationRetire (s : State) : Result :=
  occur (match s.pkg.moving with
    | none => s
    | some new => if s.moveBusy new then s else ({ s with pkg := { s.pkg with moving := none } }).moveEnds 0 none)

/-! Checkpoints (R384). -/

/-- The groups of GROUPS that are up in the personality of MODE, as the GO took them. -/
def State.checkpointGroups (s : State) : List Nat :=
  let c := s.running 0x98
  (s.upGroups (if fld c 54 2 = 0 then 1 else 3) true).filter (fun g => c.getLsbD (32 + g))

/-- The regions that the bitmap at CKMAP marks, in ascending order. -/
def State.markedRegions (s : State) : List Nat :=
  let base := fld (s.cfgOf 0xA0) 15 45 * 2 ^ 15
  (List.range 262144).filter (fun r => match s.readTable (base + r / 8) 1 with
    | .ok v => v / 2 ^ (r % 8) % 2 == 1
    | .error _ => false)

/-- The poison bitmap of a region that follows its data over Ultra Ethernet: 4 KiB, as granules of 64 bytes with bit i for the region's
granule i. -/
def poisonBitmap (l : List (Nat × Granule)) : List (Nat × Granule) :=
  (List.range 64).map (fun k => (((l.drop (512 * k)).take 512).foldr (fun g v => g.2.poison.toNat + 2 * v) 0, ⟨false, none⟩))

/-- The granules of a region of 2 MiB as its home holds them. -/
def State.regionImage (s : State) (r : Nat) : List (Nat × Granule) :=
  (List.range 32768).map (fun i => match s.cellOf s.ilvCur (r * 2 ^ 21 + 64 * i) with
    | some c => s.granuleAt c
    | none => (0, .empty))

/-- The write of the k-th marked region leaves on one of the checkpoint's groups (R371, R384). -/
def State.sendRegion (s : State) (mode dst size r k : Nat) : State :=
  let gs := s.checkpointGroups
  let s1 := s.number
  let f : FabricReq := { what := .image, pool := mode == 0, chip := 0, pa := dst * 2 ^ 21 + size * k, secure := true
                         group := gs[k % gs.length]?, sent := s.clk.toNat, id := s1.pkg.requests }
  let l := s.regionImage r
  (s1.setFabric (s.pkg.fabric ++ [f])).emit (.image mode dst (size * k) (if mode = 1 then l ++ poisonBitmap l else l))

/-- The marked regions are read and written to the image, the k-th at its place (R384). -/
def execCkctlGo (s : State) : Result :=
  occur (
    let mode := fld (s.running 0x98) 54 2
    let dst := fld (s.cfgOf 0xA8) 0 (if mode = 0 then 32 else 16)
    let size := if mode = 0 then 2097152 else 2101248
    let s1 := if s.checkpointGroups.isEmpty then s
      else s.markedRegions.zipIdx.foldl (fun (s : State) (r, k) => s.sendRegion mode dst size r k) s
    { s1 with pkg := { s1.pkg with ckRefused := none } }.post .checkpointEnd)

/-- The checkpoint ends once its writes are answered, short where no group carries it any more or where a write of it was refused, with that
cause (R384). -/
def execCheckpointEnd (s : State) : Result :=
  occur (
    let short := if s.checkpointGroups.isEmpty then some Cause.windowClosed else s.pkg.ckRefused
    if !s.checkpointGroups.isEmpty && s.pkg.fabric.any (fun f => f.what == .image) then s.post .checkpointEnd
    else
      let r := putBit (putBit (s.cfgOf 0x98) 63 false) 62 short.isSome
      s.setCfg 0x98 (put r 56 6 ((short.map (fun c => c.code.toNat)).getD 0)))

end Sys2Proof.Machine
end

