-- ==== Sys2Proof/Machine/Security.lean ====
section
/-! DEFINITION. The host port and its assignment (R388 to R392), worlds of regions (R393), key slots (R394), measurement (R399), and
the causes outside the cores that stop the package (R365). -/
namespace Sys2Proof.Machine

/-! Worlds of regions (R393). -/

/-- An access that its home has admitted and not performed: an accepted factor operation, or a store in a timed buffer or a not-before
load that waits for its time alone. One that waits behind an access that the home does not admit is admitted after it. -/
def State.admitted (s : State) (f : Bound → Bool) : Bool :=
  let here (b : Bound) : Bool := s.target b.leaf == 0 && f b
  let free (task id : Nat) (b : Bound) : Bool := !s.pendingBefore task id (s.granuleOf b)
  s.mu.storeQ.any (fun r => r.place == .timedBuffer && here r.bound && free r.task r.id r.bound) ||
    s.mu.factor.any (fun o => o.result.isNone && here o.bound) ||
    s.mu.notBefore.any (fun (b, _, _) => here b && free s.task.id s.mu.nextId b)

/-- The change of RWCMD may be made: its region has no admitted access. -/
def State.regionDue (s : State) : Bool :=
  (s.cfgOf 0xB0).getLsbD 63 && !s.admitted (fun b => b.pa / 2 ^ 21 == s.changingRegion)

/-- Every granule of a region is zero, without poison and without owner. -/
def State.scrubRegion (s : State) (n : Nat) : State :=
  match s.cellOf s.ilvCur (n * 2 ^ 21) with
  | none => s
  | some c =>
    let out (x k : Nat) : Bool := x * k / 2 ^ 21 != c / 2 ^ 21
    { s with mem := { s.mem with bytes := s.mem.bytes.filter (fun x => out x.1 1), gran := s.mem.gran.filter (fun x => out x.1 64) } }

/-- The world of a region changes, with its scrub, and the command ends. -/
def State.applyRegion (s : State) : State :=
  let r := s.running 0xB0
  let w := r.getLsbD 62
  let n := s.changingRegion
  let s1 := if !w || r.getLsbD 61 then s.scrubRegion n else s
  (({ s1 with pkg := { s1.pkg with regions := mset s1.pkg.regions true n w } }).setCfg 0xB0 (putBit (s.cfgOf 0xB0) 63 false)).kickWharves

/-- GO of RWCMD: admission to the region stops, and the change waits for what is admitted. -/
def execRwcmdGo (s : State) : Result := occur (s.post .regionWorldApply)

def execRegionWorldApply (s : State) : Result := occur (if s.regionDue then s.applyRegion else s)

/-! Key slots (R394). -/

/-- The load or erase of KSCMD may be made: no access admitted with its slot is unperformed. -/
def State.slotDue (s : State) : Bool :=
  (s.cfgOf 0xB8).getLsbD 63 && !s.admitted (fun b => leafKey b.leaf == s.changingSlot)

/-- KSKEY as staged. -/
def State.stagedKey (s : State) : BitVec 512 :=
  (List.range 8).foldl (fun (k : BitVec 512) i => put k (64 * i) 64 (mget s.pkg.secret 0 (0x200 + 8 * i)).toNat) 0

/-- KSCMD ends: KSKEY is clear, and GO reads 0. -/
def State.slotEnds (s : State) : State :=
  let s1 := { s with pkg := { s.pkg with secret := s.pkg.secret.filter (fun x => !(0x200 ≤ x.1 && x.1 < 0x240)) } }
  (s1.setCfg 0xB8 (putBit (s1.cfgOf 0xB8) 63 false)).kickWharves

/-- A slot takes its key with the next epoch, or loses it. -/
def State.changeSlot (s : State) (erase : Bool) : State :=
  let k := s.changingSlot
  let r := s.ksctl k
  let r1 := if erase then putBit r 63 false else put (putBit r 63 true) 56 6 (fld r 56 6 + 1)
  let key := if erase then 0 else s.stagedKey
  (({ s with pkg := { s.pkg with slotKeys := mset s.pkg.slotKeys 0 k key } }).setCfg (0x20000 + 8 * k) r1).slotEnds

def execKeyLoad (s : State) : Result :=
  occur (if s.slotDue && !(s.running 0xB8).getLsbD 62 then s.changeSlot false else s)
def execKeyErase (s : State) : Result :=
  occur (if s.slotDue && (s.running 0xB8).getLsbD 62 then s.changeSlot true else s)

/-! Measurement (R399). -/

/-- A value of 512 bits as words, lowest first. -/
def words512 (x : BitVec 512) : List Word64 := (List.range 8).map (fun i => w64 (fld x (64 * i) 64))

/-- What a measurement block measures. -/
def State.measured (s : State) (index : Nat) : List Word64 :=
  let regs (base n : Nat) : List Word64 := (List.range n).map (fun i => s.cfgOf (base + 8 * i))
  w64 index :: (match index with
    | 1 => bootRom
    | 2 => words512 s.pkg.image.digest ++ [s.pkg.image.version]
    | 3 => regs 0x400 64 ++ regs 0xC8 1
    | 4 => s.pkg.deleg :: regs 0x40 6
    | 5 => regs (if s.ilvCur then 0x12000 else 0x10000) 1024 ++ [w64 s.ilvCur.toNat, s.cfgOf 0xC0] ++
        (s.pkg.regions.map (fun (x : Nat × Bool) => w64 (2 * x.1 + x.2.toNat)))
    | 6 => regs 0x20000 1024 ++ regs 0x40080 1008
    | 7 => (List.range 16).map (fun n => s.cfgOf (0x800 + 0x40 * n)) ++ regs 0x80 1 ++ regs 0x100 16
    | 8 => [s.regValue .pkgcfg 0 0]
    | _ => [])

/-- An answer of SPDM, signed by the alias key over the requester's nonce and the answer (R388, R398). -/
def State.signed (s : State) (nonce : Word64) (body : List Word64) : State :=
  let (r, s1) := s.draw
  s1.emit (.doe (body ++ signature s.pkg.attest.signer (nonce :: body) r))

/-- A session is established. -/
def State.inSession (s : State) : Bool := s.pkg.session.any Session.finished

/-- An SPDM request over DOE, of kind `w`, with the nonce `v` (R388, R398, R399): 0 measurement block `n`; 1 a challenge, over the digest of
the certificates; 2 the certificates; 3 a key exchange, which opens a session; 4 its finish, which establishes it; 5 a secured message; 6 a
secured message of IDE_KM that gives stream `n` its key. Where no session is established the last two are answered by no word. What a
session's secret, the device's share and an encrypted answer hold are free values (log entries 3 and 79). -/
def execSpdmMessage (s : State) : Result :=
  occur (
    let v := s.input.v
    match s.input.w.toNat with
    | 0 => s.signed v (words512 (digest (s.measured s.input.n)))
    | 1 => s.signed v (words512 (digest (s.pkg.attest.identityCert ++ s.pkg.attest.aliasCert)))
    | 2 => s.emit (.doe (s.pkg.attest.identityCert ++ s.pkg.attest.aliasCert))
    | 3 =>
      let (secret, s1) := s.drawBytes 64
      let (share, s2) := s1.draw
      ({ s2 with pkg := { s2.pkg with session := some ⟨BitVec.ofNat 512 secret, false⟩ } }).signed v [share]
    | 4 => ({ s with pkg := { s.pkg with session := s.pkg.session.map (fun x => { x with finished := true }) } } : State).emit (.doe [])
    | k =>
      if !s.inSession then s.emit (.doe [])
      else
        let (x, s1) := s.draw
        (if k = 6 then
          { s1 with pkg := { s1.pkg with ideKeys := mset s1.pkg.ideKeys none (s.input.n % 4) (some (BitVec.ofNat 512 s.input.data)) } }
        else s1).emit (.doe [x]))

/-! Assignment (R391, R392). -/

def execLockInterface (s : State) : Result :=
  occur (
    let f := s.input.n % 16
    if (s.tdi f).state = 0 then s.setTdi f ⟨1, s.input.v.toNat % 4, false⟩ else s)

def execStartInterface (s : State) : Result :=
  occur (
    let f := s.input.n % 16
    if (s.tdi f).state = 1 then s.setTdi f { s.tdi f with state := 2 } else s)

def execStopInterface (s : State) : Result := occur (s.setTdi (s.input.n % 16) .none)

/-- The configuration address that a function reaches at an offset of its BAR 0 (R389). -/
def barAddress (f off : Nat) : Option Nat :=
  if f = 0 then some (off % 2 ^ 40)
  else if off < 0x100 && off % 0x40 < 0x18 then some (0x1000 + 0x20 * (4 * f + off / 0x40) + off % 0x40)
  else none

/-- An access of the host through function `f` to its BAR 0. -/
def State.hostAccess (s : State) (f off : Nat) (write : Bool) (v : Word64) : State :=
  if s.pkg.stopped && f != 0 then s.emit (.hostRefused .containedStop)
  else match barAddress f off with
  | none => if write then s else s.emit (.host 0)
  | some a =>
    if write then match s.cfgWrite a (.host f) v with
      | .ok t => t
      | .error c => s.emit (.hostRefused c)
    else match s.cfgRead a (.host f) with
      | .ok x => s.emit (.host x)
      | .error c => s.emit (.hostRefused c)

/-- A configuration request of the host to function `f`: word 0 is the base of its BAR 0, words 1 to 68 the entries of its MSI-X vectors
(R389, R390). A write while they are locked is ignored, and moves the function to ERROR (R391). -/
def State.pciAccess (s : State) (f k : Nat) (write : Bool) (v : Word64) : State :=
  if s.pkg.stopped then s.emit (.hostRefused .containedStop)
  else if !write then s.emit (.host (mget s.pkg.pci 0 (128 * f + k % 128)))
  else if s.tdiLocked f then s.tdiError f
  else if 68 < k % 128 then s
  else { s with pkg := { s.pkg with pci := mset s.pkg.pci 0 (128 * f + k % 128) v } }

/-- A request in an IDE stream comes in the stream that the function was bound to, which IDE_KM has given a key (R388, R392). -/
def State.inStream (s : State) (f : Nat) (stream : Word64) : Bool :=
  stream.toNat == (s.tdi f).stream && (mget s.pkg.ideKeys none stream.toNat).isSome

/-- A host request through function `n` in IDE stream `w`, with `flag2` to its configuration: a TDI in RUN takes only its bound stream, one
in ERROR refuses every access (R391, R392); without accepted firmware the port exposes only DOE (R397). -/
def execHostRequest (s : State) : Result :=
  occur (
    let f := s.input.n % 16
    let t := s.tdi f
    if !s.pkg.firmware then s
    else if t.state = 3 then s.emit (.hostRefused .assignmentLock)
    else if t.state = 2 && !s.inStream f s.input.w then s.tdiError f
    else if s.input.flag2 then s.pciAccess f s.input.addr.toNat s.input.flag s.input.v
    else s.hostAccess f s.input.addr.toNat s.input.flag s.input.v)

/-! Causes of a contained stop outside the cores (R365). -/

def execContainedStop (s : State) : Result := occur (s.containedStop (s.input.cause.getD .machineCheck) s.input.die)
def execLinkLost (s : State) : Result := occur (s.containedStop .linkLost s.input.die)
def execDieLost (s : State) : Result := occur (s.containedStop .dieLost s.input.die)
def execReplayExhausted (s : State) : Result := occur (s.containedStop .replayExhausted s.input.die)

end Sys2Proof.Machine
end

