-- ==== Sys2Proof/Machine/Board.lean ====
section
/-! DEFINITION. Log pages (R69, R105), asynchronous causes (R350), errors of the stores (R87, R88, R361), leave and throttling (R404 to
R406), the clock (R124 to R126), and reset (R400 to R403, R407). -/
namespace Sys2Proof.Machine

/-! Log pages. -/

/-- A record appended at a page of the task: the count of `size`-byte records at its head, `cap` of them (R69, R105). -/
def State.appendLog (s : State) (va : Addr) (size cap r : Nat) : Except Refused State :=
  match s.hwRead s.asid s.taskSecure false .read va 8 with
  | .error e => .error e
  | .ok (s1, c, _) =>
    match s1.hwWrite s.asid s.taskSecure false (va + BitVec.ofNat 72 (size * (1 + c % cap))) size r with
    | .error e => .error e
    | .ok s2 => s2.hwWrite s.asid s.taskSecure false va 8 ((c + 1) % 2 ^ 64)

/-- What a drain waits for at homes outside the package, or at one that does not admit it: the count, the record's write, and the count's
(R25, R393). -/
def State.logGate (s : State) (user : Nat) (va : Addr) (size cap r : Nat) : Option State :=
  match s.gate user s.asid s.taskSecure false .read va 8 0 with
  | some t => some t
  | none => match s.hwRead s.asid s.taskSecure false .read va 8 with
    | .error _ => none
    | .ok (s1, c, _) => match s1.gate user s.asid s.taskSecure false .write (va + BitVec.ofNat 72 (size * (1 + c % cap))) size r with
      | some t => some t
      | none => s1.gate user s.asid s.taskSecure false .write va 8 ((c + 1) % 2 ^ 64)

/-- The page that OVLOG or ULOG names. -/
def logPage (r : Word64) : Addr := BitVec.ofNat 72 (fld r 0 55 * 2 ^ 17)

/-- A log register after a drain that faulted: EN clear, LOST set. -/
def logFault (r : Word64) : Word64 := putBit (putBit r 62 false) 63 true

/-- One record of the overflow queue drains; the unlanded queue goes first (R69, R105). -/
def execOverflowLogDrain (s : State) : Result :=
  occur (match s.logs.overflow with
    | [] => s
    | r :: rest =>
      if !s.logs.unlanded.isEmpty then s.post .overflowLogDrain
      else match s.logGate 5 (logPage (s.csrOf 0x17)) 16 8191 r.toNat with
      | some t => t.postOnce .overflowLogDrain
      | none => (match s.appendLog (logPage (s.csrOf 0x17)) 16 8191 r.toNat with
        | .ok t => { t with logs := { t.logs with overflow := rest } }
        | .error _ => { s.setCsr 0x17 (logFault (s.csrOf 0x17)) with logs := { s.logs with overflow := [] } }).doneHw 5)

/-- One record of the unlanded queue drains (R105). -/
def execUnlandedLogDrain (s : State) : Result :=
  occur (match s.logs.unlanded with
    | [] => s
    | r :: rest => match s.logGate 6 (logPage (s.csrOf 0x18)) 32 2047 r.toNat with
      | some t => t.postOnce .unlandedLogDrain
      | none => (match s.appendLog (logPage (s.csrOf 0x18)) 32 2047 r.toNat with
        | .ok t => { t with logs := { t.logs with unlanded := rest } }
        | .error _ => { s.setCsr 0x18 (logFault (s.csrOf 0x18)) with logs := { s.logs with unlanded := [] } }).doneHw 6)

/-- One record of a memory wharf's unlanded queue drains to its physical page, in a region of the secure world; a write that is refused
ends the log (R105). -/
def execMwulogDrain (s : State) : Result :=
  occur (
    let d := s.input.die
    let a := dieCfg d 0x10
    let page := fld (s.cfgOf a) 0 43 * 2 ^ 17
    let set (t : State) (q : List (BitVec 256)) : State :=
      { t with logs := { t.logs with memUnlanded := mset t.logs.memUnlanded [] d.toNat q } }
    match mget s.logs.memUnlanded [] d.toNat with
    | [] => s
    | r :: rest => match s.appendRecord true page 32 2047 r.toNat with
      | some t => set t rest
      | none => set (s.setCfg a (logFault (s.cfgOf a))) [])

/-- The kind of an access by its number: read, write, both, fetch. -/
def kindOfNum (n : Nat) : AccessKind :=
  match n with
  | 0 => .read
  | 1 => .write
  | 2 => .both
  | _ => .fetch

/-- A translation miss of the task walks the page table and fills the translation cache; what it finds amiss is raised by the access
that needs it (R23, R24). -/
def execTranslationWalk (s : State) : Result :=
  occur (match s.walkAndFill s.input.asid s.input.addr (kindOfNum s.input.n) s.input.flag s.taskSecure with
    | .ok (t, _) => t
    | .error _ => s)

/-! Asynchronous causes. -/

/-- Of the causes that wait, the one of the lowest number, the oldest of those. -/
def lowestAsync (l : List Async) : Option Async :=
  l.foldl (fun best a => match best with
    | none => some a
    | some b => if a.cause.code.toNat < b.cause.code.toNat then some a else some b) none

/-- The cause that waits and is raised at the next boundary (R350): none while a handler runs. -/
def State.asyncDue (s : State) : Option Async := if s.inh || !s.task.bound then none else lowestAsync s.trap.pend

/-- A cause that waited is raised (R350); POISON is that of a gather's list (R313, R361). -/
def State.raiseAsync (s : State) (a : Async) : State :=
  let s1 := { s with trap := { s.trap with pend := s.trap.pend.erase a } }
  let pc := a.pc.getD (s1.pcOf a.seq)
  { s1.arise ⟨a.cause, a.seq, pc, true, a.tvalue, a.addr, if a.cause = .poison then some (fld a.addr 0 22) else none⟩ with
    last := .raised a.cause a.tvalue a.addr }

def execAsyncCause (s : State) : Result :=
  match s.asyncDue with
  | none => occur s
  | some a => occur (s.raiseAsync a)

/-- WDCNT stands above its bound: WATCHDOG waits for the boundary of the control sequencer (R182, R364). -/
def execWatchdogExpiry (s : State) : Result :=
  occur (if s.task.bound && !s.compat && 1048576 < fld (s.csrOf 0xD) 0 21 then s.async ⟨.watchdog, .control, 0, 0, none⟩ else s)

/-! Errors. -/

/-- A corrected error in store `n` freezes the core for 24 cycles, which follow those of a freeze that is under way (R87, R88). -/
def execCorrectableFreeze (s : State) : Result :=
  occur (
    let who := if s.task.bound then some s.task.id else none
    let begins := w64 (s.clk.toNat + s.trap.frozen)
    let s1 := { s with trap := { s.trap with frozen := s.trap.frozen + 24, freezes := (begins, who) :: s.trap.freezes } }
    let r := s1.csrOf 0xE
    s1.setCsr 0xE (put (put r 32 32 (min (fld r 32 32 + 1) (2 ^ 32 - 1))) 20 4 s.input.n))

/-- The last cycle of a freeze that began at tick `v` passes (R87); CORRECTABLE_STORM waits for the boundary where that freeze was more
than the 64th to begin within 4,000,000 ticks (R88). -/
def execFreezeEnd (s : State) : Result :=
  occur (
    if s.trap.frozen % 24 != 1 then s
    else
      let s1 := { s with trap := { s.trap with frozen := s.trap.frozen - 1 } }
      let storm := decide (64 < (s.trap.freezes.filter (fun (t, _) => beganWithin s.input.v.toNat t)).length)
      if storm && s.task.bound then s1.async ⟨.correctableStorm, .control, 0, 0, none⟩ else s1)

/-- A frozen cycle passes (R87): nothing but the count of frozen cycles sees it (R366), and what the core has in flight takes a tick
longer. -/
def State.freezePasses (s : State) : State :=
  let s0 := s.count 2 1
  let s1 := { s0 with mat := { s0.mat with banks := s0.mat.banks.map (fun (b, t) => (b, t + 1)) } }
  if s.trap.frozen % 24 = 1 then s1.postFirst .freezeEnd { v := s.clk - 23 }
  else { s1 with trap := { s1.trap with frozen := s1.trap.frozen - 1 } }

/-- The oldest of the entries of a queue replaced. -/
def replaceHead {α : Type} (l : List α) (f : α → α) : List α :=
  match l with
  | [] => []
  | x :: xs => f x :: xs

/-- An image of poison. -/
def poisonImage : VReg := (List.range 1024).foldl (fun m n => mset m .zero n .poisonFp) []

/-- The oldest entry of a queue takes a free value: vq0, vq1, fq, cq, mq by number. -/
def State.damageQueue (s : State) (n : Nat) : State :=
  let (v, s1) := s.draw
  let (t, s2) := s1.draw
  let st : BitVec 6 := t.setWidth 6
  match n % 5 with
  | 0 => { s1 with q := { s1.q with vq0 := replaceHead s1.q.vq0 (fun _ => v) } }
  | 1 => { s1 with q := { s1.q with vq1 := replaceHead s1.q.vq1 (fun _ => v) } }
  | 2 => { s2 with mu := { s2.mu with fq := replaceHead s2.mu.fq (fun _ => (v, st)) } }
  | 3 => { s2 with eng := { s2.eng with cq := replaceHead s2.eng.cq (fun _ => (v, st)) } }
  | _ => { s2 with mat := { s2.mat with mq := replaceHead s2.mat.mq (fun x => (v, st, x.2.2)) } }

/-- Damaged data of a store that keeps poison becomes poison (R250, R272, R296); an entry of queue `n` or the fields of a ring
descriptor, which have no poison, take free values. With `flag` the image is an output port's. -/
def State.damage (s : State) (site : UeSite) : State :=
  match site with
  | .vreg r lane =>
    let f := s.vec.file
    { s with vec := { s.vec with file := { f with
      v := mset f.v [] r.toNat (mset (mget f.v [] r.toNat) .zero lane.toNat .poisonFp) } } }
  | .mask r =>
    let (v, s1) := s.drawBytes 128
    { s1 with vec := { s1.vec with file := { s1.vec.file with k := mset s1.vec.file.k 0 r.toNat (BitVec.ofNat 1024 v) } } }
  | .dreg r row =>
    let f := s.vec.file
    let d := mget f.d ⟨[], []⟩ r.toNat
    { s with vec := { s.vec with file := { f with
      d := mset f.d ⟨[], []⟩ r.toNat
        { comps := keep d.comps (fun k => k / 64 != row.toNat), norms := mset d.norms normZero row.toNat normPoison } } } }
  | .acc r e =>
    s.setAcc r.toNat (mset (mget s.mat.acc [] r.toNat) 0 e.toNat 0x7FFFFFFF) (s.accFlags r.toNat)
  | .ringdesc k =>
    let (v, s1) := s.draw
    s1.setCsr (0x80 + k.toNat) (v &&& csrMask (0x80 + k.toNat))
  | .queue => s.damageQueue s.input.n
  | .portImage q =>
    if s.input.flag then
      let p := s.outPort (q.toNat % 4)
      s.setOutPort (q.toNat % 4) { p with images := replaceHead p.images (fun i => { i with lanes := poisonImage }) }
    else
      let p := mget s.vec.inp (InPort.mk none 0 []) q.toNat
      s.setInPort q.toNat { p with images := replaceHead p.images (fun i => { i with lanes := poisonImage }) }
  | _ => s

/-- The phase may be cancelled for an error (R360, R361). -/
def State.mayRerun (s : State) : Bool := s.task.bound && !s.inh && !s.compat && !(s.csrOf 0xC).getLsbD 31

/-- A fault record of an error whose data stays poisoned: disposition Q (R352). -/
def State.recordError (s : State) : State :=
  if s.task.bound then s.faultOfTask .recorded .uncorrectable 0 0 (s.pcOf .compute) .compute
  else s.faultRecord true .recorded .uncorrectable 0 0 0 .control 0 0

/-- An uncorrectable error (R361). Of the caches, entry `n` of the translation cache is dropped, or with `flag` the lines of set `n` of the
scalar data cache; `flag` says of device memory that the bound task has consumed it. -/
def execUncorrectableError (s : State) : Result :=
  occur (
    let data (t : State) : State := if t.mayRerun then t.rerun .uncorrectable .compute (t.pcOf .compute) 0 0 else t.recordError
    match s.input.site with
    | .cache =>
      if s.input.flag then { s with mu := { s.mu with lines := mset s.mu.lines [] s.input.n [] } } else s.setTlb (s.mu.tlb.eraseIdx s.input.n)
    | .scratch g =>
      let t := { s with scr := { s.scr with poison := mset s.scr.poison false g.toNat true } }
      match s.frontHalf (s.bankOf (g.toNat / 1024)) with
      | none => t.recordError
      | some n => if t.mayRerun && (t.refetchList n).complete then (t.rerun .uncorrectable .compute (t.pcOf .compute) 0 0).refetch n else t.recordError
    | .memory c =>
      let t := s.setGranule c { s.granule c with poison := true }
      if s.input.flag && s.task.bound then t.recordError else t.faultRecord true .recorded .uncorrectable 0 0 0 .control 0 0
    | .template => if s.task.bound then s.containTask .uncorrectable 0 0 (s.pcOf .control) .control else s
    | .wharf => if s.task.bound then s.containTask .uncorrectable 0 0 (s.pcOf .control) .control else s
    | .metadata d => s.containedStop .uncorrectable d
    | site => data (s.damage site))

/-! Leave and throttling. -/

/-- Watts that a class asks for (R405). -/
def State.leaveCost (s : State) (cls : Nat) : Nat :=
  4 * (if cls = 0 then 0 else fld (s.cfgOf (dieCfg s.die 0x20)) (8 * cls) 8)

/-- The request for leave of the modelled core. -/
def State.ownAsk (s : State) : Option LeaveAsk :=
  match s.phase.record, s.phase.asked with
  | .got _ r, some t => if s.phase.first && !s.phase.granted then some ⟨t.toNat, s.core.toNat, s.leaveCost (recClass r)⟩ else none
  | _, _ => none

/-- A request among others, by its tick and its core (R405). -/
def placeAsk (a : LeaveAsk) : List LeaveAsk → List LeaveAsk
  | [] => [a]
  | b :: l => if a.tick < b.tick || (a.tick == b.tick && a.core < b.core) then a :: b :: l else b :: placeAsk a l

/-- The requests for leave of the die in the order in which they are granted. -/
def State.leaveAsks (s : State) : List LeaveAsk :=
  match s.ownAsk with
  | some a => placeAsk a s.pkg.leaveQueue
  | none => s.pkg.leaveQueue

/-- The watts that grants hold, of the own core while its phase does (R405). -/
def State.leaveHeld (s : State) : Nat := (s.pkg.leaves.map (fun x => if x.1 = s.core.toNat && !s.phase.granted then 0 else x.2)).sum

/-- A request fits beside the grants held: the die's budget is a quarter of LIMIT less 1,000 W (R404, R405). -/
def State.leaveFits (s : State) (a : LeaveAsk) : Bool := 4 * (a.watts + s.leaveHeld) ≤ fld (s.cfgOf 0x18) 0 12 - 1000

/-- A request is granted. -/
def State.grantLeave (s : State) (a : LeaveAsk) : State :=
  let own := a.core == s.core.toNat
  { s with
    pkg := { s.pkg with leaves := mset s.pkg.leaves 0 a.core a.watts, leaveQueue := s.pkg.leaveQueue.filter (fun x => x.core != a.core) }
    phase := { s.phase with granted := s.phase.granted || own } }

/-- Requests are granted in their order, up to the first that does not fit, which holds back the others (R405). -/
def State.grantLeaves (s : State) : List LeaveAsk → State
  | [] => s
  | a :: l => if s.leaveFits a then State.grantLeaves (s.grantLeave a) l else s

/-- The governor of the modelled core's die looks at the requests (R404, R405). What other cores do comes in as its input: with `flag` core `n`
asks for `v` watts, with `flag2` its grant or its request ends. -/
def execLeaveGrant (s : State) : Result :=
  occur (
    let n := s.input.n % 64
    let gone : State := { s with pkg := { s.pkg with leaves := mset s.pkg.leaves 0 n 0, leaveQueue := s.pkg.leaveQueue.filter (fun x => x.core != n) } }
    let s1 := if n = s.core.toNat then s
      else if s.input.flag then { gone with pkg := { gone.pkg with leaveQueue := placeAsk ⟨s.clk.toNat, n, s.input.v.toNat⟩ gone.pkg.leaveQueue } }
      else if s.input.flag2 then gone
      else s
    s1.grantLeaves s1.leaveAsks)

/-- A request for leave that has waited 40,000,000 ticks (R405). -/
def State.leaveLate (s : State) : Bool :=
  !s.inh && s.phase.first && !s.phase.granted && match s.phase.asked with
    | some t => decide (t.toNat + 40000000 ≤ s.clk.toNat)
    | none => false

/-- LEAVE_TIMEOUT is raised precisely on the phase's first group, which asks again when it issues after the return (R405). -/
def execLeaveTimeout (s : State) : Result :=
  if s.leaveLate then finish .compute { s with phase := { s.phase with asked := none } } (.fail .leaveTimeout) else occur s

/-- Since when a die has stood above its temperature limit at 1.0 GHz (R406). -/
def State.noteHeat (s : State) (d : BitVec 2) : State :=
  let since := mget s.pkg.hotSince none d.toNat
  let on := mget s.pkg.hot false d.toNat && fld (s.cfgOf (dieCfg d 0x28)) 0 6 == 10
  { s with pkg := { s.pkg with hotSince := mset s.pkg.hotSince none d.toNat (if on then some (since.getD (s.clkOf d)) else none) } }

/-- A die's arithmetic clock falls, with `flag`, or rises by 100 MHz (R406). -/
def execThrottleStep (s : State) : Result :=
  occur (
    let a := dieCfg s.input.die 0x28
    let r := s.cfgOf a
    let f := fld r 0 6
    let f1 := if s.input.flag then max 10 (f - 1) else min 33 (f + 1)
    if f1 = f then s else (s.setCfg a (put (put r 0 6 f1) 32 32 (min (fld r 32 32 + 1) (2 ^ 32 - 1)))).noteHeat s.input.die)

/-- A die has stood above its temperature limit at 1.0 GHz for 4,000,000 ticks (R406). -/
def State.heatLate (s : State) (d : BitVec 2) : Bool :=
  (mget s.pkg.hotSince none d.toNat).any (fun t => decide (t.toNat + 4000000 ≤ (s.clkOf d).toNat))

/-- A die rises above its temperature limit, with `flag`, or falls back below it, with `flag2`; one that has stood above it at 1.0 GHz for
4,000,000 ticks stops the package (R406). -/
def execThermalStop (s : State) : Result :=
  occur (
    let d := s.input.die
    let heat (b : Bool) : State := ({ s with pkg := { s.pkg with hot := mset s.pkg.hot false d.toNat b } } : State).noteHeat d
    let s1 := if s.input.flag then heat true else if s.input.flag2 then heat false else s
    if s1.heatLate d then s1.containedStop .thermalStop d else s1)

/-! The clock. -/

/-- Every live die's counter advances by one tick, once they run (R124, R402). -/
def State.tick (s : State) : State :=
  if s.pkg.clkRuns then
    { s with pkg := { s.pkg with clk := [0, 1, 2, 3].foldl (fun m d => mset m 0 d (mget m 0 d + 1)) s.pkg.clk } }
  else s

/-- An event posted where its condition holds. -/
def State.postIf (s : State) (b : Bool) (e : Instr) (i : Input := {}) : State := if b then s.postOnce e i else s

/-- Timed stores that are due are performed in the tick in which they fall due (R128, R130). -/
def State.performTimed (s : State) : State := if s.dueStore.isNone then s else (s.performDue s.mu.storeQ.length).kick

/-- Stores go on their way as soon as they may (R140). -/
def State.storesDue (s : State) : State :=
  let s1 := s.postIf ((s.mu.storeQ.find? (fun r => r.place == .queued)).any s.mayDepart) .storeQueueDepart
  let s2 := s1.postIf (s.mu.storeQ.any (fun r => r.place == .sent && r.timed.isNone && s.atHome r)) .homeAccess
  s2.postIf (s.mu.storeQ.any (fun r => r.place == .sent && r.timed.isSome && s.arrives r.bound)) .timedStoreArrival

/-- What time makes due on the core and its memory. -/
def State.dueOnCore (s : State) : State :=
  let s1 := (s.storesDue.postIf s.disp.saving.isSome .taskSave).postIf (!s.scr.fmtPend.isEmpty) .bankfmtEffect
  let s2 := [WharfId.core, .mem 0, .mem 1, .mem 2, .mem 3].foldl (fun (s : State) w => s.postIf (s.holdDue w) .holdTimeout { wharf := w }) s1
  let s3 := (s2.postIf (s.leaveAsks.head?.any s.leaveFits) .leaveGrant).postIf s.leaveLate .leaveTimeout
  s3.postIf (s.clk.toNat % 16 == 0) .selectionRound { flag := s.disp.others }

/-- What time makes due in the hub. -/
def State.dueInHub (s : State) : State :=
  let s1 := (s.postIf (s.pkg.fabric.any s.fabricDue) .fabricTimeout).postIf
    (s.pkg.fabric.any (fun f => f.pool && f.group.isNone && f.sent + 400000 ≤ s.clk.toNat)) .windowStallTimeout
  let s2 := (List.range 16).foldl (fun (s : State) n => ((s.postIf (s.drainDue n) .groupDrainEnd { n := n }).postIf (s.phaseDue n)
    .keyPhaseSwitch { n := n }).postIf (s.eraseDue n) .oldKeyErase { n := n }) s1
  let s2 := [0, 1, 2, 3].foldl (fun (s : State) d => s.postIf (s.heatLate d) .thermalStop { die := d }) s2
  let s3 := (s2.postIf ((s.cfgOf 0x38).getLsbD 2) .ilvDrained).postIf s.pkg.moving.isSome .migrationRetire
  let key := (s.running 0xB8).getLsbD 62
  ((s3.postIf s.regionDue .regionWorldApply).postIf (s.slotDue && !key) .keyLoad).postIf (s.slotDue && key) .keyErase

/-- A tick of the architected clock (R124), with what it makes due. -/
def execClockTick (s : State) : Result := occur s.noteReady.tick.revolve.performTimed.dueOnCore.dueInHub

/-- The chip loses lock to pod time (R126). -/
def State.lose (s : State) : State :=
  let r := s.cfgOf 0x10
  let s1 := { s with pkg := { s.pkg with ptpGood := 0 } }
  if r.getLsbD 63 then s1.setCfg 0x10 (put (putBit r 63 false) 0 32 (min (fld r 0 32 + 1) (2 ^ 32 - 1))) else s1

/-- A valid synchronisation message ends an interval: `v` is the bound on the chip's offset in ticks, `w` the estimated offset in two's
complement (R126). -/
def execSyncMessage (s : State) : Result :=
  occur (
    let off := max (-32767) (min 32767 s.input.w.toInt)
    let s1 := s.setCfg 0x10 (put (s.cfgOf 0x10) 32 16 (off % 2 ^ 16).toNat)
    if !s.pkg.clkRuns then s
    else if 78 < s.input.v.toNat then s1.lose
    else
      let good := min (s.pkg.ptpGood + 1) 16
      let s2 := { s1 with pkg := { s1.pkg with ptpGood := good } }
      if good = 16 then s2.setCfg 0x10 (putBit (s2.cfgOf 0x10) 63 true) else s2)

/-- Sixteen intervals pass without a valid message (R126). -/
def execLockLoss (s : State) : Result := occur s.lose

/-! Reset. -/

/-- The boot ROM accepts an image: its signature verifies, and its security version is at least the fused counter (R397). -/
def State.accepts (s : State) (f : Firmware) : Bool := f.signed && s.pkg.secVersion.toNat ≤ f.version.toNat

/-- The machine after a reset (R400) with the image that the boot ROM reads: fuses and flash stay (R407), the image is judged (R397) and the
keys are derived (R398). Accepted firmware may advance the security counter to `want`. -/
def State.restart (s : State) (f : Firmware) (want : Word64) : State :=
  let r := State.reset
  let ok := s.accepts f
  let counter := if ok && s.pkg.secVersion.toNat < want.toNat then want else s.pkg.secVersion
  { r with
    turn := s.turn, input := s.input, outbox := s.outbox, draws := s.draws, die := s.die, core := s.core
    pkg := { r.pkg with fused := s.pkg.fused, upper := s.pkg.upper, part := s.pkg.part, firmware := ok, secVersion := counter
                        image := f, attest := (Attest.derive f.digest).erased } }

/-- Power-on or a fundamental reset of the host port (R400): the image's digest is `data`, its security version `v`; with `flag` its
signature fails; accepted firmware may advance the counter to `w` (R397). -/
def execReset (s : State) : Result :=
  occur (s.restart ⟨BitVec.ofNat 512 s.input.data, s.input.v, !s.input.flag⟩ s.input.w)

/-- PKGRST: a package reset, in which the boot ROM judges the image that it holds (R397, R403). -/
def execPkgrstWrite (s : State) : Result :=
  occur (if s.input.v.getLsbD 63 && fld s.input.v 0 8 = 0xA5 && s.pkg.powered then s.restart s.pkg.image s.input.w else s)

/-- The first write of CLKINIT starts every die's counter (R402). -/
def execClkinitWrite (s : State) : Result :=
  occur (
    if s.pkg.clkRuns then s
    else
      let v := s.input.v
      let s1 := { s with pkg := { s.pkg with clkRuns := true, clk := [0, 1, 2, 3].foldl (fun m d => mset m 0 d v) s.pkg.clk } }
      s1.setCfg 8 v)

/-- Power is removed: nothing but fuses and flash remains (R407). -/
def execPowerRemoved (s : State) : Result :=
  occur (
    let t := s.restart s.pkg.image 0
    { t with pkg := { t.pkg with powered := false, firmware := false } })

end Sys2Proof.Machine
end

