-- ==== Sys2Proof/Machine/Directional.lean ====
section
/-! DEFINITION. Directional instructions (R279 to R284) and the log path in vector lanes (R285 to R288). -/
namespace Sys2Proof.Machine

/-- A row of a directional register as its components and its norm. -/
def DReg.row (d : DReg) (r : Nat) : List Int := (List.range 64).map (fun j => d.comp r j)

/-- An ordinary norm as an integer (R273). -/
def normVal (n : Word32) : Int := n.toInt

/-- The components times 2^0. -/
def dyadics (c : List Int) : List Dyadic := c.map (fun x => (x, 0))

/-- A dyadic value as an exact value. -/
def Dyadic.val (d : Dyadic) : Val := .fin (decide (d.1 < 0)) d.1.natAbs d.2

/-- An FP32 result that overflows in the sign of `c`, or +0 where it is 0 (R280, R281). -/
def overflowOf (rm : Nat) (satd : Bool) (c : Int) : LaneResult :=
  if c = 0 then (.of 0, none) else fpRound rm satd (.fin (decide (c < 0)) 1 128)

/-- The form of a word with directional sources and a v destination. -/
def formDir (bk : SKind) (d a b : BitVec 6) (m : BitVec 1) (k : BitVec 3) : VForm :=
  ⟨.reg, .dir, bk, d, a, b, m == 1#1, k, false, false, false⟩
/-- The form of a word with a directional destination. -/
def formToDir (ak bk : SKind) (d a b : BitVec 6) (x y : Bool) : VForm := ⟨.dir, ak, bk, d, a, b, false, 0, x, y, false⟩

/-- A row of dnorm (R279). -/
def dnormRow (lanes : List Lane) : DRow :=
  if lanes.any (fun l => l.fpPoison) then .zeros normPoison
  else if lanes.any (fun l => l.isNan) then { DRow.zeros normOver with event := some .nanZero }
  else if lanes.any (fun l => match l.fp with
      | .inf _ => true
      | _ => false) then { DRow.zeros normOver with event := some .posSat }
  else renorm (lanes.map (fun l => match l.fp with
    | .fin n m e => (if n then -(m : Int) else m, e)
    | _ => (0, 0))) 0

def execDnorm (d a : BitVec 6) (x : BitVec 1) (s : State) : Result :=
  vrun (.dnorm d a x) (formToDir .vec .none d a 0 (x == 1#1) false) 24
    (fun o => .rows ((List.range 16).map (fun r => dnormRow ((List.range 64).map (fun c => vlane o.a (64 * r + c)))))) s

/-- A lane of dexp (R280). -/
def dexpLane (rm : Nat) (satd : Bool) (c : Int) (n : Word32) : LaneResult :=
  if n = normPoison then (.poisonFp, none)
  else if n = normZero then (.of 0, none)
  else if n = normOver then overflowOf rm satd c
  else let p := pow2Val (normVal n); fpRound rm satd (Dyadic.val (c * p.1, p.2 - 14))

def execDexp (d a : BitVec 6) (m : BitVec 1) (k : BitVec 3) (s : State) : Result :=
  vrun (.dexp d a m k) (formDir .none d a 0 m k) 16
    (fun o => .lanes (decide (o.da = .zero)) (fun i => dexpLane o.rm o.satd (o.da.comp (i / 64) (i % 64)) (o.da.norm (i / 64)))) s

def execDcomp (d a : BitVec 6) (m : BitVec 1) (k : BitVec 3) (s : State) : Result :=
  vrun (.dcomp d a m k) (formDir .none d a 0 m k) 8
    (fun o => .lanes (decide (o.da = .zero)) (fun i =>
      (if o.da.norm (i / 64) = normPoison then .poisonInt
        else if o.da.norm (i / 64) = normZero then .of 0
        else .of (BitVec.ofInt 32 (o.da.comp (i / 64) (i % 64))), none))) s

def execDnget (d a : BitVec 6) (m : BitVec 1) (k : BitVec 3) (s : State) : Result :=
  vrun (.dnget d a m k) (formDir .none d a 0 m k) 8
    (fun o => .lanes (decide (o.da = .zero)) (fun i =>
      (if o.da.norm (i / 64) = normPoison then .poisonInt else .of (o.da.norm (i / 64)), none))) s

/-- The exact dot product of two rows (R281). -/
def rowDot (a b : DReg) (r : Nat) : Int := ((List.range 64).map (fun j => a.comp r j * b.comp r j)).sum

/-- The row result of ddot and ddotn (R281). -/
def dotLane (norms : Bool) (o : Operands) (r : Nat) : LaneResult :=
  let na := o.da.norm r
  let nb := o.db.norm r
  if na = normPoison || nb = normPoison then (.poisonFp, none)
  else if na = normZero || nb = normZero then (.of 0, none)
  else
    let p := rowDot o.da o.db r
    if !norms then fpRound o.rm o.satd (Dyadic.val (p, -28))
    else if na = normOver || nb = normOver then overflowOf o.rm o.satd p
    else
      let v := pow2Val (normVal na + normVal nb)
      fpRound o.rm o.satd (Dyadic.val (p * v.1, v.2 - 28))

/-- ddot and ddotn. -/
def vDot (i : Instr) (f : VForm) (latency : Nat) (norms : Bool) (s : State) : Result :=
  vrun i f latency (fun o =>
    let rows := (List.range 16).map (dotLane norms o)
    .lanes (decide (o.da = .zero ∧ o.db = .zero)) (fun i => rows.getD (i / 64) (.zero, none))) s

def execDdot (d a b : BitVec 6) (m : BitVec 1) (k : BitVec 3) (s : State) : Result :=
  vDot (.ddot d a b m k) (formDir .dir d a b m k) 16 false s
def execDdotn (d a b : BitVec 6) (m : BitVec 1) (k : BitVec 3) (s : State) : Result :=
  vDot (.ddotn d a b m k) (formDir .dir d a b m k) 24 true s

/-- A row of dadd; dsub has negated its B row (R282). -/
def daddRow (ca : List Int) (na : Word32) (cb : List Int) (nb : Word32) : DRow :=
  if na = normPoison || nb = normPoison then .zeros normPoison
  else if na = normOver then ⟨ca, normOver, some .posSat⟩
  else if nb = normOver then ⟨cb, normOver, some .posSat⟩
  else if na = normZero && nb = normZero then .zeros normZero
  else if nb = normZero then renorm (dyadics ca) (normVal na - 14 * 2 ^ 22)
  else if na = normZero then renorm (dyadics cb) (normVal nb - 14 * 2 ^ 22)
  else
    let aBig := normVal nb ≤ normVal na
    let (cl, nl, cs, ns) := if aBig then (ca, normVal na, cb, normVal nb) else (cb, normVal nb, ca, normVal na)
    let delta := nl - ns
    if 24 * 2 ^ 22 ≤ delta then renorm (dyadics cl) (nl - 14 * 2 ^ 22)
    else
      let p := pow2Val (-delta)
      let sum (l c : Int) : Dyadic :=
        let e := min 0 p.2
        (l * 2 ^ (-e).toNat + c * p.1 * 2 ^ (p.2 - e).toNat, e)
      renorm ((cl.zip cs).map (fun (l, c) => sum l c)) (nl - 14 * 2 ^ 22)

/-- dadd and dsub. -/
def vDadd (i : Instr) (d a b : BitVec 6) (negate : Bool) (s : State) : Result :=
  vrun i (formToDir .dir .dir d a b false false) 24
    (fun o => .rows ((List.range 16).map (fun r =>
      daddRow (o.da.row r) (o.da.norm r) ((o.db.row r).map (fun c => if negate then -c else c)) (o.db.norm r)))) s

def execDadd (d a b : BitVec 6) (s : State) : Result := vDadd (.dadd d a b) d a b false s
def execDsub (d a b : BitVec 6) (s : State) : Result := vDadd (.dsub d a b) d a b true s

/-- A row scaled by ±2^(L / 2^22) (R283): `scale` is the sign and L, none a zero scale. -/
def dsclRow (c : List Int) (n : Word32) (scale : Option (Bool × Int)) : DRow :=
  if n = normPoison then .zeros normPoison
  else if n = normZero then .zeros normZero
  else match scale with
    | none => .zeros normZero
    | some (neg, l) =>
      let c' := c.map (fun x => if neg then -x else x)
      if n = normOver then ⟨c', normOver, none⟩ else renorm (dyadics c') (normVal n + l - 14 * 2 ^ 22)

/-- A lane read as L32 is poison (R285). -/
def Lane.logPoison (l : Lane) : Bool := l.side || l.bits == 0x7FFFFFFF

def execDscl (d a b : BitVec 6) (y : BitVec 1) (s : State) : Result :=
  vrun (.dscl d a b y) (formToDir .dir .vec d a b false (y == 1#1)) 24
    (fun o => .rows ((List.range 16).map (fun r =>
      let l := vlane o.b (64 * r)
      if l.logPoison then .zeros normPoison
      else dsclRow (o.da.row r) (o.da.norm r)
        (if l32Zero l.bits.toNat then none else some (l32Neg l.bits.toNat, l32Log l.bits.toNat))))) s

def execDscli (d a i : BitVec 6) (s : State) : Result :=
  vrun (.dscli d a i) (formToDir .dir .imm d a i false false) 24
    (fun o => .rows ((List.range 16).map (fun r => dsclRow (o.da.row r) (o.da.norm r) (some (false, i.toInt * 2 ^ 22))))) s

/-- The classes of dtst (R284). -/
def normClass (code : Nat) (n : Word32) : Bool :=
  match code with
  | 0 => n == normZero
  | 1 => n == normPoison
  | 2 => n == normOver
  | _ => n == normZero || n == normPoison || n == normOver

def execDtst (d a i : BitVec 6) (s : State) : Result :=
  vrun (.dtst d a i) ⟨.mask, .dir, .imm, d, a, i, false, 0, false, false, false⟩ 8
    (fun o => .mask (decide (o.da = .zero)) (fun j => normClass i.toNat (o.da.norm (j / 64)))) s

/-! L32 in lanes (R285 to R287). -/

/-- An L32 result as a lane. -/
def logLane (c : Coded) : LaneResult := (⟨BitVec.ofNat 32 c.code, c.poison⟩, c.event)
/-- The poison result of L32. -/
def logPoisonLane : LaneResult := (⟨0x7FFFFFFF, true⟩, none)

/-- A lane of lcvt, code 0 to L32 and 1 to FP32 (R286). -/
def lcvtLane (code rm : Nat) (satd : Bool) (x : Lane) : LaneResult :=
  if code = 0 then (if x.fpPoison then logPoisonLane else logLane (encodeL32 x.fp))
  else if x.logPoison then (.poisonFp, none)
  else fpRound rm satd (decodeL32 x.bits.toNat)

def execLcvt (d a i : BitVec 6) (m : BitVec 1) (k : BitVec 3) (x : BitVec 1) (s : State) : Result :=
  vrun (.lcvt d a i m k x) (formAI d a i m k x) 16 (lanes1 (fun o => lcvtLane i.toNat o.rm o.satd)) s

/-- lmul and ldiv (R287). -/
def lmulLane (div : Bool) (x y : Lane) : LaneResult :=
  if x.logPoison || y.logPoison then logPoisonLane
  else
    let a := x.bits.toNat
    let b := y.bits.toNat
    let neg := l32Neg a != l32Neg b
    if !div then
      if l32Zero a || l32Zero b then logLane (l32OfZero neg) else logLane (l32Of neg (l32Log a + l32Log b))
    else if l32Zero a && l32Zero b then logLane { code := 0x40000000, event := some .nanZero }
    else if l32Zero a then logLane (l32OfZero neg)
    else if l32Zero b then logLane { code := (if neg then 2 ^ 31 else 0) + (2 ^ 29 - 1), event := some (satEvent neg) }
    else logLane (l32Of neg (l32Log a - l32Log b))

def execLmul (d a b : BitVec 6) (m : BitVec 1) (k : BitVec 3) (x y : BitVec 1) (s : State) : Result :=
  vAB (.lmul d a b m k x y) (formAB d a b m k x y) (fun _ => lmulLane false) s
def execLdiv (d a b : BitVec 6) (m : BitVec 1) (k : BitVec 3) (x y : BitVec 1) (s : State) : Result :=
  vAB (.ldiv d a b m k x y) (formAB d a b m k x y) (fun _ => lmulLane true) s

/-- lsh.pow and lsh.root (R287); k = 0 copies the lane. -/
def lshLane (root : Bool) (k : Nat) (x : Lane) : LaneResult :=
  let a := x.bits.toNat
  if k = 0 then (x, none)
  else if x.logPoison then logPoisonLane
  else if root then
    if l32Zero a then logLane (l32OfZero (l32Neg a))
    else if l32Neg a then logLane { code := 0x40000000, event := some .nanZero }
    else logLane (l32Of false (l32Log a / 2 ^ k))
  else if l32Zero a then logLane (l32OfZero false)
  else logLane (l32Of false (l32Log a * 2 ^ k))

def execLsh (d a : BitVec 6) (r : BitVec 1) (n : BitVec 3) (m : BitVec 1) (k : BitVec 3) (x : BitVec 1) (s : State) : Result :=
  vrun (.lsh d a r n m k x) (formAI d a (r ++ 0#2 ++ n) m k x) 8 (lanes1 (fun _ => lshLane (r == 1#1) n.toNat)) s

/-! Functions of FP32 lanes (R288). -/

/-- A rounded step with its event. -/
def stepFp (rm : Nat) (satd : Bool) (v : Val) : Val × Option Event :=
  let c := encodeFloat fp32 rm satd v
  (decodeFloat fp32 c.code, c.event)

/-- ±2^128 rounded: an overflow by R56. -/
def over128 (rm : Nat) (satd neg : Bool) : Val × Option Event := stepFp rm satd (.fin neg 1 128)

/-- Lg (R288) of a positive finite magnitude. -/
def lgVal (n : Nat) (k : Int) : Int := let (e, m) := logParts n k; e * 2 ^ 22 + logCore m

/-- Pow2Val as an exact value. -/
def pow2Exact (l : Int) : Val := let p := pow2Val l; .fin false p.1 p.2

/-- Exp (R288). -/
def expFn (rm : Nat) (satd : Bool) : Val → Val × Option Event
  | .inf neg => (if neg then .zero else .inf false, none)
  | .fin neg m e =>
    let u := Dyadic.round ((if neg then -((m * log2e : Nat) : Int) else (m * log2e : Nat)), e - 9)
    if 2 ^ 29 ≤ u then over128 rm satd false
    else if u < -2 ^ 29 then (.zero, none)
    else stepFp rm satd (pow2Exact u)
  | v => (v, none)

/-- Log (R288). -/
def logFn (rm : Nat) (satd : Bool) : Val → Val × Option Event
  | .inf neg => (if neg then .nan else .inf false, none)
  | .fin neg m e =>
    if m = 0 then over128 rm satd true
    else if neg then (.nan, none)
    else stepFp rm satd (Dyadic.val (lgVal m e * ln2, -54))
  | v => (v, none)

/-- Rsqrt (R288). -/
def rsqrtFn (rm : Nat) (satd : Bool) : Val → Val × Option Event
  | .inf neg => (if neg then .nan else .zero, none)
  | .fin neg m e =>
    if m = 0 then over128 rm satd neg
    else if neg then (.nan, none)
    else stepFp rm satd (pow2Exact (-(lgVal m e / 2)))
  | v => (v, none)

/-- Sig (R288). -/
def sigFn (rm : Nat) (satd : Bool) (x : Val) : Val × Option Event :=
  let (t, e1) := expFn rm satd x.neg
  let (d, e2) := stepFp rm satd ((Val.fin false 1 0).add rm t)
  match d with
  | .inf _ => (.zero, orEvent e1 e2)
  | .fin _ m e =>
    let (r, e3) := stepFp rm satd (pow2Exact (-(lgVal m e)))
    (r, orEvent (orEvent e1 e2) e3)
  | v => (v, orEvent e1 e2)

/-- Tanh (R288). -/
def tanhFn (rm : Nat) (satd : Bool) (x : Val) : Val × Option Event :=
  let (g, e1) := sigFn rm satd (x.shift 1)
  let (r, e2) := stepFp rm satd ((g.shift 1).add 0 (.fin true 1 0))
  (r, orEvent e1 e2)

/-- A lane of lfn (R288). -/
def lfnLane (code rm : Nat) (satd : Bool) (x : Lane) : LaneResult :=
  if x.fpPoison then (.poisonFp, none)
  else if x.isNan then (.of 0x7FC00000, none)
  else
    let (v, e) := match code with
      | 0 => expFn rm satd x.fp
      | 1 => logFn rm satd x.fp
      | 2 => sigFn rm satd x.fp
      | 3 => tanhFn rm satd x.fp
      | _ => rsqrtFn rm satd x.fp
    (.of (BitVec.ofNat 32 (encodeFloat fp32 rm satd v).code), e)

def execLfn (d a i : BitVec 6) (m : BitVec 1) (k : BitVec 3) (x : BitVec 1) (s : State) : Result :=
  vrun (.lfn d a i m k x) (formAI d a i m k x) (if i.toNat = 2 || i.toNat = 3 then 64 else 32)
    (lanes1 (fun o => lfnLane i.toNat o.rm o.satd)) s

end Sys2Proof.Machine
end

