-- ==== Sys2Proof/Machine/Traps.lean ====
section
/-! DEFINITION. Trap and system instructions (R357), with the return from a handler (R356), the invalidations (R31) and the
containment of the bound task (R362). -/
namespace Sys2Proof.Machine

/-- A supervisor word: PRIVILEGE in user mode, the last check of its decoding (R187, R357). -/
def State.supervised (s : State) (i : Instr) (r : Res) : Res := if !s.sup then .trap .privilege (wordTvalue 0 i) 0 else r

def execTrap (a : BitVec 5) (s : State) : Result := finish .control s (.trap .trapCall (s.gReg a) 0)
def execHcall (a : BitVec 5) (s : State) : Result := finish .control s (.trap .hostCall (s.gReg a) 0)
def execBrk (s : State) : Result := finish .control s (.fail .breakpoint)

/-- tret (R356): with INH = 0 it raises ILLEGAL. WATCHDOG is raised again while WDCNT exceeds its bound (R364). -/
def execTret (s : State) : Result :=
  finish .control s (s.supervised .tret (
    if !s.inh then .trap .illegal (wordTvalue 0 .tret) 0
    else
      let t := s.tret
      let t1 := if t.allReached then t.postOnce .swapRendezvous else t
      .ok (if 1048576 < fld (t1.csrOf 0xD) 0 21 then t1.postOnce .watchdogExpiry else t1)))

def execWdsvc (s : State) : Result :=
  finish .control s (s.supervised .wdsvc (.ok ((s.setCsr 0xD 0).advance .control)))

/-- contain (R362): the record's TVALUE, addresses and sequencer are those that the trap registers hold. -/
def execContain (a : BitVec 5) (s : State) : Result :=
  finish .control s (s.supervised (.contain a) (
    if 63 < (s.gReg a).toNat then .fail .fieldRange
    else
      let wide (hi lo : Nat) : Addr := ((s.csrOf hi).setWidth 8 : BitVec 8) ++ s.csrOf lo
      .ok (s.containTask (Cause.ofCode (s.gReg a).toNat) (s.csrOf 6) (wide 3 2) (wide 5 4) (seqOfNum (fld s.status 5 2)))))

def execWsw (a : BitVec 5) (s : State) : Result :=
  finish .control s (s.supervised (.wsw a) (
    if s.secure then .trap .illegal (wordTvalue 0 (.wsw a)) 0 else .trap .worldSwitch (s.gReg a) 0))

/-- The ASID that an invalidation or mwclr names in gB: FIELD_RANGE above 2,047. -/
def State.asidOf (s : State) (b : BitVec 5) (k : BitVec 11 → Res) : Res :=
  if 2047 < (s.gReg b).toNat then .fail .fieldRange else k ((s.gReg b).setWidth 11)

def execInvalVa (a b : BitVec 5) (s : State) : Result :=
  finish .control s (s.supervised (.invalVa a b) (s.asidOf b (fun x => .ok ((s.invalVa x (s.aReg a)).advance .control))))
def execInvalAsid (b : BitVec 5) (s : State) : Result :=
  finish .control s (s.supervised (.invalAsid b) (s.asidOf b (fun x => .ok ((s.invalAsid x).advance .control))))
def execInvalAll (s : State) : Result := finish .control s (s.supervised .invalAll (.ok (s.invalAll.advance .control)))

/-- A memory-wharf slot of an ASID is not FREE. -/
def State.holdsMaps (s : State) (x : BitVec 11) : Bool :=
  [0, 1, 2, 3].any (fun d => (s.wharf (.mem (BitVec.ofNat 2 d))).slots.any (fun m => m.2.asid == x && m.2.st != 0))

def execMwclr (b : BitVec 5) (s : State) : Result :=
  finish .control s (s.supervised (.mwclr b) (s.asidOf b (fun x =>
    let t := s.retireWhere (fun m => m.asid == x)
    if t.holdsMaps x then .wait t else .ok (t.advance .control))))

end Sys2Proof.Machine
end

