-- ==== Sys2Proof/Machine/Vector.lean ====
section
/-! DEFINITION. The V-slot instructions of opcodes 0x02 to 0x4B (R261 to R269). -/
namespace Sys2Proof.Machine

/-! FP32 (R262, R263). -/

def execVFadd (d a b : BitVec 6) (m : BitVec 1) (k : BitVec 3) (x y : BitVec 1) (s : State) : Result :=
  vAB (.vFadd d a b m k x y) (formAB d a b m k x y) (fun o => fp2 (fun r p q => p.add r q) o.rm o.satd) s
def execVFsub (d a b : BitVec 6) (m : BitVec 1) (k : BitVec 3) (x y : BitVec 1) (s : State) : Result :=
  vAB (.vFsub d a b m k x y) (formAB d a b m k x y) (fun o => fp2 (fun r p q => p.add r q.neg) o.rm o.satd) s
def execVFmul (d a b : BitVec 6) (m : BitVec 1) (k : BitVec 3) (x y : BitVec 1) (s : State) : Result :=
  vAB (.vFmul d a b m k x y) (formAB d a b m k x y) (fun o => fp2 (fun _ p q => p.mul q) o.rm o.satd) s
def execVFma (d a b : BitVec 6) (m : BitVec 1) (k : BitVec 3) (x y z : BitVec 1) (s : State) : Result :=
  vrun (.vFma d a b m k x y z) (formABD d a b m k x y z) 8 (lanes3 (fun o => fp3 (fun r p q t => (p.mul q).add r t) o.rm o.satd)) s
def execVFms (d a b : BitVec 6) (m : BitVec 1) (k : BitVec 3) (x y z : BitVec 1) (s : State) : Result :=
  vrun (.vFms d a b m k x y z) (formABD d a b m k x y z) 8 (lanes3 (fun o => fp3 (fun r p q t => t.add r (p.mul q).neg) o.rm o.satd)) s
def execVFmin (d a b : BitVec 6) (m : BitVec 1) (k : BitVec 3) (x y : BitVec 1) (s : State) : Result :=
  vAB (.vFmin d a b m k x y) (formAB d a b m k x y) (fun _ => fpPick false) s
def execVFmax (d a b : BitVec 6) (m : BitVec 1) (k : BitVec 3) (x y : BitVec 1) (s : State) : Result :=
  vAB (.vFmax d a b m k x y) (formAB d a b m k x y) (fun _ => fpPick true) s
def execVFabs (d a : BitVec 6) (m : BitVec 1) (k : BitVec 3) (x : BitVec 1) (s : State) : Result :=
  vrun (.vFabs d a m k x) (formA d a m k x) 8 (lanes1 (fun _ => fpBits (fun w => w &&& 0x7FFFFFFF))) s
def execVFneg (d a : BitVec 6) (m : BitVec 1) (k : BitVec 3) (x : BitVec 1) (s : State) : Result :=
  vrun (.vFneg d a m k x) (formA d a m k x) 8 (lanes1 (fun _ => fpBits (fun w => w ^^^ 0x80000000))) s

/-! Compares (R264). -/

def execVFcmpEq (d a b : BitVec 6) (m : BitVec 1) (k : BitVec 3) (x y : BitVec 1) (s : State) : Result :=
  vCmp (.vFcmpEq d a b m k x y) (formMask d a b m k x y) (fpCompare (fun p q => p == q)) s
def execVFcmpLt (d a b : BitVec 6) (m : BitVec 1) (k : BitVec 3) (x y : BitVec 1) (s : State) : Result :=
  vCmp (.vFcmpLt d a b m k x y) (formMask d a b m k x y) (fpCompare (fun p q => decide (p < q))) s
def execVFcmpLe (d a b : BitVec 6) (m : BitVec 1) (k : BitVec 3) (x y : BitVec 1) (s : State) : Result :=
  vCmp (.vFcmpLe d a b m k x y) (formMask d a b m k x y) (fpCompare (fun p q => decide (p ≤ q))) s
def execVFcmpUn (d a b : BitVec 6) (m : BitVec 1) (k : BitVec 3) (x y : BitVec 1) (s : State) : Result :=
  vCmp (.vFcmpUn d a b m k x y) (formMask d a b m k x y) (fpUnordered) s
def execVIcmpEq (d a b : BitVec 6) (m : BitVec 1) (k : BitVec 3) (x y : BitVec 1) (s : State) : Result :=
  vCmp (.vIcmpEq d a b m k x y) (formMask d a b m k x y) (intCompare (fun p q => p == q)) s
def execVIcmpLt (d a b : BitVec 6) (m : BitVec 1) (k : BitVec 3) (x y : BitVec 1) (s : State) : Result :=
  vCmp (.vIcmpLt d a b m k x y) (formMask d a b m k x y) (intCompare (fun p q => p.slt q)) s
def execVIcmpLtu (d a b : BitVec 6) (m : BitVec 1) (k : BitVec 3) (x y : BitVec 1) (s : State) : Result :=
  vCmp (.vIcmpLtu d a b m k x y) (formMask d a b m k x y) (intCompare (fun p q => p.ult q)) s
def execVptst (d a : BitVec 6) (m : BitVec 1) (k : BitVec 3) (x : BitVec 1) (s : State) : Result :=
  vrun (.vptst d a m k x) ⟨.mask, .vec, .none, d, a, 0, m == 1#1, k, x == 1#1, false, false⟩ 8
    (fun o => .mask o.a.isEmpty (fun i => (vlane o.a i).fpPoison)) s
/-- vsel takes its mask in place of masking its write. -/
def execVsel (d a b : BitVec 6) (k : BitVec 3) (x y : BitVec 1) (s : State) : Result :=
  vrun (.vsel d a b k x y) ⟨.selReg, .vec, .vec, d, a, b, true, k, x == 1#1, y == 1#1, false⟩ 8
    (fun o => .lanes (o.a.isEmpty && o.b.isEmpty)
      (fun i => (if o.k.getLsbD i then vlane o.a i else vlane o.b i, none))) s

/-! INT32 (R265, R266). -/

def execVAdd (d a b : BitVec 6) (m : BitVec 1) (k : BitVec 3) (x y : BitVec 1) (s : State) : Result :=
  vInt (.vAdd d a b m k x y) (formAB d a b m k x y) (fun p q => p + q) s
def execVSub (d a b : BitVec 6) (m : BitVec 1) (k : BitVec 3) (x y : BitVec 1) (s : State) : Result :=
  vInt (.vSub d a b m k x y) (formAB d a b m k x y) (fun p q => p - q) s
def execVMul (d a b : BitVec 6) (m : BitVec 1) (k : BitVec 3) (x y : BitVec 1) (s : State) : Result :=
  vInt (.vMul d a b m k x y) (formAB d a b m k x y) (fun p q => p * q) s
def execVMulh (d a b : BitVec 6) (m : BitVec 1) (k : BitVec 3) (x y : BitVec 1) (s : State) : Result :=
  vInt (.vMulh d a b m k x y) (formAB d a b m k x y) (mulHigh) s
def execVAdds (d a b : BitVec 6) (m : BitVec 1) (k : BitVec 3) (x y : BitVec 1) (s : State) : Result :=
  vAB (.vAdds d a b m k x y) (formAB d a b m k x y) (fun _ => intSat (fun p q => p + q)) s
def execVSubs (d a b : BitVec 6) (m : BitVec 1) (k : BitVec 3) (x y : BitVec 1) (s : State) : Result :=
  vAB (.vSubs d a b m k x y) (formAB d a b m k x y) (fun _ => intSat (fun p q => p - q)) s
def execVAnd (d a b : BitVec 6) (m : BitVec 1) (k : BitVec 3) (x y : BitVec 1) (s : State) : Result :=
  vInt (.vAnd d a b m k x y) (formAB d a b m k x y) (fun p q => p &&& q) s
def execVOr (d a b : BitVec 6) (m : BitVec 1) (k : BitVec 3) (x y : BitVec 1) (s : State) : Result :=
  vInt (.vOr d a b m k x y) (formAB d a b m k x y) (fun p q => p ||| q) s
def execVXor (d a b : BitVec 6) (m : BitVec 1) (k : BitVec 3) (x y : BitVec 1) (s : State) : Result :=
  vInt (.vXor d a b m k x y) (formAB d a b m k x y) (fun p q => p ^^^ q) s
def execVShl (d a b : BitVec 6) (m : BitVec 1) (k : BitVec 3) (x y : BitVec 1) (s : State) : Result :=
  vInt (.vShl d a b m k x y) (formAB d a b m k x y) (fun p q => p <<< (q.toNat % 32)) s
def execVShr (d a b : BitVec 6) (m : BitVec 1) (k : BitVec 3) (x y : BitVec 1) (s : State) : Result :=
  vInt (.vShr d a b m k x y) (formAB d a b m k x y) (fun p q => p >>> (q.toNat % 32)) s
def execVSra (d a b : BitVec 6) (m : BitVec 1) (k : BitVec 3) (x y : BitVec 1) (s : State) : Result :=
  vInt (.vSra d a b m k x y) (formAB d a b m k x y) (fun p q => p.sshiftRight (q.toNat % 32)) s
def execVMin (d a b : BitVec 6) (m : BitVec 1) (k : BitVec 3) (x y : BitVec 1) (s : State) : Result :=
  vInt (.vMin d a b m k x y) (formAB d a b m k x y) (fun p q => if q.slt p then q else p) s
def execVMax (d a b : BitVec 6) (m : BitVec 1) (k : BitVec 3) (x y : BitVec 1) (s : State) : Result :=
  vInt (.vMax d a b m k x y) (formAB d a b m k x y) (fun p q => if p.slt q then q else p) s
def execVMinu (d a b : BitVec 6) (m : BitVec 1) (k : BitVec 3) (x y : BitVec 1) (s : State) : Result :=
  vInt (.vMinu d a b m k x y) (formAB d a b m k x y) (fun p q => if q.ult p then q else p) s
def execVMaxu (d a b : BitVec 6) (m : BitVec 1) (k : BitVec 3) (x y : BitVec 1) (s : State) : Result :=
  vInt (.vMaxu d a b m k x y) (formAB d a b m k x y) (fun p q => if p.ult q then q else p) s
def execVDiv (d a b : BitVec 6) (m : BitVec 1) (k : BitVec 3) (x y : BitVec 1) (s : State) : Result :=
  vInt (.vDiv d a b m k x y) (formAB d a b m k x y) (fun p q => (divide32 true p q).1) s
def execVDivu (d a b : BitVec 6) (m : BitVec 1) (k : BitVec 3) (x y : BitVec 1) (s : State) : Result :=
  vInt (.vDivu d a b m k x y) (formAB d a b m k x y) (fun p q => (divide32 false p q).1) s
def execVRem (d a b : BitVec 6) (m : BitVec 1) (k : BitVec 3) (x y : BitVec 1) (s : State) : Result :=
  vInt (.vRem d a b m k x y) (formAB d a b m k x y) (fun p q => (divide32 true p q).2) s
def execVRemu (d a b : BitVec 6) (m : BitVec 1) (k : BitVec 3) (x y : BitVec 1) (s : State) : Result :=
  vInt (.vRemu d a b m k x y) (formAB d a b m k x y) (fun p q => (divide32 false p q).2) s
def execVShli (d a i : BitVec 6) (m : BitVec 1) (k : BitVec 3) (x : BitVec 1) (s : State) : Result :=
  vImm (.vShli d a i m k x) (formAI d a i m k x) (fun w n => w <<< n) s
def execVShri (d a i : BitVec 6) (m : BitVec 1) (k : BitVec 3) (x : BitVec 1) (s : State) : Result :=
  vImm (.vShri d a i m k x) (formAI d a i m k x) (fun w n => w >>> n) s
def execVSrai (d a i : BitVec 6) (m : BitVec 1) (k : BitVec 3) (x : BitVec 1) (s : State) : Result :=
  vImm (.vSrai d a i m k x) (formAI d a i m k x) (fun w n => w.sshiftRight n) s
def execVWmacS8 (d a b : BitVec 6) (m : BitVec 1) (k : BitVec 3) (x y z : BitVec 1) (s : State) : Result :=
  vWmac (.vWmacS8 d a b m k x y z) (formABD d a b m k x y z) 8 true false s
def execVWmacU8 (d a b : BitVec 6) (m : BitVec 1) (k : BitVec 3) (x y z : BitVec 1) (s : State) : Result :=
  vWmac (.vWmacU8 d a b m k x y z) (formABD d a b m k x y z) 8 false false s
def execVWmacS16 (d a b : BitVec 6) (m : BitVec 1) (k : BitVec 3) (x y z : BitVec 1) (s : State) : Result :=
  vWmac (.vWmacS16 d a b m k x y z) (formABD d a b m k x y z) 16 true false s
def execVWmacU16 (d a b : BitVec 6) (m : BitVec 1) (k : BitVec 3) (x y z : BitVec 1) (s : State) : Result :=
  vWmac (.vWmacU16 d a b m k x y z) (formABD d a b m k x y z) 16 false false s
def execVWmacS8Sat (d a b : BitVec 6) (m : BitVec 1) (k : BitVec 3) (x y z : BitVec 1) (s : State) : Result :=
  vWmac (.vWmacS8Sat d a b m k x y z) (formABD d a b m k x y z) 8 true true s
def execVWmacU8Sat (d a b : BitVec 6) (m : BitVec 1) (k : BitVec 3) (x y z : BitVec 1) (s : State) : Result :=
  vWmac (.vWmacU8Sat d a b m k x y z) (formABD d a b m k x y z) 8 false true s
def execVWmacS16Sat (d a b : BitVec 6) (m : BitVec 1) (k : BitVec 3) (x y z : BitVec 1) (s : State) : Result :=
  vWmac (.vWmacS16Sat d a b m k x y z) (formABD d a b m k x y z) 16 true true s
def execVWmacU16Sat (d a b : BitVec 6) (m : BitVec 1) (k : BitVec 3) (x y z : BitVec 1) (s : State) : Result :=
  vWmac (.vWmacU16Sat d a b m k x y z) (formABD d a b m k x y z) 16 false true s

/-! Moves and conversions (R267). -/

def execVmov (d a : BitVec 6) (m : BitVec 1) (k : BitVec 3) (x : BitVec 1) (s : State) : Result :=
  vrun (.vmov d a m k x) (formA d a m k x) 8 (moved (fun i => i)) s
def execCvtTo (d a i : BitVec 6) (m : BitVec 1) (k : BitVec 3) (x : BitVec 1) (s : State) : Result :=
  vrun (.cvtTo d a i m k x) (formAI d a i m k x) 8 (lanes1 (fun o => cvtTo i.toNat o.rm o.satd)) s
def execCvtFrom (d a i : BitVec 6) (m : BitVec 1) (k : BitVec 3) (x : BitVec 1) (s : State) : Result :=
  vrun (.cvtFrom d a i m k x) (formAI d a i m k x) 8 (lanes1 (fun o => cvtFrom i.toNat o.rm o.satd)) s
def execCvtIto (d a i : BitVec 6) (m : BitVec 1) (k : BitVec 3) (x : BitVec 1) (s : State) : Result :=
  vrun (.cvtIto d a i m k x) (formAI d a i m k x) 8 (lanes1 (fun _ => cvtIto i.toNat)) s

/-! Rotations and broadcasts (R268). -/

def execVrotR (d a i : BitVec 6) (m : BitVec 1) (k : BitVec 3) (x : BitVec 1) (s : State) : Result :=
  vrun (.vrotR d a i m k x) (formAI d a i m k x) 8 (moved (fun j => 64 * (j / 64) + (j + 64 - i.toNat) % 64)) s
def execVrotC (d a i : BitVec 6) (m : BitVec 1) (k : BitVec 3) (x : BitVec 1) (s : State) : Result :=
  vrun (.vrotC d a i m k x) (formAI d a i m k x) 12 (moved (fun j => 64 * ((j / 64 + 16 - i.toNat % 16) % 16) + j % 64)) s
def execVbcc (d a i : BitVec 6) (m : BitVec 1) (k : BitVec 3) (x : BitVec 1) (s : State) : Result :=
  vrun (.vbcc d a i m k x) (formAI d a i m k x) 8 (moved (fun j => 64 * (j / 64) + i.toNat)) s
def execVbcr (d a i : BitVec 6) (m : BitVec 1) (k : BitVec 3) (x : BitVec 1) (s : State) : Result :=
  vrun (.vbcr d a i m k x) (formAI d a i m k x) 8 (moved (fun j => 64 * (i.toNat % 16) + j % 64)) s

/-! Reductions and scans (R269). -/

def execVredR (d a i : BitVec 6) (m : BitVec 1) (k : BitVec 3) (x : BitVec 1) (s : State) : Result :=
  vRed (.vredR d a i m k x) (formAI d a i m k x) 16 true s
def execVredC (d a i : BitVec 6) (m : BitVec 1) (k : BitVec 3) (x : BitVec 1) (s : State) : Result :=
  vRed (.vredC d a i m k x) (formAI d a i m k x) 12 false s
def execVscanR (d a i : BitVec 6) (m : BitVec 1) (k : BitVec 3) (x : BitVec 1) (s : State) : Result :=
  vScan (.vscanR d a i m k x) (formAI d a i m k x) 20 true s
def execVscanC (d a i : BitVec 6) (m : BitVec 1) (k : BitVec 3) (x : BitVec 1) (s : State) : Result :=
  vScan (.vscanC d a i m k x) (formAI d a i m k x) 14 false s

end Sys2Proof.Machine
end

