-- ==== Sys2Proof/Machine/XSlot.lean ====
section
/-! DEFINITION. The X slot: queues, masks, records and ports (R256, R257), tokens, and the swap of the compute sequencer
(R171, R197, R271). The X slot moves the group's program counter. -/
namespace Sys2Proof.Machine

/-- The end of an X-slot word: the group's program counter moves past it. -/
def xdone (s : State) (r : Res) : Result := finish .compute s (r.andOk (fun t => t.advance .compute))

/-! Value and result queues. -/

/-- Every lane holds one value, without poison. -/
def splat (w : Word32) : VReg := if w = 0 then [] else mtab 1024 .zero (fun _ => ⟨w, false⟩)

/-- The half of an entry that vqpop takes. -/
def queueHalf (v : Word64) (h : BitVec 1) : Word32 := if h = 1 then (v >>> 32).setWidth 32 else v.setWidth 32

def execVqpop (d : BitVec 6) (n h : BitVec 1) (s : State) : Result :=
  xdone s (match s.valueQueue n with
    | [] => .fail .queueUnderflow
    | v :: rest => .ok ((s.setValueQueue n rest).setV d.toNat (splat (queueHalf v h)) 4))
def execVqpopPeek (d : BitVec 6) (n h : BitVec 1) (s : State) : Result :=
  xdone s (match s.valueQueue n with
    | [] => .wait s
    | v :: _ => .ok (s.setV d.toNat (splat (queueHalf v h)) 4))
def execVqpopNr (d : BitVec 6) (n h : BitVec 1) (p : BitVec 4) (s : State) : Result :=
  xdone s (.ok (match s.valueQueue n with
    | [] => (s.setV d.toNat [] 4).setPred .compute p false
    | v :: rest => ((s.setValueQueue n rest).setV d.toNat (splat (queueHalf v h)) 4).setPred .compute p true))

/-- The image of an entry of a result queue: its value in lanes 0 and 1 and its status in lane 2. -/
def entryImage (v : Word64) (st : BitVec 6) : VReg :=
  mtab 3 .zero (fun i => ⟨if i = 0 then v.setWidth 32 else if i = 1 then (v >>> 32).setWidth 32 else st.setWidth 32, false⟩)

/-- What a group sees of mq: a push of the group's own M slot is not there before the group issues (R302). -/
def State.mqAtIssue (s : State) : List (Word64 × BitVec 6 × Nat) := if (s.vec.image.map AtIssue.pushed).getD true then s.mat.mq else []

/-- The oldest entry of mq, fq or cq (0, 1, 2), with the state without it. -/
def State.takeEntry (s : State) (q : BitVec 2) : Option (Word64 × BitVec 6 × State) :=
  match q.toNat with
  | 0 => match s.mqAtIssue with
    | [] => none
    | (v, st, _) :: rest => some (v, st, { s with mat := { s.mat with mq := rest } })
  | 1 => match s.mu.fq with
    | [] => none
    | (v, st) :: _ => some (v, st, s.popFq)
  | _ => match s.eng.cq with
    | [] => none
    | (v, st) :: rest => some (v, st, { s with eng := { s.eng with cq := rest } })

/-- An operation that will push to a queue is outstanding (R256). -/
def State.pushDue (s : State) (q : BitVec 2) : Bool :=
  match q.toNat with
  | 0 => false
  | 1 => !s.ownOps.isEmpty
  | _ => s.pushesDue != 0

/-- The engine time at which the oldest push of mq is done: its wait counts as self-cycles (R302). -/
def State.mqTime (s : State) : Nat := match s.mqAtIssue with
  | [] => 0
  | (_, _, t) :: _ => t

/-- The wait of a pop of mq for the oldest push. -/
def State.awaitMq (s : State) (q : BitVec 2) : State := if q.toNat = 0 then s.selfTo s.mqTime else s

def execRqpop (d : BitVec 6) (q : BitVec 2) (s : State) : Result :=
  let s1 := s.awaitMq q
  xdone s (match s1.takeEntry q with
    | some (v, st, t) => .ok (t.setV d.toNat (entryImage v st) 4)
    | none => if s1.pushDue q then .wait s else .fail .queueUnderflow)
/-- The not-ready form never waits: a push of mq that is not done is not there. -/
def execRqpopNr (d : BitVec 6) (q : BitVec 2) (p : BitVec 4) (s : State) : Result :=
  xdone s (.ok (match (if q.toNat = 0 && s.vec.now < s.mqTime then none else s.takeEntry q) with
    | some (v, st, t) => (t.setV d.toNat (entryImage v st) 4).setPred .compute p true
    | none => (s.setV d.toNat [] 4).setPred .compute p false))

/-! Masks. -/

/-- A mask operation: its result is readable from the next cycle (R253). -/
def maskOp (d : BitVec 3) (m : BitVec 1024) (s : State) : Result := xdone s (.ok (s.setK d.toNat m 1))

def execKand (d a b : BitVec 3) (s : State) : Result := maskOp d (s.kReg a.toNat &&& s.kReg b.toNat) s
def execKor (d a b : BitVec 3) (s : State) : Result := maskOp d (s.kReg a.toNat ||| s.kReg b.toNat) s
def execKxor (d a b : BitVec 3) (s : State) : Result := maskOp d (s.kReg a.toNat ^^^ s.kReg b.toNat) s
def execKandn (d a b : BitVec 3) (s : State) : Result := maskOp d (s.kReg a.toNat &&& ~~~s.kReg b.toNat) s
def execKnot (d a : BitVec 3) (s : State) : Result := maskOp d (~~~s.kReg a.toNat) s
def execKset (d : BitVec 3) (s : State) : Result := maskOp d (BitVec.allOnes 1024) s
def execKclr (d : BitVec 3) (s : State) : Result := maskOp d 0 s
def execKany (p : BitVec 4) (a : BitVec 3) (s : State) : Result :=
  xdone s (.ok (s.setPred .compute p (s.kReg a.toNat != 0)))
def execKall (p : BitVec 4) (a : BitVec 3) (s : State) : Result :=
  xdone s (.ok (s.setPred .compute p (s.kReg a.toNat == BitVec.allOnes 1024)))

/-! Records and ports. -/

/-- A record with one word replaced. -/
def Record.setWord (r : Record) (w : BitVec 2) (v : Word64) : Record :=
  match w.toNat with
  | 0 => { r with w0 := v }
  | 1 => { r with w1 := v }
  | _ => { r with w2 := v }

def execSset (r : BitVec 4) (w : BitVec 2) (v : BitVec 1) (s : State) : Result :=
  xdone s (match s.valueQueue v with
    | [] => .fail .queueUnderflow
    | x :: rest =>
      let t := s.setValueQueue v rest
      .ok { t with vec := { t.vec with records := mset t.vec.records .zero r.toNat ((t.recordOf r.toNat).setWord w x) } })

/-- Binding an output port waits until its images of the old walk have been performed (R257). -/
def execSbind (d : BitVec 1) (p : BitVec 3) (r : BitVec 4) (s : State) : Result :=
  xdone s (if s.recordFault r.toNat then .fail .fieldRange
    else if d = 0 then .ok (s.bindIn p.toNat (some (s.bindingOf r.toNat)))
    else if s.outBusy p.toNat then .wait s
    else .ok (s.bindOut p.toNat (some (s.bindingOf r.toNat))))
def execSunbind (d : BitVec 1) (p : BitVec 3) (s : State) : Result :=
  xdone s (if d = 0 then .ok (s.bindIn p.toNat none)
    else if s.outBusy p.toNat then .wait s
    else .ok (s.bindOut p.toNat none))
def execQrdy (p : BitVec 4) (q : BitVec 3) (s : State) : Result :=
  xdone s (.ok (s.setPred .compute p ((s.inPort q.toNat).images.any (fun i => i.fault.isNone && i.rows == 16))))

/-! Tokens and swaps. -/

/-- A put waits for every earlier acc.st, not for one of its own group (R301). -/
def execXTokPut (q : BitVec 3) (n : BitVec 8) (s : State) : Result :=
  xdone s (tokenPut q n (s.selfTo ((s.vec.image.map AtIssue.stored).getD s.mat.stored)))
def execXTokGet (q : BitVec 3) (n : BitVec 8) (s : State) : Result := xdone s (tokenGet q n s)

/-- A sequencer reaches its swap; the last one completes the rendezvous (R171, R197). -/
def State.reach (s : State) (i : Nat) (yields : Bool) : State :=
  let s1 := { s with phase := { s.phase with reached := putBit s.phase.reached i true, yields := s.phase.yields || yields } }
  if s1.allReached then s1.postOnce .swapRendezvous else s1

/-- The self-cycles from now on until the last result of the phase is readable and the last matrix work is done (R171, R271, R298). -/
def State.retireWait (s : State) : Nat := max (s.vec.ready.foldl (fun t x => max t x.2) 0) (s.accTime [0, 1, 2, 3]) - s.vec.now

/-- The compute sequencer's swap issues; it is reached once every operation of the phase has retired (R171). -/
def computeSwap (yields : Bool) (s : State) : Result :=
  finish .compute s (.ok { s with phase := { s.phase with swapping := some yields } })

def execSwap (s : State) : Result := computeSwap false s
def execXYield (s : State) : Result := computeSwap true s

/-- The compute sequencer reaches the swap that has issued, once the matrix engine has retired its operations in fact (R171, R298). -/
def State.reachSwap (s : State) : State :=
  match s.phase.swapping with
  | none => s
  | some yields => if s.mat.ops.isEmpty then ({ s with phase := { s.phase with swapping := none } }).reach 1 yields else s

/-- The swap of the load or store sequencer, a release that waits for the claims of its region (R147). -/
def engineSwap (yields : Bool) (s : State) : Result :=
  finish s.engineSeq s (if s.opsClaim s.engineSeq then .wait s else .ok (s.reach (if s.engineSeq = .store then 2 else 0) yields))
def execESwap (s : State) : Result := engineSwap false s
def execEYield (s : State) : Result := engineSwap true s

/-- phase.begin issues as a nop: the record it names is read before its group issues (R174); in any group but the first of
a phase it raises ILLEGAL, except in compatibility mode (R185). -/
def execPhaseBegin (i : BitVec 8) (s : State) : Result :=
  xdone s (if s.phase.first || s.compat then .ok s else .trap .illegal (w64 (3 * 2 ^ 32 + (0x1E#6 ++ 0#18 ++ i : BitVec 32).toNat)) 0)

end Sys2Proof.Machine
end

