-- ==== Sys2Proof/Machine/Dispatch.lean ====
section
/-! DEFINITION. The dispatch of every constructor to its meaning. -/
namespace Sys2Proof.Machine

/-- The meaning of an instruction or event. -/
def exec (i : Instr) (s : State) : Host.Outcome State Fault Refusal :=
  match i with
  | .add d a b => Sys2Proof.Machine.execAdd d a b s
  | .sub d a b => Sys2Proof.Machine.execSub d a b s
  | .and d a b => Sys2Proof.Machine.execAnd d a b s
  | .or d a b => Sys2Proof.Machine.execOr d a b s
  | .xor d a b => Sys2Proof.Machine.execXor d a b s
  | .andn d a b => Sys2Proof.Machine.execAndn d a b s
  | .shl d a b => Sys2Proof.Machine.execShl d a b s
  | .shr d a b => Sys2Proof.Machine.execShr d a b s
  | .sra d a b => Sys2Proof.Machine.execSra d a b s
  | .rol d a b => Sys2Proof.Machine.execRol d a b s
  | .mul d a b => Sys2Proof.Machine.execMul d a b s
  | .mulh d a b => Sys2Proof.Machine.execMulh d a b s
  | .mulhu d a b => Sys2Proof.Machine.execMulhu d a b s
  | .div d a b => Sys2Proof.Machine.execDiv d a b s
  | .divu d a b => Sys2Proof.Machine.execDivu d a b s
  | .rem d a b => Sys2Proof.Machine.execRem d a b s
  | .remu d a b => Sys2Proof.Machine.execRemu d a b s
  | .min d a b => Sys2Proof.Machine.execMin d a b s
  | .max d a b => Sys2Proof.Machine.execMax d a b s
  | .minu d a b => Sys2Proof.Machine.execMinu d a b s
  | .maxu d a b => Sys2Proof.Machine.execMaxu d a b s
  | .adds d a b => Sys2Proof.Machine.execAdds d a b s
  | .subs d a b => Sys2Proof.Machine.execSubs d a b s
  | .clz d a => Sys2Proof.Machine.execClz d a s
  | .ctz d a => Sys2Proof.Machine.execCtz d a s
  | .popc d a => Sys2Proof.Machine.execPopc d a s
  | .sextb d a => Sys2Proof.Machine.execSextb d a s
  | .sexth d a => Sys2Proof.Machine.execSexth d a s
  | .sextw d a => Sys2Proof.Machine.execSextw d a s
  | .zextw d a => Sys2Proof.Machine.execZextw d a s
  | .addi d a j => Sys2Proof.Machine.execAddi d a j s
  | .andi d a j => Sys2Proof.Machine.execAndi d a j s
  | .ori d a j => Sys2Proof.Machine.execOri d a j s
  | .xori d a j => Sys2Proof.Machine.execXori d a j s
  | .shli d a n => Sys2Proof.Machine.execShli d a n s
  | .shri d a n => Sys2Proof.Machine.execShri d a n s
  | .srai d a n => Sys2Proof.Machine.execSrai d a n s
  | .roli d a n => Sys2Proof.Machine.execRoli d a n s
  | .movi d j => Sys2Proof.Machine.execMovi d j s
  | .movk d h c => Sys2Proof.Machine.execMovk d h c s
  | .aset d a b => Sys2Proof.Machine.execAset d a b s
  | .aadd d a b => Sys2Proof.Machine.execAadd d a b s
  | .asub d a b => Sys2Proof.Machine.execAsub d a b s
  | .alo d a => Sys2Proof.Machine.execAlo d a s
  | .ahi d a => Sys2Proof.Machine.execAhi d a s
  | .aand d a b => Sys2Proof.Machine.execAand d a b s
  | .amov d a => Sys2Proof.Machine.execAmov d a s
  | .aaddi d a j => Sys2Proof.Machine.execAaddi d a j s
  | .cmpEq p a b => Sys2Proof.Machine.execCmpEq p a b s
  | .cmpNe p a b => Sys2Proof.Machine.execCmpNe p a b s
  | .cmpLt p a b => Sys2Proof.Machine.execCmpLt p a b s
  | .cmpGe p a b => Sys2Proof.Machine.execCmpGe p a b s
  | .cmpLtu p a b => Sys2Proof.Machine.execCmpLtu p a b s
  | .cmpGeu p a b => Sys2Proof.Machine.execCmpGeu p a b s
  | .acmpEq p a b => Sys2Proof.Machine.execAcmpEq p a b s
  | .acmpLtu p a b => Sys2Proof.Machine.execAcmpLtu p a b s
  | .tst p a b => Sys2Proof.Machine.execTst p a b s
  | .pand d a b => Sys2Proof.Machine.execPand d a b s
  | .por d a b => Sys2Proof.Machine.execPor d a b s
  | .pxor d a b => Sys2Proof.Machine.execPxor d a b s
  | .pandn d a b => Sys2Proof.Machine.execPandn d a b s
  | .prd d => Sys2Proof.Machine.execPrd d s
  | .pwr a => Sys2Proof.Machine.execPwr a s
  | .cmpiEq p a c => Sys2Proof.Machine.execCmpiEq p a c s
  | .cmpiNe p a c => Sys2Proof.Machine.execCmpiNe p a c s
  | .cmpiLt p a c => Sys2Proof.Machine.execCmpiLt p a c s
  | .cmpiGe p a c => Sys2Proof.Machine.execCmpiGe p a c s
  | .cmpiLtu p a c => Sys2Proof.Machine.execCmpiLtu p a c s
  | .cmpiGeu p a c => Sys2Proof.Machine.execCmpiGeu p a c s
  | .sel d a b n p => Sys2Proof.Machine.execSel d a b n p s
  | .asel d a b n p => Sys2Proof.Machine.execAsel d a b n p s
  | .br n p o => Sys2Proof.Machine.execBr n p o s
  | .call n p o => Sys2Proof.Machine.execCall n p o s
  | .jmp a => Sys2Proof.Machine.execJmp a s
  | .callr a => Sys2Proof.Machine.execCallr a s
  | .loop r c o => Sys2Proof.Machine.execLoop r c o s
  | .lcset j c a d => Sys2Proof.Machine.execLcset j c a d s
  | .lcseti j c d n => Sys2Proof.Machine.execLcseti j c d n s
  | .mset m a b => Sys2Proof.Machine.execMset m a b s
  | .mrd d m => Sys2Proof.Machine.execMrd d m s
  | .lcrd d c => Sys2Proof.Machine.execLcrd d c s
  | .lcwr c a => Sys2Proof.Machine.execLcwr c a s
  | .ld d a m z o => Sys2Proof.Machine.execLd d a m z o s
  | .ldx d a m z o => Sys2Proof.Machine.execLdx d a m z o s
  | .st d a m z o => Sys2Proof.Machine.execSt d a m z o s
  | .sld d a m z r o => Sys2Proof.Machine.execSld d a m z r o s
  | .sldx d a m z r o => Sys2Proof.Machine.execSldx d a m z r o s
  | .sst d a m z r o => Sys2Proof.Machine.execSst d a m z r o s
  | .stDue d a c z l t g => Sys2Proof.Machine.execStDue d a c z l t g s
  | .ldNb d a c z x t => Sys2Proof.Machine.execLdNb d a c z x t s
  | .amoAdd d a b o c w => Sys2Proof.Machine.execAmoAdd d a b o c w s
  | .amoAnd d a b o c w => Sys2Proof.Machine.execAmoAnd d a b o c w s
  | .amoOr d a b o c w => Sys2Proof.Machine.execAmoOr d a b o c w s
  | .amoXor d a b o c w => Sys2Proof.Machine.execAmoXor d a b o c w s
  | .amoMin d a b o c w => Sys2Proof.Machine.execAmoMin d a b o c w s
  | .amoMax d a b o c w => Sys2Proof.Machine.execAmoMax d a b o c w s
  | .amoMinu d a b o c w => Sys2Proof.Machine.execAmoMinu d a b o c w s
  | .amoMaxu d a b o c w => Sys2Proof.Machine.execAmoMaxu d a b o c w s
  | .amoSwap d a b o c w => Sys2Proof.Machine.execAmoSwap d a b o c w s
  | .amoCas d a b o c w => Sys2Proof.Machine.execAmoCas d a b o c w s
  | .sealPage a => Sys2Proof.Machine.execSealPage a s
  | .unsealPage a => Sys2Proof.Machine.execUnsealPage a s
  | .clmq d a => Sys2Proof.Machine.execClmq d a s
  | .fopCas2 a b => Sys2Proof.Machine.execFopCas2 a b s
  | .fopCas4 a b => Sys2Proof.Machine.execFopCas4 a b s
  | .fopEnq a b => Sys2Proof.Machine.execFopEnq a b s
  | .fopChase c a b => Sys2Proof.Machine.execFopChase c a b s
  | .fopProg c a b j => Sys2Proof.Machine.execFopProg c a b j s
  | .fopRel b t => Sys2Proof.Machine.execFopRel b t s
  | .fpop d z => Sys2Proof.Machine.execFpop d z s
  | .fpopNr d p z => Sys2Proof.Machine.execFpopNr d p z s
  | .fstat d => Sys2Proof.Machine.execFstat d s
  | .tokPut q n => Sys2Proof.Machine.execTokPut q n s
  | .tokGet q n => Sys2Proof.Machine.execTokGet q n s
  | .vqpush n a => Sys2Proof.Machine.execVqpush n a s
  | .join d a => Sys2Proof.Machine.execJoin d a s
  | .leave a => Sys2Proof.Machine.execLeave a s
  | .barArrive d a => Sys2Proof.Machine.execBarArrive d a s
  | .barWait a b => Sys2Proof.Machine.execBarWait a b s
  | .dissolve a => Sys2Proof.Machine.execDissolve a s
  | .launch d a b => Sys2Proof.Machine.execLaunch d a b s
  | .wait a => Sys2Proof.Machine.execWait a s
  | .setprio a b => Sys2Proof.Machine.execSetprio a b s
  | .tagAny d a c => Sys2Proof.Machine.execTagAny d a c s
  | .tagAll d a c => Sys2Proof.Machine.execTagAll d a c s
  | .tagFirst d a => Sys2Proof.Machine.execTagFirst d a s
  | .rpop d p => Sys2Proof.Machine.execRpop d p s
  | .rpush a => Sys2Proof.Machine.execRpush a s
  | .csrr d c => Sys2Proof.Machine.execCsrr d c s
  | .csrw a c => Sys2Proof.Machine.execCsrw a c s
  | .csrs d a c => Sys2Proof.Machine.execCsrs d a c s
  | .csrc d a c => Sys2Proof.Machine.execCsrc d a c s
  | .csrrw d a c => Sys2Proof.Machine.execCsrrw d a c s
  | .rdclk d => Sys2Proof.Machine.execRdclk d s
  | .clkadd d a => Sys2Proof.Machine.execClkadd d a s
  | .locq d a => Sys2Proof.Machine.execLocq d a s
  | .locqT d a => Sys2Proof.Machine.execLocqT d a s
  | .tmplLd t z a o => Sys2Proof.Machine.execTmplLd t z a o s
  | .trap a => Sys2Proof.Machine.execTrap a s
  | .hcall a => Sys2Proof.Machine.execHcall a s
  | .contain a => Sys2Proof.Machine.execContain a s
  | .wsw a => Sys2Proof.Machine.execWsw a s
  | .invalVa a b => Sys2Proof.Machine.execInvalVa a b s
  | .invalAsid b => Sys2Proof.Machine.execInvalAsid b s
  | .mwclr b => Sys2Proof.Machine.execMwclr b s
  | .vFadd d a b m k x y => Sys2Proof.Machine.execVFadd d a b m k x y s
  | .vFsub d a b m k x y => Sys2Proof.Machine.execVFsub d a b m k x y s
  | .vFmul d a b m k x y => Sys2Proof.Machine.execVFmul d a b m k x y s
  | .vFma d a b m k x y z => Sys2Proof.Machine.execVFma d a b m k x y z s
  | .vFms d a b m k x y z => Sys2Proof.Machine.execVFms d a b m k x y z s
  | .vFmin d a b m k x y => Sys2Proof.Machine.execVFmin d a b m k x y s
  | .vFmax d a b m k x y => Sys2Proof.Machine.execVFmax d a b m k x y s
  | .vFabs d a m k x => Sys2Proof.Machine.execVFabs d a m k x s
  | .vFneg d a m k x => Sys2Proof.Machine.execVFneg d a m k x s
  | .vFcmpEq d a b m k x y => Sys2Proof.Machine.execVFcmpEq d a b m k x y s
  | .vFcmpLt d a b m k x y => Sys2Proof.Machine.execVFcmpLt d a b m k x y s
  | .vFcmpLe d a b m k x y => Sys2Proof.Machine.execVFcmpLe d a b m k x y s
  | .vFcmpUn d a b m k x y => Sys2Proof.Machine.execVFcmpUn d a b m k x y s
  | .vAdd d a b m k x y => Sys2Proof.Machine.execVAdd d a b m k x y s
  | .vSub d a b m k x y => Sys2Proof.Machine.execVSub d a b m k x y s
  | .vMul d a b m k x y => Sys2Proof.Machine.execVMul d a b m k x y s
  | .vMulh d a b m k x y => Sys2Proof.Machine.execVMulh d a b m k x y s
  | .vAdds d a b m k x y => Sys2Proof.Machine.execVAdds d a b m k x y s
  | .vSubs d a b m k x y => Sys2Proof.Machine.execVSubs d a b m k x y s
  | .vAnd d a b m k x y => Sys2Proof.Machine.execVAnd d a b m k x y s
  | .vOr d a b m k x y => Sys2Proof.Machine.execVOr d a b m k x y s
  | .vXor d a b m k x y => Sys2Proof.Machine.execVXor d a b m k x y s
  | .vShl d a b m k x y => Sys2Proof.Machine.execVShl d a b m k x y s
  | .vShr d a b m k x y => Sys2Proof.Machine.execVShr d a b m k x y s
  | .vSra d a b m k x y => Sys2Proof.Machine.execVSra d a b m k x y s
  | .vMin d a b m k x y => Sys2Proof.Machine.execVMin d a b m k x y s
  | .vMax d a b m k x y => Sys2Proof.Machine.execVMax d a b m k x y s
  | .vMinu d a b m k x y => Sys2Proof.Machine.execVMinu d a b m k x y s
  | .vMaxu d a b m k x y => Sys2Proof.Machine.execVMaxu d a b m k x y s
  | .vDiv d a b m k x y => Sys2Proof.Machine.execVDiv d a b m k x y s
  | .vDivu d a b m k x y => Sys2Proof.Machine.execVDivu d a b m k x y s
  | .vRem d a b m k x y => Sys2Proof.Machine.execVRem d a b m k x y s
  | .vRemu d a b m k x y => Sys2Proof.Machine.execVRemu d a b m k x y s
  | .vIcmpEq d a b m k x y => Sys2Proof.Machine.execVIcmpEq d a b m k x y s
  | .vIcmpLt d a b m k x y => Sys2Proof.Machine.execVIcmpLt d a b m k x y s
  | .vIcmpLtu d a b m k x y => Sys2Proof.Machine.execVIcmpLtu d a b m k x y s
  | .vShli d a j m k x => Sys2Proof.Machine.execVShli d a j m k x s
  | .vShri d a j m k x => Sys2Proof.Machine.execVShri d a j m k x s
  | .vSrai d a j m k x => Sys2Proof.Machine.execVSrai d a j m k x s
  | .vWmacS8 d a b m k x y z => Sys2Proof.Machine.execVWmacS8 d a b m k x y z s
  | .vWmacU8 d a b m k x y z => Sys2Proof.Machine.execVWmacU8 d a b m k x y z s
  | .vWmacS16 d a b m k x y z => Sys2Proof.Machine.execVWmacS16 d a b m k x y z s
  | .vWmacU16 d a b m k x y z => Sys2Proof.Machine.execVWmacU16 d a b m k x y z s
  | .vWmacS8Sat d a b m k x y z => Sys2Proof.Machine.execVWmacS8Sat d a b m k x y z s
  | .vWmacU8Sat d a b m k x y z => Sys2Proof.Machine.execVWmacU8Sat d a b m k x y z s
  | .vWmacS16Sat d a b m k x y z => Sys2Proof.Machine.execVWmacS16Sat d a b m k x y z s
  | .vWmacU16Sat d a b m k x y z => Sys2Proof.Machine.execVWmacU16Sat d a b m k x y z s
  | .vsel d a b k x y => Sys2Proof.Machine.execVsel d a b k x y s
  | .vptst d a m k x => Sys2Proof.Machine.execVptst d a m k x s
  | .vmov d a m k x => Sys2Proof.Machine.execVmov d a m k x s
  | .cvtTo d a f m k x => Sys2Proof.Machine.execCvtTo d a f m k x s
  | .cvtFrom d a f m k x => Sys2Proof.Machine.execCvtFrom d a f m k x s
  | .cvtIto d a f m k x => Sys2Proof.Machine.execCvtIto d a f m k x s
  | .vrotR d a j m k x => Sys2Proof.Machine.execVrotR d a j m k x s
  | .vrotC d a j m k x => Sys2Proof.Machine.execVrotC d a j m k x s
  | .vbcc d a j m k x => Sys2Proof.Machine.execVbcc d a j m k x s
  | .vbcr d a j m k x => Sys2Proof.Machine.execVbcr d a j m k x s
  | .vredR d a j m k x => Sys2Proof.Machine.execVredR d a j m k x s
  | .vredC d a j m k x => Sys2Proof.Machine.execVredC d a j m k x s
  | .vscanR d a j m k x => Sys2Proof.Machine.execVscanR d a j m k x s
  | .vscanC d a j m k x => Sys2Proof.Machine.execVscanC d a j m k x s
  | .dnorm d a x => Sys2Proof.Machine.execDnorm d a x s
  | .dexp d a m k => Sys2Proof.Machine.execDexp d a m k s
  | .ddot d a b m k => Sys2Proof.Machine.execDdot d a b m k s
  | .ddotn d a b m k => Sys2Proof.Machine.execDdotn d a b m k s
  | .dadd d a b => Sys2Proof.Machine.execDadd d a b s
  | .dsub d a b => Sys2Proof.Machine.execDsub d a b s
  | .dscl d a b y => Sys2Proof.Machine.execDscl d a b y s
  | .dscli d a j => Sys2Proof.Machine.execDscli d a j s
  | .dtst d a j => Sys2Proof.Machine.execDtst d a j s
  | .dcomp d a m k => Sys2Proof.Machine.execDcomp d a m k s
  | .dnget d a m k => Sys2Proof.Machine.execDnget d a m k s
  | .lcvt d a j m k x => Sys2Proof.Machine.execLcvt d a j m k x s
  | .lmul d a b m k x y => Sys2Proof.Machine.execLmul d a b m k x y s
  | .ldiv d a b m k x y => Sys2Proof.Machine.execLdiv d a b m k x y s
  | .lsh d a r z m k x => Sys2Proof.Machine.execLsh d a r z m k x s
  | .lfn d a j m k x => Sys2Proof.Machine.execLfn d a j m k x s
  | .vqpop d n h => Sys2Proof.Machine.execVqpop d n h s
  | .vqpopPeek d n h => Sys2Proof.Machine.execVqpopPeek d n h s
  | .vqpopNr d n h p => Sys2Proof.Machine.execVqpopNr d n h p s
  | .rqpop d q => Sys2Proof.Machine.execRqpop d q s
  | .rqpopNr d q p => Sys2Proof.Machine.execRqpopNr d q p s
  | .kand d a b => Sys2Proof.Machine.execKand d a b s
  | .kor d a b => Sys2Proof.Machine.execKor d a b s
  | .kxor d a b => Sys2Proof.Machine.execKxor d a b s
  | .kandn d a b => Sys2Proof.Machine.execKandn d a b s
  | .knot d a => Sys2Proof.Machine.execKnot d a s
  | .kset d => Sys2Proof.Machine.execKset d s
  | .kclr d => Sys2Proof.Machine.execKclr d s
  | .kany p a => Sys2Proof.Machine.execKany p a s
  | .kall p a => Sys2Proof.Machine.execKall p a s
  | .sset r w v => Sys2Proof.Machine.execSset r w v s
  | .sbind d p r => Sys2Proof.Machine.execSbind d p r s
  | .sunbind d p => Sys2Proof.Machine.execSunbind d p s
  | .qrdy p q => Sys2Proof.Machine.execQrdy p q s
  | .xBr n p o => Sys2Proof.Machine.execXBr n p o s
  | .xLoop r c o => Sys2Proof.Machine.execXLoop r c o s
  | .xLcseti j c d n => Sys2Proof.Machine.execXLcseti j c d n s
  | .xTokPut q n => Sys2Proof.Machine.execXTokPut q n s
  | .xTokGet q n => Sys2Proof.Machine.execXTokGet q n s
  | .phaseBegin j => Sys2Proof.Machine.execPhaseBegin j s
  | .eLoop r c o => Sys2Proof.Machine.execELoop r c o s
  | .eLcseti j c d n => Sys2Proof.Machine.execELcseti j c d n s
  | .eBr n p o => Sys2Proof.Machine.execEBr n p o s
  | .eTokPut q n => Sys2Proof.Machine.execETokPut q n s
  | .eTokGet q n => Sys2Proof.Machine.execETokGet q n s
  | .tagwAny c h l => Sys2Proof.Machine.execTagwAny c h l s
  | .tagwAll c h l => Sys2Proof.Machine.execTagwAll c h l s
  | .tagwTst c p h l => Sys2Proof.Machine.execTagwTst c p h l s
  | .patch z f v h q g c => Sys2Proof.Machine.execPatch z f v h q g c s
  | .patchM z f v h q g c => Sys2Proof.Machine.execPatchM z f v h q g c s
  | .accClr a => Sys2Proof.Machine.execAccClr a s
  | .accLd a f n o => Sys2Proof.Machine.execAccLd a f n o s
  | .accSt a f n o => Sys2Proof.Machine.execAccSt a f n o s
  | .accMov d a => Sys2Proof.Machine.execAccMov d a s
  | .accTov d a q => Sys2Proof.Machine.execAccTov d a q s
  | .accFromv a q z => Sys2Proof.Machine.execAccFromv a q z s
  | .mpush a r c l => Sys2Proof.Machine.execMpush a r c l s
  | .mwait a => Sys2Proof.Machine.execMwait a s
  | .nop => Sys2Proof.Machine.execNop s
  | .fenceCore => Sys2Proof.Machine.execFenceCore s
  | .fenceDie => Sys2Proof.Machine.execFenceDie s
  | .fencePkg => Sys2Proof.Machine.execFencePkg s
  | .fencePod => Sys2Proof.Machine.execFencePod s
  | .ffence => Sys2Proof.Machine.execFfence s
  | .trigger => Sys2Proof.Machine.execTrigger s
  | .yield => Sys2Proof.Machine.execYield s
  | .exit => Sys2Proof.Machine.execExit s
  | .brk => Sys2Proof.Machine.execBrk s
  | .tret => Sys2Proof.Machine.execTret s
  | .wdsvc => Sys2Proof.Machine.execWdsvc s
  | .invalAll => Sys2Proof.Machine.execInvalAll s
  | .vNop => Sys2Proof.Machine.execVNop s
  | .xNop => Sys2Proof.Machine.execXNop s
  | .swap => Sys2Proof.Machine.execSwap s
  | .xYield => Sys2Proof.Machine.execXYield s
  | .eNop => Sys2Proof.Machine.execENop s
  | .eSwap => Sys2Proof.Machine.execESwap s
  | .eYield => Sys2Proof.Machine.execEYield s
  | .mNop => Sys2Proof.Machine.execMNop s
  | .mwaitAll => Sys2Proof.Machine.execMwaitAll s
  | .arrive => Sys2Proof.Machine.execArrive s
  | .gather => Sys2Proof.Machine.execGather s
  | .depart => Sys2Proof.Machine.execDepart s
  | .mcast => Sys2Proof.Machine.execMcast s
  | .relay => Sys2Proof.Machine.execRelay s
  | .fill => Sys2Proof.Machine.execFill s
  | .mapInstall => Sys2Proof.Machine.execMapInstall s
  | .mapSwap => Sys2Proof.Machine.execMapSwap s
  | .mapRetire => Sys2Proof.Machine.execMapRetire s
  | .mapQuery => Sys2Proof.Machine.execMapQuery s
  | .ringInit => Sys2Proof.Machine.execRingInit s
  | .allgather => Sys2Proof.Machine.execAllgather s
  | .redscat => Sys2Proof.Machine.execRedscat s
  | .allred => Sys2Proof.Machine.execAllred s
  | .bcast => Sys2Proof.Machine.execBcast s
  | .permute => Sys2Proof.Machine.execPermute s
  | .mma => Sys2Proof.Machine.execMma s
  | .mmaKStep => Sys2Proof.Machine.execMmaKStep s
  | .mmaRetire => Sys2Proof.Machine.execMmaRetire s
  | .packetHeader => Sys2Proof.Machine.execPacketHeader s
  | .packetBeat => Sys2Proof.Machine.execPacketBeat s
  | .packetAnswer => Sys2Proof.Machine.execPacketAnswer s
  | .copyComplete => Sys2Proof.Machine.execCopyComplete s
  | .holdTimeout => Sys2Proof.Machine.execHoldTimeout s
  | .mapBoundary => Sys2Proof.Machine.execMapBoundary s
  | .portRowRead => Sys2Proof.Machine.execPortRowRead s
  | .portRowWrite => Sys2Proof.Machine.execPortRowWrite s
  | .overflowLogDrain => Sys2Proof.Machine.execOverflowLogDrain s
  | .unlandedLogDrain => Sys2Proof.Machine.execUnlandedLogDrain s
  | .mwulogDrain => Sys2Proof.Machine.execMwulogDrain s
  | .translationWalk => Sys2Proof.Machine.execTranslationWalk s
  | .homeAccess => Sys2Proof.Machine.execHomeAccess s
  | .loadReturn => Sys2Proof.Machine.execLoadReturn s
  | .storeQueueDepart => Sys2Proof.Machine.execStoreQueueDepart s
  | .storeAck => Sys2Proof.Machine.execStoreAck s
  | .timedStoreArrival => Sys2Proof.Machine.execTimedStoreArrival s
  | .timedStoreDue => Sys2Proof.Machine.execTimedStoreDue s
  | .notBeforePerform => Sys2Proof.Machine.execNotBeforePerform s
  | .pinAtHome => Sys2Proof.Machine.execPinAtHome s
  | .unpinAtHome => Sys2Proof.Machine.execUnpinAtHome s
  | .factorAtHome => Sys2Proof.Machine.execFactorAtHome s
  | .factorResult => Sys2Proof.Machine.execFactorResult s
  | .swapRendezvous => Sys2Proof.Machine.execSwapRendezvous s
  | .taskSave => Sys2Proof.Machine.execTaskSave s
  | .selectionRound => Sys2Proof.Machine.execSelectionRound s
  | .bindTask => Sys2Proof.Machine.execBindTask s
  | .taskStart => Sys2Proof.Machine.execTaskStart s
  | .asyncCause => Sys2Proof.Machine.execAsyncCause s
  | .watchdogExpiry => Sys2Proof.Machine.execWatchdogExpiry s
  | .correctableFreeze => Sys2Proof.Machine.execCorrectableFreeze s
  | .freezeEnd => Sys2Proof.Machine.execFreezeEnd s
  | .uncorrectableError => Sys2Proof.Machine.execUncorrectableError s
  | .containedStop => Sys2Proof.Machine.execContainedStop s
  | .leaveGrant => Sys2Proof.Machine.execLeaveGrant s
  | .leaveTimeout => Sys2Proof.Machine.execLeaveTimeout s
  | .throttleStep => Sys2Proof.Machine.execThrottleStep s
  | .thermalStop => Sys2Proof.Machine.execThermalStop s
  | .clockTick => Sys2Proof.Machine.execClockTick s
  | .syncMessage => Sys2Proof.Machine.execSyncMessage s
  | .lockLoss => Sys2Proof.Machine.execLockLoss s
  | .reset => Sys2Proof.Machine.execReset s
  | .pkgrstWrite => Sys2Proof.Machine.execPkgrstWrite s
  | .clkinitWrite => Sys2Proof.Machine.execClkinitWrite s
  | .linkLost => Sys2Proof.Machine.execLinkLost s
  | .dieLost => Sys2Proof.Machine.execDieLost s
  | .replayExhausted => Sys2Proof.Machine.execReplayExhausted s
  | .cfgdataRead => Sys2Proof.Machine.execCfgdataRead s
  | .cfgdataWrite => Sys2Proof.Machine.execCfgdataWrite s
  | .bankfmtWrite => Sys2Proof.Machine.execBankfmtWrite s
  | .bankfmtEffect => Sys2Proof.Machine.execBankfmtEffect s
  | .ringdescWrite => Sys2Proof.Machine.execRingdescWrite s
  | .dbufWrite => Sys2Proof.Machine.execDbufWrite s
  | .boexpWrite => Sys2Proof.Machine.execBoexpWrite s
  | .tagsWrite => Sys2Proof.Machine.execTagsWrite s
  | .registerWrite => Sys2Proof.Machine.execRegisterWrite s
  | .ilvFlip => Sys2Proof.Machine.execIlvFlip s
  | .ilvDrained => Sys2Proof.Machine.execIlvDrained s
  | .tdmSwitch => Sys2Proof.Machine.execTdmSwitch s
  | .lqcmdGo => Sys2Proof.Machine.execLqcmdGo s
  | .resumeWrite => Sys2Proof.Machine.execResumeWrite s
  | .preqWrite => Sys2Proof.Machine.execPreqWrite s
  | .dhaltWrite => Sys2Proof.Machine.execDhaltWrite s
  | .sgctlGo => Sys2Proof.Machine.execSgctlGo s
  | .groupDrainEnd => Sys2Proof.Machine.execGroupDrainEnd s
  | .groupRetrainEnd => Sys2Proof.Machine.execGroupRetrainEnd s
  | .groupRekeyEnd => Sys2Proof.Machine.execGroupRekeyEnd s
  | .groupRateFall => Sys2Proof.Machine.execGroupRateFall s
  | .windowStallTimeout => Sys2Proof.Machine.execWindowStallTimeout s
  | .fabricTimeout => Sys2Proof.Machine.execFabricTimeout s
  | .peerWindowPacket => Sys2Proof.Machine.execPeerWindowPacket s
  | .migcmdGo => Sys2Proof.Machine.execMigcmdGo s
  | .migrationRetire => Sys2Proof.Machine.execMigrationRetire s
  | .ckctlGo => Sys2Proof.Machine.execCkctlGo s
  | .checkpointEnd => Sys2Proof.Machine.execCheckpointEnd s
  | .rwcmdGo => Sys2Proof.Machine.execRwcmdGo s
  | .regionWorldApply => Sys2Proof.Machine.execRegionWorldApply s
  | .keyLoad => Sys2Proof.Machine.execKeyLoad s
  | .keyErase => Sys2Proof.Machine.execKeyErase s
  | .keySwitchSchedule => Sys2Proof.Machine.execKeySwitchSchedule s
  | .keyPhaseSwitch => Sys2Proof.Machine.execKeyPhaseSwitch s
  | .oldKeyErase => Sys2Proof.Machine.execOldKeyErase s
  | .spdmMessage => Sys2Proof.Machine.execSpdmMessage s
  | .lockInterface => Sys2Proof.Machine.execLockInterface s
  | .stopInterface => Sys2Proof.Machine.execStopInterface s
  | .hostRequest => Sys2Proof.Machine.execHostRequest s
  | .collectiveComplete => Sys2Proof.Machine.execCollectiveComplete s
  | .startInterface => Sys2Proof.Machine.execStartInterface s
  | .firstFlitUnderNewSet => Sys2Proof.Machine.execFirstFlitUnderNewSet s
  | .powerRemoved => Sys2Proof.Machine.execPowerRemoved s

end Sys2Proof.Machine
end

