-- ==== Sys2Proof/Machine/Issue.lean ====
section
/-! DEFINITION. A turn of the machine: the fetch and the decoding of a word (R24, R161, R186, R187), an issue group with its clash, its
stalls and its four slots (R174, R176, R177, R191, R195, R251, R253, R270), what comes first at an issue boundary (R350, R353, R185),
and the turn of the hardware outside the sequencers. -/
namespace Sys2Proof.Machine

/-! Fetch and decoding. -/

/-- The word or group at a sequencer's program counter, with the checks of a fetch (R24, R161). -/
def State.fetch (s : State) (q : Seq) : Except Refused (State × Nat) :=
  match s.hwRead s.asid s.secure s.sup .fetch (s.pcOf q) (wordBytes q) with
  | .error e => .error e
  | .ok (s1, v, _) => .ok (s1, v)

/-- The hops of the request of a fetch to its home (R114, R116): every fetch is a miss, since the spec gives no cache of instructions (log
entry 66). -/
def State.fetchHops (s : State) (q : Seq) : Nat :=
  match s.leafFor s.asid (s.pcOf q) .fetch s.sup s.secure with
  | .error _ => 0
  | .ok (s1, t) => if s1.target t.leaf = 0 then hops s.die (s.homeDie s.ilvCur (leafAddress t.leaf t.level (s.pcOf q))) else 0

/-- A word or a group that has left its sequencer's program counter: what its fetch brought is done with, and its hops are counted (R366). -/
def State.fetched (t : State) (q : Seq) (h : Nat) : State := if t.last = .waits then t else (t.doneHw (seqNum q)).count 9 h

/-- A fetch waits for a home outside the package, or for one that does not admit it (R25, R393, R394). -/
def State.fetchGate (s : State) (q : Seq) : Option State := s.gate (seqNum q) s.asid s.secure s.sup .fetch (s.pcOf q) (wordBytes q) 0

/-- The cause of a decode fault (R187). -/
def causeOf : DecodeFault → Cause
  | .illegal => .illegal
  | .reservedBits => .reservedBits
  | .badRegister => .badRegister

/-- A slot's word decoded: its instruction, or the cause with SLOT and WORD (R187). -/
noncomputable def decodeSlot (sp : Space) (slot : Nat) (w : Word32) : Except Refused Instr :=
  match decode sp w with
  | .ok i => .ok i
  | .error e => .error (causeOf e, w64 (slot * 2 ^ 32 + w.toNat))

/-- The opcode space of a sequencer's words. -/
def spaceOf : Seq → Space
  | .load => .load
  | .store => .store
  | .control => .control
  | .compute => .x

/-! Issue groups (R191). -/

/-- The four slot words of a group. -/
structure Group where
  v0 : Instr
  v1 : Instr
  m : Instr
  x : Instr
deriving DecidableEq, Repr

/-- A group decoded, slot by slot in the order V0, V1, M, X (R187). -/
noncomputable def decodeGroup (w : Nat) : Except Refused Group :=
  match decodeSlot .v0 0 (BitVec.ofNat 32 w) with
  | .error e => .error e
  | .ok v0 => match decodeSlot .v1 1 (BitVec.ofNat 32 (w / 2 ^ 32)) with
    | .error e => .error e
    | .ok v1 => match decodeSlot .m 2 (BitVec.ofNat 32 (w / 2 ^ 64)) with
      | .error e => .error e
      | .ok m => match decodeSlot .x 3 (BitVec.ofNat 32 (w / 2 ^ 96)) with
        | .error e => .error e
        | .ok x => .ok ⟨v0, v1, m, x⟩

/-- What a V-slot word writes: v at 0 to 47, k at 64 to 71, d with its norms at 128 to 143, output ports at 160 to 163. -/
def formWrites (f : VForm) : List Nat :=
  match f.dk with
  | .mask => [64 + f.d.toNat]
  | .dir => [128 + f.d.toNat]
  | _ => if f.d.toNat < 48 then [f.d.toNat] else if f.d.toNat < 52 then [112 + f.d.toNat] else []

/-- The register that a source field reads; a latch or a port reads none (R251). -/
def sourceReads (k : SKind) (code : BitVec 6) (hold : Bool) : List Nat :=
  match k with
  | .vec => if code.toNat < 48 && !hold then [code.toNat] else []
  | .dir => [128 + code.toNat]
  | _ => []

/-- The registers that a V-slot word reads, in the order A, B, D, and its mask. -/
def formReads (f : VForm) : List Nat :=
  sourceReads f.ak f.a f.ha ++ sourceReads f.bk f.b f.hb ++
    (if f.dk == .regRead && !f.hc then [f.d.toNat] else []) ++ (if f.men then [64 + f.k.toNat] else [])

/-- What a slot word writes in the vector file (R195). -/
def vecWrites (i : Instr) : List Nat :=
  match vform i with
  | some f => formWrites f
  | none => match i with
    | .accTov d _ _ => [d.toNat]
    | .vqpop d _ _ => [d.toNat]
    | .vqpopPeek d _ _ => [d.toNat]
    | .vqpopNr d _ _ _ => [d.toNat]
    | .rqpop d _ => [d.toNat]
    | .rqpopNr d _ _ => [d.toNat]
    | .kand d _ _ => [64 + d.toNat]
    | .kor d _ _ => [64 + d.toNat]
    | .kxor d _ _ => [64 + d.toNat]
    | .kandn d _ _ => [64 + d.toNat]
    | .knot d _ => [64 + d.toNat]
    | .kset d => [64 + d.toNat]
    | .kclr d => [64 + d.toNat]
    | _ => []

/-- What a slot word reads in the vector file (R251, R253). -/
def vecReads (i : Instr) : List Nat :=
  match vform i with
  | some f => formReads f
  | none => match i with
    | .accFromv _ _ r => if r.toNat < 48 then [r.toNat] else []
    | .kand _ a b => [64 + a.toNat, 64 + b.toNat]
    | .kor _ a b => [64 + a.toNat, 64 + b.toNat]
    | .kxor _ a b => [64 + a.toNat, 64 + b.toNat]
    | .kandn _ a b => [64 + a.toNat, 64 + b.toNat]
    | .knot _ a => [64 + a.toNat]
    | .kany _ a => [64 + a.toNat]
    | .kall _ a => [64 + a.toNat]
    | _ => []

/-- Two words write one register. -/
def clashes (i j : Instr) : Bool := (vecWrites i).any (fun n => (vecWrites j).contains n)

/-- TVALUE of the first pair of slots that clash (R195): the later slot of it, with its word; `w` is the group. Predicates, loop
counters and accumulators are written by one slot alone. -/
def Group.clash (g : Group) (w : Nat) : Option Word64 :=
  let named (slot : Nat) : Word64 := w64 (slot * 2 ^ 32 + w / 2 ^ (32 * slot) % 2 ^ 32)
  if clashes g.v0 g.v1 then some (named 1)
  else if clashes g.v0 g.m then some (named 2)
  else if clashes g.v0 g.x then some (named 3)
  else if clashes g.v1 g.m then some (named 2)
  else if clashes g.v1 g.x then some (named 3)
  else if clashes g.m g.x then some (named 3)
  else none

/-- The words of a group in the order of their effects, each with its V slot. -/
def Group.words (g : Group) : List (Bool × Instr) := [(false, g.v0), (true, g.v1), (false, g.m), (false, g.x)]

/-- Words one after another, each on the state that the one before it leaves, up to the first that does not complete, which is
named. -/
def runWords : List (Bool × Instr) → Instr → State → Host.Outcome (State × Instr) Fault Refusal
  | [], i, s => .next (s, i)
  | (b, i) :: rest, _, s =>
    match exec i { s with vec := { s.vec with slot1 := b } } with
    | .next t => if t.last = .done then runWords rest i t else .next (t, i)
    | .fault f => .fault f
    | .refused r => .refused r

/-- The cycle from which every register of a group is readable and both of its V slots accept (R253, R270). -/
def State.groupReady (s : State) (g : Group) : Nat :=
  let regs := (g.words.flatMap (fun w => vecReads w.2 ++ vecWrites w.2)).map (fun k => mget s.vec.ready 0 k)
  let slots := [(0, g.v0), (1, g.v1)].map (fun (n, i) => if i = .vNop then 0 else mget s.vec.accept 0 n)
  (regs ++ slots).foldl max s.vec.now

/-- The self-cycles that a word waits for the matrix engine, also where it then waits for it in fact (R298). -/
def State.wordWait (s : State) (i : Instr) : Nat :=
  match exec i s with
  | .next t => match t.last with
    | .raised _ _ _ => 0
    | _ => t.vec.now - s.vec.now
  | _ => 0

/-- The self-cycles that a group waits for the matrix engine: those of its M and X words pass together. -/
def State.engineWait (s : State) (g : Group) : Nat := max (s.wordWait g.m) (s.wordWait g.x)

/-- The windows in which a group's reads are taken (R251). -/
def Group.windows (g : Group) : Nat :=
  let reads := ((g.words.flatMap (fun w => vecReads w.2)).filter (fun n => n < 48)).eraseDups
  (List.range 6).foldl (fun w b => max w (((reads.filter (fun n => n % 6 = b)).length + 1) / 2)) 1

/-- A group has issued (R176, R177): its address enters the signature. -/
def State.issued (s : State) (pc : Addr) : State :=
  let old : Word32 := BitVec.ofNat 32 (fld (s.csrOf 0xC) 32 32)
  let sig := old.rotateLeft 5 ^^^ bits pc 4 32
  let s1 := if s.compat then s else s.setCsr 0xC (put (s.csrOf 0xC) 32 32 sig.toNat)
  let s2 := s1.selfCycle.count 15 1
  { s2 with vec := { s2.vec with image := none, slot1 := false }, phase := { s2.phase with first := false } }

/-- A word that waits on a token, a value queue or a tag (R347, R366). -/
def couples : Instr → Bool
  | .tokGet _ _ => true
  | .xTokGet _ _ => true
  | .eTokGet _ _ => true
  | .vqpopPeek _ _ _ => true
  | .tagAny _ _ _ => true
  | .tagAll _ _ _ => true
  | .tagwAny _ _ _ => true
  | .tagwAll _ _ _ => true
  | _ => false

/-- A patch word that peeks at a value queue without an entry (R200). -/
def State.peeks (s : State) : Instr → Bool
  | .patch _ _ v _ q _ _ => q == 1 && v.getLsbD 1 && (s.valueQueue (v.setWidth 1)).isEmpty
  | .patchM _ _ v _ q _ _ => q == 1 && v.getLsbD 1 && (s.valueQueue (v.setWidth 1)).isEmpty
  | _ => false

/-- What a word of a sequencer leaves beside its own effect: whether its sequencer waits on a token, a queue or a tag, and
whether SINGLE_STEP follows it (R347, R353, R366). -/
def State.afterWord (s : State) (q : Seq) (i : Instr) (stepping : Bool) : State :=
  let w := s.last == .waits && (couples i || s.peeks i)
  let s1 := { s with task := { s.task with waits := putBit s.task.waits (seqNum q) w } }
  let s2 := if w then s1.count 5 1 else s1
  if stepping && s2.last == .done && s2.task.bound then { s2 with trap := { s2.trap with step := true } } else s2

/-- The word of a group that waits does so for a ring slot to be ready: a go for the tile at a HEAD, another for those of the operation
that runs (R79, R366). -/
def State.ringWait (s : State) (i : Instr) : Bool :=
  let head (k : Nat) : Bool := s.slotReady k (ringHead (s.ringDesc k))
  match i with
  | .patchM sl _ _ _ _ g _ => g == 1 && (mget s.eng.tmpl none (128 + sl.toNat)).any (fun t => !head (mmaRingA t) || !head (mmaRingB t))
  | _ => !couples i && (vform i).isNone && match s.mat.ops with
    | o :: _ => o.done < mmaNk o.img && !s.tilesReady o
    | [] => false

/-- The state of a group that waits at a word: nothing of it stays but the counts. The cycle is a self-cycle where a wait of the
compute sequencer's own holds the group as well (R176, R270, R298). -/
def State.groupWaits (s : State) (i : Instr) (own : Bool) : State :=
  let s1 := if own then s.selfCycle else s
  if s1.ringWait i then s1.count 4 1 else s1

/-- A result that changes a next state. -/
def mapNext (f : State → State) (r : Result) : Result :=
  match r with
  | .next t => .next (f t)
  | .fault x => .fault x
  | .refused x => .refused x

/-- The stalls of a group before it issues: result latency and slot spacing, the matrix engine, then bank reads. -/
def State.stalled (s : State) (g : Group) : State :=
  let s1 := s.spend (s.groupReady g - s.vec.now)
  let s2 := s1.spend (s1.engineWait g)
  (s2.spend (4 * (g.windows - 1))).count 3 (g.windows - 1)

/-- A swap that issued with its group waits for the last results of the phase, and is reached (R171, R271). -/
def State.retirePhase (s : State) : State := if s.phase.swapping.isSome then (s.spend s.retireWait).reachSwap else s

/-- A group issues as a whole, or not at all (R191, R207): its words act in the order V0, V1, M, X on registers as they stood at its
issue. The cycles that it waits for the core's own work before it raises a cause count as those before an issue (R270, R350). -/
def State.performGroup (s : State) (g : Group) : Result :=
  let t0 := s.stalled g
  match runWords g.words .xNop { t0 with vec := { t0.vec with image := some t0.atIssue } } with
  | .fault f => .fault f
  | .refused r => .refused r
  | .next (t, i) =>
    match t.last with
    | .done => .next ((t.issued (s.pcOf .compute)).retirePhase.afterWord .compute i false)
    | .waits =>
      if s.cycle.again.length < t.cycle.again.length then finish .compute s (.wait { s with cycle := { s.cycle with again := t.cycle.again } })
      else mapNext (fun u => u.afterWord .compute i false) (finish .compute s
        (.wait (s.groupWaits i (decide (s.vec.now < s.groupReady g) || s.engineWait g != 0))))
    | .raised c tv a => mapNext (fun u => u.afterWord .compute i false) (finish .compute t0 (.ofRow c tv a))

/-- The record index that a group's X word names: 0 unless it is phase.begin (R174). -/
def Group.recordIndex (g : Group) : Nat :=
  match g.x with
  | .phaseBegin i => i.toNat
  | _ => 0

/-- A phase of this class waits for leave (R174, R405). -/
def State.needsLeave (s : State) (r : BitVec 256) : Bool :=
  fld (s.cfgOf (dieCfg s.die 0x20)) 0 3 < recClass r && !s.phase.granted

/-- The first group of a phase waits for leave: it has asked, and the governor looks again (R405). -/
def State.askLeave (s : State) : State :=
  let asked := match s.phase.asked with
    | some t => some t
    | none => some s.clk
  { s with phase := { s.phase with asked := asked } }.postOnce .leaveGrant

/-- The record of the phase whose first group comes to issue (R174, R175). -/
def State.recordFor (s : State) (g : Group) : State × PhaseRec :=
  match s.phase.record with
  | .unread => s.readRecord g.recordIndex
  | r => (s, r)

/-- A decoded group comes to issue; the first of a phase reads the phase's record and waits for leave (R174, R185). -/
def State.enterGroup (s : State) (g : Group) : Result :=
  if !s.phase.first || s.compat then s.performGroup g
  else match s.recordFor g with
    | (s1, .unread) => finish .compute s1 (.wait s1)
    | (_, .bad c tv a) => finish .compute { s with phase := { s.phase with record := .unread } } (.trap c tv a)
    | (s1, .got n r) =>
      let s2 := s1.setCsr 0xC (put (put (s1.csrOf 0xC) 19 8 n) 27 3 (recClass r))
      let s3 := { s2 with phase := { s2.phase with record := .got n r } }
      if s3.needsLeave r then finish .compute s3 (.wait s3.askLeave) else s3.performGroup g

/-- The compute sequencer issues the group at its program counter. -/
noncomputable def State.issueGroup (s : State) : Result :=
  match s.fetchGate .compute with
  | some t => finish .compute s (.wait t)
  | none => mapNext (fun t => t.fetched .compute (s.fetchHops .compute)) (match s.fetch .compute with
  | .error (c, tv) => finish .compute s (.trap c tv (s.pcOf .compute))
  | .ok (s1, w) => match decodeGroup w with
    | .error (c, tv) => finish .compute s1 (.trap c tv 0)
    | .ok g => match g.clash w with
      | some tv => finish .compute s1 (.trap .badRegister tv 0)
      | none => s1.enterGroup g)

/-- The control sequencer has issued an instruction in this cycle: the logs of R69 and R105 do not drain in it. -/
def State.notes (s : State) (q : Seq) : State :=
  if q == .control && s.last == .done then { s with cycle := { s.cycle with ctl := true } } else s

/-- A sequencer of 32-bit words issues the word at its program counter. -/
noncomputable def State.issueWord (s : State) (q : Seq) : Result :=
  let stepping := q == .control && s.status.getLsbD 0 && !s.sup
  match s.fetchGate q with
  | some t => finish q s (.wait t)
  | none => mapNext (fun t => t.fetched q (s.fetchHops q)) (match s.fetch q with
  | .error (c, tv) => finish q s (.trap c tv (s.pcOf q))
  | .ok (s1, w) => match decodeSlot (spaceOf q) 0 (BitVec.ofNat 32 w) with
    | .error (c, tv) => finish q s1 (.trap c tv 0)
    | .ok i => mapNext (fun t => (t.afterWord q i stepping).notes q) (exec i s1))

/-! Turns. -/

/-- The core may issue: it has power, runs and holds a task whose sequencers have begun (R87, R162, R364, R365). -/
def State.coreRuns (s : State) : Bool :=
  s.pkg.powered && !s.pkg.stopped && s.trap.frozen == 0 && s.task.bound && !s.task.starting && s.disp.saving.isNone

/-- A sequencer stands at its swap (R171). -/
def State.atSwap (s : State) (q : Seq) : Bool :=
  (q != .control && s.phase.reached.getLsbD (seqNum q)) || (q == .compute && s.phase.swapping.isSome)

/-- A sequencer issues: it is not idle, it stands at no swap, no handler stops it (R350) or is being entered (R355), and no BANKFMT write
holds the control sequencer (R64). -/
def State.issues (s : State) (q : Seq) : Bool :=
  (s.seqOf q).run && !s.atSwap q && !s.cycle.entered && (q == .control || !s.inh) && (q != .control || s.scr.fmtPend.isEmpty)

/-- What comes before a control word: SINGLE_STEP, and in compatibility mode, where every boundary is a safe point, a save that
is asked for and LATE_STORE (R132, R183, R185, R353). -/
def State.boundary (s : State) : Option State :=
  let pc := s.pcOf .control
  if s.inh then none
  else if s.trap.step then
    some { { s with trap := { s.trap with step := false } }.raise .singleStep .control pc true 0 0 with last := .raised .singleStep 0 0 }
  else if s.compat then
    match s.preempt with
    | some t => some t
    | none => if s.csrOf 0x13 = 0 then none
      else some { s.raise .lateStore .control pc true (s.csrOf 0x13) 0 with last := .raised .lateStore (s.csrOf 0x13) 0 }
  else none

/-- The turn of a sequencer: what its issue boundary raises, or its word. -/
noncomputable def State.seqTurn (s : State) (q : Seq) : Result :=
  if !s.coreRuns then .next { s with last := .waits }
  else match s.asyncDue.filter (fun a => a.seq == q) with
    | some a => .next (s.raiseAsync a)
    | none => match (if q = .control then s.boundary else none) with
      | some t => .next t
      | none =>
        if !s.issues q then .next { (if q = .compute then s.reachSwap else s) with last := .waits }
        else match q with
        | .compute => s.issueGroup
        | .load => s.issueWord .load
        | .store => s.issueWord .store
        | .control => s.issueWord .control

/-- A table of the hardware stands where nothing is admitted: in a region whose world changes, or under the key of a slot that changes (R393,
R394). -/
def State.tableBarred (s : State) (pa : Nat) : Bool :=
  ((s.cfgOf 0xB0).getLsbD 63 && pa / 2 ^ 21 == s.changingRegion) ||
    ((s.cfgOf 0xB8).getLsbD 63 && (s.cellOf s.ilvCur pa).any (fun c => (s.granule c).owner.any (fun o => o.1.toNat == s.changingSlot)))

/-- A walk for an address would read a table there. -/
def State.walkBarred (s : State) (asid : BitVec 11) (va : Addr) : Bool :=
  !s.mu.tlb.any (fun t => t.covers asid va) &&
    (s.tableBarred (fld (s.cfgOf 0x30) 17 43 * 2 ^ 17 + 64 * asid.toNat) || match s.descriptor asid with
      | .error _ => false
      | .ok d => (s.walkPath va 4 (fld d 16 44 * 2 ^ 16)).any s.tableBarred)

/-- A turn that has come to `t` read tables where nothing is admitted: those of a leaf that it brought, or of the address of its cause, or
entries and leaves of tensors (R393, R394). -/
def State.tablesHeld (s t : State) : Bool :=
  let known (n pa : Nat) : Bool := (mget s.layout ⟨[], []⟩ n).entries.any (fun e => e.2.pa == pa) || (mget s.layout ⟨[], []⟩ n).leaves.any (fun l => l.pa == pa)
  s.changing && (t.mu.tlb.any (fun x => s.walkBarred x.asid x.base) ||
    t.layout.any (fun (n, u) => u.entries.any (fun e => !known n e.2.pa && s.tableBarred e.2.pa) ||
      u.leaves.any (fun l => !known n l.pa && s.tableBarred l.pa)) || match t.last with
    | .raised _ _ a => a != 0 && s.walkBarred s.asid a
    | _ => false)

/-- The turn of a sequencer within the cycle (R350): a cause of a sequencer other than the control sequencer waits for the cycle's end; a
word that raises one where another waits already is not performed, and raises it again when it issues; and the control sequencer's cause
comes after the puts that are tried once more. A word whose walks read tables that nothing may read now waits (R393, R394). -/
noncomputable def State.turnInCycle (s : State) (q : Seq) : Result :=
  match ({ s with cycle := { s.cycle with defers := true } } : State).seqTurn q with
  | .next t =>
    let waits : State := { s with last := .waits }
    let raised : Bool := match t.last with
      | .raised _ _ _ => true
      | _ => false
    if s.tablesHeld t || (raised && s.cycle.held.isSome) then .next waits
    else if raised && q == .control && !s.cycle.again.isEmpty then
      .next { waits with cycle := { s.cycle with again := s.cycle.again ++ [.control] } }
    else .next { t with cycle := { t.cycle with defers := false } }
  | r => r

/-- The cause that waited for the cycle's end takes its way, if the task that met it still runs (R350). -/
def State.raiseHeld (s : State) : State :=
  match s.cycle.held with
  | none => s
  | some h =>
    let s1 := { s with cycle := { s.cycle with held := none } }
    if s1.task.bound && s1.disp.saving.isNone && !s1.pkg.stopped then s1.applyHeld h else s1

/-- A cycle of the core passes: what the watchdog and the counters see of it (R182, R351, R366). -/
def State.corePasses (s : State) : State :=
  if s.trap.frozen != 0 then s.freezePasses
  else if !s.coreRuns || s.inh then s
  else
    let s1 := (s.count 0 1).count 5 (([Seq.load, .compute, .store].filter (fun q => s.atSwap q)).length)
    if s.phase.asked.isSome && s.phase.first && !s.phase.granted then s1 else s1.watch 1

/-- An event of the core itself, of its engines or of its wharf: during a freeze it stands still (R87). -/
def Pending.ofCore (p : Pending) : Bool :=
  match p.event with
  | .packetHeader => p.input.wharf == .core
  | .packetBeat => p.input.wharf == .core
  | .holdTimeout => p.input.wharf == .core
  | .mapBoundary => p.input.wharf == .core
  | e => [.arrive, .gather, .depart, .mcast, .relay, .fill, .mapInstall, .mapSwap, .mapRetire, .mapQuery, .ringInit, .mma, .mmaKStep,
      .mmaRetire, .packetAnswer, .copyComplete, .portRowRead, .portRowWrite, .overflowLogDrain, .unlandedLogDrain, .translationWalk,
      .loadReturn, .storeQueueDepart, .storeAck, .factorResult, .swapRendezvous, .taskSave, .bindTask, .taskStart, .asyncCause,
      .watchdogExpiry, .leaveTimeout, .bankfmtEffect].contains e

/-- An event that reads or writes memory which it names by tables of its own: a dispatcher's, a save's, a log's, a move's, a checkpoint's or
an engine's. -/
def Pending.ofTables (p : Pending) : Bool :=
  [Instr.selectionRound, .bindTask, .taskStart, .taskSave, .swapRendezvous, .lqcmdGo, .translationWalk, .overflowLogDrain, .unlandedLogDrain, .mwulogDrain,
    .migcmdGo, .ckctlGo, .arrive, .gather, .depart, .mcast, .relay, .fill, .collectiveComplete, .pinAtHome, .unpinAtHome].contains p.event

/-- The home of an access of another chip admits nothing now (R393, R394). -/
def State.peerBarred (s : State) (i : Input) : Bool :=
  s.barred ⟨0, i.asid, false, put (BitVec.ofNat 128 i.data) 16 2 0, i.addr.toNat, s.ilvCur⟩

/-- An event may happen now: during a freeze those of the core stand still (R87), the task's logs drain in cycles in which the control
sequencer issues nothing (R69, R105), and those that read tables wait while a region's world or a slot's key changes (R393, R394). -/
def State.mayHappen (s : State) (p : Pending) : Bool :=
  (s.trap.frozen == 0 || !p.ofCore) && !(s.cycle.ctl && (p.event == .overflowLogDrain || p.event == .unlandedLogDrain)) &&
    !(s.changing && p.ofTables) && !(p.event == .homeAccess && p.input.flag2 && s.peerBarred p.input)

/-- A header of the loopback reaches the core wharf (R327). -/
def State.fromLoopback (s : State) (p : Pending) : Bool :=
  p.event == .packetHeader && p.input.packet.any (fun k => s.ownPacket k && (s.engOp k.opid).any (fun o => opKind o.img == 5))

/-- The oldest event that may happen now, and those that stay due: a header of the loopback goes after the ring headers that reach the
core wharf with it (R327). -/
def State.nextEvent (s : State) : Option (Pending × List Pending) :=
  match s.agenda.find? s.mayHappen with
  | none => none
  | some p =>
    let ring (x : Pending) : Bool := x.event == .packetHeader && x.input.wharf == .core && !s.fromLoopback x && s.mayHappen x
    let q := if s.fromLoopback p then (s.agenda.find? ring).getD p else p
    some (q, s.agenda.erase q)

/-- The end of a cycle: a not-before load that has become performable is performed last (R130), and the next cycle begins with the CSRs
as they stand (R225); where a handler is being entered, its entry takes that cycle (R355). -/
def State.endCycle (s : State) : State :=
  let s1 := s.performNotBefore
  { s1 with cycle := { Cycle.start with csr := some s1.startCsr, entered := s1.cycle.entering } }

/-- The turn of the hardware outside the sequencers: a cause of the cycle takes its way, time passes, and the oldest event that is due
happens. -/
def State.hwTurn (s : State) : Result :=
  match exec .clockTick s.raiseHeld.corePasses with
  | .next t => match t.nextEvent with
    | none => .next t.endCycle
    | some (p, rest) => mapNext State.endCycle (exec p.event { t with agenda := rest, input := p.input })
  | r => r

/-- Whose turn follows in a cycle (R84): the control sequencer's is the last but for puts that are tried once more (R165). -/
def State.nextTurn (s : State) (t : Turn) : Turn :=
  let last : Turn := match s.cycle.again with
    | q :: _ => .again q
    | [] => .hw
  match t with
  | .seq .load => .seq .store
  | .seq .store => .seq .compute
  | .seq .compute => .seq .control
  | .seq .control => last
  | .again _ => last
  | .hw => .seq .load

/-- One turn of the machine. -/
noncomputable def State.takeTurn (s : State) : Result :=
  mapNext (fun t => { t with turn := t.nextTurn s.turn }) (match s.turn with
    | .seq q => s.turnInCycle q
    | .again q => ({ s with cycle := { s.cycle with again := s.cycle.again.tail } } : State).turnInCycle q
    | .hw => s.hwTurn)

end Sys2Proof.Machine
end

