-- ==== Sys2Proof/Machine/Step.lean ====
section
/-! DEFINITION. One step of the machine, and the placing of an instruction where the next step fetches. -/
namespace Sys2Proof.Machine

/-- One step: a turn of a sequencer or of the hardware outside them (log entry 1). -/
noncomputable def step (s : State) : Host.Outcome State Fault Refusal := s.takeTurn

/-- The words of a group that holds `w` in the slot of an opcode space and nops in the others (R191, R193, R194). -/
def groupWith (sp : Space) (w : Nat) : Nat :=
  match sp with
  | .v0 => w + 0x02000000 * 2 ^ 32 + 0x04000000 * 2 ^ 64 + 0x04000000 * 2 ^ 96
  | .v1 => 0x02000000 + w * 2 ^ 32 + 0x04000000 * 2 ^ 64 + 0x04000000 * 2 ^ 96
  | .m => 0x02000000 + 0x02000000 * 2 ^ 32 + w * 2 ^ 64 + 0x04000000 * 2 ^ 96
  | .x => 0x02000000 + 0x02000000 * 2 ^ 32 + 0x04000000 * 2 ^ 64 + w * 2 ^ 96
  | _ => w

/-- The leaf of page 0 of the secure world under key slot 0: V, LEAF, PRES, RD, EX, WORLD and ACC set, frame 1 (R21). -/
def fetchLeaf : BitVec 128 := 0x100000000000008AF

/-- The state in which a task of the secure world is bound, its sequencer for the word's opcode space runs at virtual address 0,
and the word stands there, in a group of nops where it is a slot's; page 0 is mapped on frame 1, and it is that sequencer's turn
(log entry 20). -/
noncomputable def State.withFetchWord (s : State) (_nbits w : Nat) : State :=
  let sp := tableSpace (w % 2 ^ 32)
  let q := sp.seq
  let s1 := (s.setCsr 0 (putBit (putBit s.status 2 true) 7 false)).setCsr 9 0
  let s2 := s1.setSeq q { s1.seqOf q with run := true, pc := 0 }
  let c := (s2.cellOf s2.ilvCur 0x20000).getD 0
  let s3 := s2.setGranule c ⟨false, some (s2.slotEpoch 0)⟩
  { s3 with
    turn := .seq q
    mem := { s3.mem with bytes := putBytes s3.mem.bytes c 16 (groupWith sp (w % 2 ^ 32)) }
    mu := { s3.mu with tlb := [⟨0, 0, 0, fetchLeaf, 0⟩] }
    cycle := Cycle.start
    task := { s3.task with bound := true, secure := true, starting := false }
    phase := { s3.phase with reached := 0, swapping := none, record := .got 0 0 }
    trap := { s3.trap with frozen := 0, pend := [], step := false }
    scr := { s3.scr with fmtPend := [] }
    disp := { s3.disp with saving := none }
    pkg := { s3.pkg with powered := true, stopped := false, regions := mset s3.pkg.regions true 0 true } }

end Sys2Proof.Machine
end

