-- ==== Sys2Proof/WellFormed.lean ====
section
/-! DEFINITION. Well-formed instructions: those whose operand fields the encoding admits (R187 orders 1 to 3) in an
opcode space that holds the instruction. -/
namespace Sys2Proof

/-- The kinds of rows of the opcode table: words of the control sequencer (R189), of the slots V0 and V1 (R193), of the M slot and
the X slot (R194), of the load and store sequencers (R196), and events, which have no word. -/
inductive WordKind where
  | scalar
  | vector
  | matrix
  | xslot
  | engine
  | event
deriving DecidableEq, Repr

/-- The kind of an instruction. -/
def Instr.kind : Instr → WordKind
  | .add _ _ _ => .scalar
  | .sub _ _ _ => .scalar
  | .and _ _ _ => .scalar
  | .or _ _ _ => .scalar
  | .xor _ _ _ => .scalar
  | .andn _ _ _ => .scalar
  | .shl _ _ _ => .scalar
  | .shr _ _ _ => .scalar
  | .sra _ _ _ => .scalar
  | .rol _ _ _ => .scalar
  | .mul _ _ _ => .scalar
  | .mulh _ _ _ => .scalar
  | .mulhu _ _ _ => .scalar
  | .div _ _ _ => .scalar
  | .divu _ _ _ => .scalar
  | .rem _ _ _ => .scalar
  | .remu _ _ _ => .scalar
  | .min _ _ _ => .scalar
  | .max _ _ _ => .scalar
  | .minu _ _ _ => .scalar
  | .maxu _ _ _ => .scalar
  | .adds _ _ _ => .scalar
  | .subs _ _ _ => .scalar
  | .clz _ _ => .scalar
  | .ctz _ _ => .scalar
  | .popc _ _ => .scalar
  | .sextb _ _ => .scalar
  | .sexth _ _ => .scalar
  | .sextw _ _ => .scalar
  | .zextw _ _ => .scalar
  | .addi _ _ _ => .scalar
  | .andi _ _ _ => .scalar
  | .ori _ _ _ => .scalar
  | .xori _ _ _ => .scalar
  | .shli _ _ _ => .scalar
  | .shri _ _ _ => .scalar
  | .srai _ _ _ => .scalar
  | .roli _ _ _ => .scalar
  | .movi _ _ => .scalar
  | .movk _ _ _ => .scalar
  | .aset _ _ _ => .scalar
  | .aadd _ _ _ => .scalar
  | .asub _ _ _ => .scalar
  | .alo _ _ => .scalar
  | .ahi _ _ => .scalar
  | .aand _ _ _ => .scalar
  | .amov _ _ => .scalar
  | .aaddi _ _ _ => .scalar
  | .cmpEq _ _ _ => .scalar
  | .cmpNe _ _ _ => .scalar
  | .cmpLt _ _ _ => .scalar
  | .cmpGe _ _ _ => .scalar
  | .cmpLtu _ _ _ => .scalar
  | .cmpGeu _ _ _ => .scalar
  | .acmpEq _ _ _ => .scalar
  | .acmpLtu _ _ _ => .scalar
  | .tst _ _ _ => .scalar
  | .pand _ _ _ => .scalar
  | .por _ _ _ => .scalar
  | .pxor _ _ _ => .scalar
  | .pandn _ _ _ => .scalar
  | .prd _ => .scalar
  | .pwr _ => .scalar
  | .cmpiEq _ _ _ => .scalar
  | .cmpiNe _ _ _ => .scalar
  | .cmpiLt _ _ _ => .scalar
  | .cmpiGe _ _ _ => .scalar
  | .cmpiLtu _ _ _ => .scalar
  | .cmpiGeu _ _ _ => .scalar
  | .sel _ _ _ _ _ => .scalar
  | .asel _ _ _ _ _ => .scalar
  | .br _ _ _ => .scalar
  | .call _ _ _ => .scalar
  | .jmp _ => .scalar
  | .callr _ => .scalar
  | .loop _ _ _ => .scalar
  | .lcset _ _ _ _ => .scalar
  | .lcseti _ _ _ _ => .scalar
  | .mset _ _ _ => .scalar
  | .mrd _ _ => .scalar
  | .lcrd _ _ => .scalar
  | .lcwr _ _ => .scalar
  | .ld _ _ _ _ _ => .scalar
  | .ldx _ _ _ _ _ => .scalar
  | .st _ _ _ _ _ => .scalar
  | .sld _ _ _ _ _ _ => .scalar
  | .sldx _ _ _ _ _ _ => .scalar
  | .sst _ _ _ _ _ _ => .scalar
  | .stDue _ _ _ _ _ _ _ => .scalar
  | .ldNb _ _ _ _ _ _ => .scalar
  | .amoAdd _ _ _ _ _ _ => .scalar
  | .amoAnd _ _ _ _ _ _ => .scalar
  | .amoOr _ _ _ _ _ _ => .scalar
  | .amoXor _ _ _ _ _ _ => .scalar
  | .amoMin _ _ _ _ _ _ => .scalar
  | .amoMax _ _ _ _ _ _ => .scalar
  | .amoMinu _ _ _ _ _ _ => .scalar
  | .amoMaxu _ _ _ _ _ _ => .scalar
  | .amoSwap _ _ _ _ _ _ => .scalar
  | .amoCas _ _ _ _ _ _ => .scalar
  | .sealPage _ => .scalar
  | .unsealPage _ => .scalar
  | .clmq _ _ => .scalar
  | .fopCas2 _ _ => .scalar
  | .fopCas4 _ _ => .scalar
  | .fopEnq _ _ => .scalar
  | .fopChase _ _ _ => .scalar
  | .fopProg _ _ _ _ => .scalar
  | .fopRel _ _ => .scalar
  | .fpop _ _ => .scalar
  | .fpopNr _ _ _ => .scalar
  | .fstat _ => .scalar
  | .tokPut _ _ => .scalar
  | .tokGet _ _ => .scalar
  | .vqpush _ _ => .scalar
  | .join _ _ => .scalar
  | .leave _ => .scalar
  | .barArrive _ _ => .scalar
  | .barWait _ _ => .scalar
  | .dissolve _ => .scalar
  | .launch _ _ _ => .scalar
  | .wait _ => .scalar
  | .setprio _ _ => .scalar
  | .tagAny _ _ _ => .scalar
  | .tagAll _ _ _ => .scalar
  | .tagFirst _ _ => .scalar
  | .rpop _ _ => .scalar
  | .rpush _ => .scalar
  | .csrr _ _ => .scalar
  | .csrw _ _ => .scalar
  | .csrs _ _ _ => .scalar
  | .csrc _ _ _ => .scalar
  | .csrrw _ _ _ => .scalar
  | .rdclk _ => .scalar
  | .clkadd _ _ => .scalar
  | .locq _ _ => .scalar
  | .locqT _ _ => .scalar
  | .tmplLd _ _ _ _ => .scalar
  | .trap _ => .scalar
  | .hcall _ => .scalar
  | .contain _ => .scalar
  | .wsw _ => .scalar
  | .invalVa _ _ => .scalar
  | .invalAsid _ => .scalar
  | .mwclr _ => .scalar
  | .vFadd _ _ _ _ _ _ _ => .vector
  | .vFsub _ _ _ _ _ _ _ => .vector
  | .vFmul _ _ _ _ _ _ _ => .vector
  | .vFma _ _ _ _ _ _ _ _ => .vector
  | .vFms _ _ _ _ _ _ _ _ => .vector
  | .vFmin _ _ _ _ _ _ _ => .vector
  | .vFmax _ _ _ _ _ _ _ => .vector
  | .vFabs _ _ _ _ _ => .vector
  | .vFneg _ _ _ _ _ => .vector
  | .vFcmpEq _ _ _ _ _ _ _ => .vector
  | .vFcmpLt _ _ _ _ _ _ _ => .vector
  | .vFcmpLe _ _ _ _ _ _ _ => .vector
  | .vFcmpUn _ _ _ _ _ _ _ => .vector
  | .vAdd _ _ _ _ _ _ _ => .vector
  | .vSub _ _ _ _ _ _ _ => .vector
  | .vMul _ _ _ _ _ _ _ => .vector
  | .vMulh _ _ _ _ _ _ _ => .vector
  | .vAdds _ _ _ _ _ _ _ => .vector
  | .vSubs _ _ _ _ _ _ _ => .vector
  | .vAnd _ _ _ _ _ _ _ => .vector
  | .vOr _ _ _ _ _ _ _ => .vector
  | .vXor _ _ _ _ _ _ _ => .vector
  | .vShl _ _ _ _ _ _ _ => .vector
  | .vShr _ _ _ _ _ _ _ => .vector
  | .vSra _ _ _ _ _ _ _ => .vector
  | .vMin _ _ _ _ _ _ _ => .vector
  | .vMax _ _ _ _ _ _ _ => .vector
  | .vMinu _ _ _ _ _ _ _ => .vector
  | .vMaxu _ _ _ _ _ _ _ => .vector
  | .vDiv _ _ _ _ _ _ _ => .vector
  | .vDivu _ _ _ _ _ _ _ => .vector
  | .vRem _ _ _ _ _ _ _ => .vector
  | .vRemu _ _ _ _ _ _ _ => .vector
  | .vIcmpEq _ _ _ _ _ _ _ => .vector
  | .vIcmpLt _ _ _ _ _ _ _ => .vector
  | .vIcmpLtu _ _ _ _ _ _ _ => .vector
  | .vShli _ _ _ _ _ _ => .vector
  | .vShri _ _ _ _ _ _ => .vector
  | .vSrai _ _ _ _ _ _ => .vector
  | .vWmacS8 _ _ _ _ _ _ _ _ => .vector
  | .vWmacU8 _ _ _ _ _ _ _ _ => .vector
  | .vWmacS16 _ _ _ _ _ _ _ _ => .vector
  | .vWmacU16 _ _ _ _ _ _ _ _ => .vector
  | .vWmacS8Sat _ _ _ _ _ _ _ _ => .vector
  | .vWmacU8Sat _ _ _ _ _ _ _ _ => .vector
  | .vWmacS16Sat _ _ _ _ _ _ _ _ => .vector
  | .vWmacU16Sat _ _ _ _ _ _ _ _ => .vector
  | .vsel _ _ _ _ _ _ => .vector
  | .vptst _ _ _ _ _ => .vector
  | .vmov _ _ _ _ _ => .vector
  | .cvtTo _ _ _ _ _ _ => .vector
  | .cvtFrom _ _ _ _ _ _ => .vector
  | .cvtIto _ _ _ _ _ _ => .vector
  | .vrotR _ _ _ _ _ _ => .vector
  | .vrotC _ _ _ _ _ _ => .vector
  | .vbcc _ _ _ _ _ _ => .vector
  | .vbcr _ _ _ _ _ _ => .vector
  | .vredR _ _ _ _ _ _ => .vector
  | .vredC _ _ _ _ _ _ => .vector
  | .vscanR _ _ _ _ _ _ => .vector
  | .vscanC _ _ _ _ _ _ => .vector
  | .dnorm _ _ _ => .vector
  | .dexp _ _ _ _ => .vector
  | .ddot _ _ _ _ _ => .vector
  | .ddotn _ _ _ _ _ => .vector
  | .dadd _ _ _ => .vector
  | .dsub _ _ _ => .vector
  | .dscl _ _ _ _ => .vector
  | .dscli _ _ _ => .vector
  | .dtst _ _ _ => .vector
  | .dcomp _ _ _ _ => .vector
  | .dnget _ _ _ _ => .vector
  | .lcvt _ _ _ _ _ _ => .vector
  | .lmul _ _ _ _ _ _ _ => .vector
  | .ldiv _ _ _ _ _ _ _ => .vector
  | .lsh _ _ _ _ _ _ _ => .vector
  | .lfn _ _ _ _ _ _ => .vector
  | .vqpop _ _ _ => .xslot
  | .vqpopPeek _ _ _ => .xslot
  | .vqpopNr _ _ _ _ => .xslot
  | .rqpop _ _ => .xslot
  | .rqpopNr _ _ _ => .xslot
  | .kand _ _ _ => .xslot
  | .kor _ _ _ => .xslot
  | .kxor _ _ _ => .xslot
  | .kandn _ _ _ => .xslot
  | .knot _ _ => .xslot
  | .kset _ => .xslot
  | .kclr _ => .xslot
  | .kany _ _ => .xslot
  | .kall _ _ => .xslot
  | .sset _ _ _ => .xslot
  | .sbind _ _ _ => .xslot
  | .sunbind _ _ => .xslot
  | .qrdy _ _ => .xslot
  | .xBr _ _ _ => .xslot
  | .xLoop _ _ _ => .xslot
  | .xLcseti _ _ _ _ => .xslot
  | .xTokPut _ _ => .xslot
  | .xTokGet _ _ => .xslot
  | .phaseBegin _ => .xslot
  | .eLoop _ _ _ => .engine
  | .eLcseti _ _ _ _ => .engine
  | .eBr _ _ _ => .engine
  | .eTokPut _ _ => .engine
  | .eTokGet _ _ => .engine
  | .tagwAny _ _ _ => .engine
  | .tagwAll _ _ _ => .engine
  | .tagwTst _ _ _ _ => .engine
  | .patch _ _ _ _ _ _ _ => .engine
  | .patchM _ _ _ _ _ _ _ => .matrix
  | .accClr _ => .matrix
  | .accLd _ _ _ _ => .matrix
  | .accSt _ _ _ _ => .matrix
  | .accMov _ _ => .matrix
  | .accTov _ _ _ => .matrix
  | .accFromv _ _ _ => .matrix
  | .mpush _ _ _ _ => .matrix
  | .mwait _ => .matrix
  | .nop => .scalar
  | .fenceCore => .scalar
  | .fenceDie => .scalar
  | .fencePkg => .scalar
  | .fencePod => .scalar
  | .ffence => .scalar
  | .trigger => .scalar
  | .yield => .scalar
  | .exit => .scalar
  | .brk => .scalar
  | .tret => .scalar
  | .wdsvc => .scalar
  | .invalAll => .scalar
  | .vNop => .vector
  | .xNop => .xslot
  | .swap => .xslot
  | .xYield => .xslot
  | .eNop => .engine
  | .eSwap => .engine
  | .eYield => .engine
  | .mNop => .matrix
  | .mwaitAll => .matrix
  | .arrive => .event
  | .gather => .event
  | .depart => .event
  | .mcast => .event
  | .relay => .event
  | .fill => .event
  | .mapInstall => .event
  | .mapSwap => .event
  | .mapRetire => .event
  | .mapQuery => .event
  | .ringInit => .event
  | .allgather => .event
  | .redscat => .event
  | .allred => .event
  | .bcast => .event
  | .permute => .event
  | .mma => .event
  | .mmaKStep => .event
  | .mmaRetire => .event
  | .packetHeader => .event
  | .packetBeat => .event
  | .packetAnswer => .event
  | .copyComplete => .event
  | .holdTimeout => .event
  | .mapBoundary => .event
  | .portRowRead => .event
  | .portRowWrite => .event
  | .overflowLogDrain => .event
  | .unlandedLogDrain => .event
  | .mwulogDrain => .event
  | .translationWalk => .event
  | .homeAccess => .event
  | .loadReturn => .event
  | .storeQueueDepart => .event
  | .storeAck => .event
  | .timedStoreArrival => .event
  | .timedStoreDue => .event
  | .notBeforePerform => .event
  | .pinAtHome => .event
  | .unpinAtHome => .event
  | .factorAtHome => .event
  | .factorResult => .event
  | .swapRendezvous => .event
  | .taskSave => .event
  | .selectionRound => .event
  | .bindTask => .event
  | .taskStart => .event
  | .asyncCause => .event
  | .watchdogExpiry => .event
  | .correctableFreeze => .event
  | .freezeEnd => .event
  | .uncorrectableError => .event
  | .containedStop => .event
  | .leaveGrant => .event
  | .leaveTimeout => .event
  | .throttleStep => .event
  | .thermalStop => .event
  | .clockTick => .event
  | .syncMessage => .event
  | .lockLoss => .event
  | .reset => .event
  | .pkgrstWrite => .event
  | .clkinitWrite => .event
  | .linkLost => .event
  | .dieLost => .event
  | .replayExhausted => .event
  | .cfgdataRead => .event
  | .cfgdataWrite => .event
  | .bankfmtWrite => .event
  | .bankfmtEffect => .event
  | .ringdescWrite => .event
  | .dbufWrite => .event
  | .boexpWrite => .event
  | .tagsWrite => .event
  | .registerWrite => .event
  | .ilvFlip => .event
  | .ilvDrained => .event
  | .tdmSwitch => .event
  | .lqcmdGo => .event
  | .resumeWrite => .event
  | .preqWrite => .event
  | .dhaltWrite => .event
  | .sgctlGo => .event
  | .groupDrainEnd => .event
  | .groupRetrainEnd => .event
  | .groupRekeyEnd => .event
  | .groupRateFall => .event
  | .windowStallTimeout => .event
  | .fabricTimeout => .event
  | .peerWindowPacket => .event
  | .migcmdGo => .event
  | .migrationRetire => .event
  | .ckctlGo => .event
  | .checkpointEnd => .event
  | .rwcmdGo => .event
  | .regionWorldApply => .event
  | .keyLoad => .event
  | .keyErase => .event
  | .keySwitchSchedule => .event
  | .keyPhaseSwitch => .event
  | .oldKeyErase => .event
  | .spdmMessage => .event
  | .lockInterface => .event
  | .stopInterface => .event
  | .hostRequest => .event
  | .collectiveComplete => .event
  | .startInterface => .event
  | .firstFlitUnderNewSet => .event
  | .powerRemoved => .event

/-- The kind of the words of an opcode space. -/
def Space.kind : Space → WordKind
  | .control => .scalar
  | .load => .engine
  | .store => .engine
  | .v0 => .vector
  | .v1 => .vector
  | .m => .matrix
  | .x => .xslot

/-- An instruction that passes the decode checks of R187 in the space `sp`. -/
def WellFormed (sp : Space) (i : Instr) : Bool :=
  i.kind = sp.kind && !i.illegalField && !i.reservedField && !i.badRegister sp

end Sys2Proof
end

