-- ==== Sys2Proof/Safety.lean ====
section
/-! DEFINITION. What counts as a safe run: no step stops the machine and the memory keeps its canonical form; and the words in which
claims are made: that an instruction completes, and what it leaves as it was. -/
namespace Sys2Proof.Machine

/-- The state right after a word or event that completes. -/
def State.completed (s : State) : State := { s with last := .done }

/-- A state from which the machine goes on. -/
def GoesOn (s : State) : Prop := ∃ t, step s = .next t

/-- `t` is reached from `s` in some number of steps. -/
inductive Reaches (s : State) : State → Prop where
  | refl : Reaches s s
  | more (t u : State) : Reaches s t → step t = .next u → Reaches s u

/-- A safe run: the machine never stops, and memory stays in its canonical form. -/
def SafeFrom (s : State) : Prop := ∀ t, Reaches s t → GoesOn t ∧ t.mem.wf = true

/-- The word or event completes, and the machine is then in state `t`. -/
def Completes (i : Instr) (s t : State) : Prop := exec i s = .next t.completed

/-- The word raises a cause precisely on sequencer `q`, with TVALUE and FAULTADDR (R350, R352), which within a cycle of the machine takes
its way at the cycle's end where `q` is not the control sequencer (log entry 77); a miss of the translation cache whose walk gave the
cause is counted (R366). -/
def Raises (i : Instr) (q : Seq) (s : State) (c : Cause) (tv : Word64) (addr : Addr) : Prop :=
  exec i s = .next { (s.failedMiss q c addr).take c q (s.pcOf q) false tv addr with last := .raised c tv addr }

/-- The word waits: of the machine, only the model's record of the issue changes. -/
def Waits (i : Instr) (s : State) : Prop := exec i s = .next { s with last := .waits }

/-- What the turn of sequencer `q` at `s` comes to, where its word or its boundary has come to `t` (R350, R393, R394): where a table may not
be read now, or a cause waits already and `t` raises another, the word is not performed; a cause of the control sequencer waits for the puts
that are tried once more; else `t` stands. -/
def turnComes (s : State) (q : Seq) (t : State) : State :=
  let raised : Bool := match t.last with
    | .raised _ _ _ => true
    | _ => false
  if s.tablesHeld t = true ∨ (raised = true ∧ s.cycle.held.isSome = true) then { s with last := .waits }
  else if raised = true ∧ q = .control ∧ s.cycle.again ≠ [] then
    { s with last := .waits, cycle := { s.cycle with again := s.cycle.again ++ [.control] } }
  else { t with cycle := { t.cycle with defers := false } }

/-- Sequencer `q` has its turn at `s`: its first of the cycle, or one for a put that is tried once more; `c` is the state in which its word
is run. -/
def HasTurn (s : State) (q : Seq) (c : State) : Prop :=
  (s.turn = .seq q ∧ c = { s with cycle := { s.cycle with defers := true } }) ∨
    (s.turn = .again q ∧ c = { s with cycle := { s.cycle with again := s.cycle.again.tail, defers := true } })

/-- The state before the word of a turn, its cycle as at the turn's begin. -/
def turnBegins (s : State) : State :=
  match s.turn with
  | .again _ => { s with cycle := { s.cycle with again := s.cycle.again.tail } }
  | _ => s

/-- A step of sequencer `q` at `s` whose turn has come to `t`: what stands then, and whose turn is next. -/
def Turns (s : State) (q : Seq) (t : State) : Prop :=
  step s = .next { turnComes (turnBegins s) q t with turn := (turnComes (turnBegins s) q t).nextTurn s.turn }

/-- Every byte of memory reads as before. -/
def KeepsMemory (s t : State) : Prop := ∀ c, t.cell c = s.cell c

/-- Everything is as before but the scalar registers, the sequencers' own registers and the model's record of the issue. -/
def KeepsBeyondScalars (s t : State) : Prop := { t with sc := s.sc, seqs := s.seqs, last := s.last } = s

/-- Everything is as before but memory and what the control sequencer's memory interface keeps, the scalar registers, the sequencers' own
registers, the performance counters and PHSTAT.PIN, the tags, and the model's records of the issue and of events. -/
def KeepsBeyondMemory (s t : State) : Prop :=
  { t with sc := s.sc, seqs := s.seqs, last := s.last, mem := s.mem, mu := s.mu, csr := s.csr, agenda := s.agenda, trap := s.trap
           draws := s.draws, outbox := s.outbox, pkg := s.pkg } = s

/-- Scalar registers other than gD are as before. -/
def KeepsScalarsBut (d : BitVec 5) (s t : State) : Prop :=
  (∀ r, r ≠ d → t.gReg r = s.gReg r) ∧ (∀ r, t.aReg r = s.aReg r) ∧ (∀ r, t.mReg r = s.mReg r) ∧
    t.sc.bankG = s.sc.bankG ∧ t.sc.bankA = s.sc.bankA

/-- Scalar registers other than aD are as before. -/
def KeepsScalarsButA (d : BitVec 5) (s t : State) : Prop :=
  (∀ r, t.gReg r = s.gReg r) ∧ (∀ r, r ≠ d → t.aReg r = s.aReg r) ∧ (∀ r, t.mReg r = s.mReg r) ∧
    t.sc.bankG = s.sc.bankG ∧ t.sc.bankA = s.sc.bankA

/-- Of the sequencers' registers, only the program counter of the control sequencer may have changed. -/
def KeepsSequencers (s t : State) : Prop :=
  (∀ q, (t.seqOf q).p = (s.seqOf q).p ∧ (t.seqOf q).lc = (s.seqOf q).lc ∧ (t.seqOf q).run = (s.seqOf q).run) ∧
    ∀ q, q ≠ .control → t.pcOf q = s.pcOf q

/-- A control word completes in every state: gD takes the value, g0 staying zero (R190), the program counter moves past the word
(R186), and nothing else changes. -/
def WritesG (i : Instr) (d : BitVec 5) (v : State → Word64) : Prop :=
  ∀ s, ∃ t, exec i s = .next t ∧ t.last = .done ∧ t.gReg d = (if d = 0 then 0 else v s) ∧ t.pcOf .control = s.pcOf .control + 4 ∧
    KeepsScalarsBut d s t ∧ KeepsSequencers s t ∧ KeepsBeyondScalars s t

/-- A control word completes in every state: aD takes the value, the program counter moves past the word, and nothing else changes. -/
def WritesA (i : Instr) (d : BitVec 5) (v : State → Addr) : Prop :=
  ∀ s, ∃ t, exec i s = .next t ∧ t.last = .done ∧ t.aReg d = v s ∧ t.pcOf .control = s.pcOf .control + 4 ∧
    KeepsScalarsButA d s t ∧ KeepsSequencers s t ∧ KeepsBeyondScalars s t

/-- A control word completes in every state: its predicates read as `v` gives them, p0 staying one (R206), the program counter moves
past the word, and nothing else changes. -/
def WritesP (i : Instr) (v : State → BitVec 4 → Bool) : Prop :=
  ∀ s, ∃ t, exec i s = .next t ∧ t.last = .done ∧ (∀ k, t.pred .control k = (k == 0 || v s k)) ∧
    t.pcOf .control = s.pcOf .control + 4 ∧ t.sc = s.sc ∧ t.seqs.control.lc = s.seqs.control.lc ∧
    t.seqs.control.run = s.seqs.control.run ∧ (∀ q, q ≠ .control → t.seqOf q = s.seqOf q) ∧ KeepsBeyondScalars s t

/-- Predicate dD takes a value, the others keep theirs. -/
def onePred (d : BitVec 4) (v : State → Bool) (s : State) (k : BitVec 4) : Bool :=
  if k = d then v s else s.pred .control k

/-- Everything is as before but the registers of one sequencer and the model's record of the issue. -/
def OnlySequencer (q : Seq) (s t : State) : Prop :=
  { t with seqs := s.seqs, last := s.last } = s ∧ ∀ r, r ≠ q → t.seqOf r = s.seqOf r

/-- The word completes and moves its sequencer's program counter to `a`; nothing else changes. -/
def Jumps (i : Instr) (q : Seq) (s : State) (a : Addr) : Prop :=
  ∃ t, exec i s = .next t ∧ t.last = .done ∧ t.pcOf q = a ∧ OnlySequencer q s t ∧
    (t.seqOf q).p = (s.seqOf q).p ∧ (t.seqOf q).lc = (s.seqOf q).lc ∧ (t.seqOf q).run = (s.seqOf q).run

/-- The word is the loop close of R219 on counter `c` of its sequencer, with its target and the address of the next word. -/
def ClosesLoop (i : Instr) (q : Seq) (s : State) (rot : BitVec 1) (c : BitVec 2) (target next : Addr) : Prop :=
  ∃ t, exec i s = .next t ∧ t.last = .done ∧ OnlySequencer q s t ∧ (t.seqOf q).run = (s.seqOf q).run ∧
    (let l := s.lcOf q c
     t.pcOf q = (if l.rem ≠ 0 ∨ l.drain ≠ 0 then target else next) ∧
     t.lcOf q c = (if l.rem ≠ 0 then ⟨l.rem - 1, l.drain⟩ else if l.drain ≠ 0 then ⟨0, l.drain - 1⟩ else l) ∧
     (∀ k, k ≠ c → t.lcOf q k = s.lcOf q k) ∧
     ∀ k : BitVec 4, t.pred q k =
       (if rot = 1 ∧ 8 < k.toNat then s.pred q (k - 1) else if rot = 1 ∧ k = 8 then decide (l.rem ≠ 0) else s.pred q k))

/-- The word sets counter `c` of its sequencer to `count` passes and `drain` (R220), and moves past itself. -/
def SetsLoop (i : Instr) (q : Seq) (s : State) (init : BitVec 1) (c : BitVec 2) (count : Nat) (drain : BitVec 3) : Prop :=
  ∃ t, exec i s = .next t ∧ t.last = .done ∧ OnlySequencer q s t ∧ (t.seqOf q).run = (s.seqOf q).run ∧
    t.pcOf q = s.nextPc q ∧ t.lcOf q c = ⟨BitVec.ofNat 32 (count - 1), drain⟩ ∧ (∀ k, k ≠ c → t.lcOf q k = s.lcOf q k) ∧
    ∀ k : BitVec 4, t.pred q k = (if init = 1 ∧ 8 ≤ k.toNat then decide (k = 8) else s.pred q k)

/-- Scalar registers other than gD and aA are as before. -/
def KeepsScalarsBut2 (d a : BitVec 5) (s t : State) : Prop :=
  (∀ r, r ≠ d → t.gReg r = s.gReg r) ∧ (∀ r, r ≠ a → t.aReg r = s.aReg r) ∧ (∀ r, t.mReg r = s.mReg r) ∧
    t.sc.bankG = s.sc.bankG ∧ t.sc.bankA = s.sc.bankA

/-- Every CSR held in the core but the performance counters (R366) and those of a list is as before. -/
def KeepsCsrsBut (l : List Nat) (s t : State) : Prop := ∀ n, ¬ (0xC8 ≤ n ∧ n < 0xD0) → n ∉ l → t.csrOf n = s.csrOf n

/-- Everything is as before but scalar registers, the sequencers, memory, the core's memory interface, the CSRs, the causes held for
their boundary and the model's record of the issue. -/
def KeepsBeyondAccess (s t : State) : Prop :=
  { t with sc := s.sc, seqs := s.seqs, last := s.last, mem := s.mem, mu := s.mu, csr := s.csr
           trap := { t.trap with pend := s.trap.pend } } = s

/-- Every cell outside `n` cells from `c` on reads as before. -/
def KeepsMemoryBut (c n : Nat) (s t : State) : Prop := ∀ x, x < c ∨ c + n ≤ x → t.cell x = s.cell x

/-- Vector register `d` holds the lanes `f` gives; no other register of the vector file changed from `s` to `t`. -/
def FillsV (s t : State) (d : BitVec 6) (f : Nat → Lane) : Prop :=
  (∀ i, i < 1024 → vlane (mget t.vec.file.v [] d.toNat) i = f i) ∧
    (∀ n, n ≠ d.toNat → mget t.vec.file.v [] n = mget s.vec.file.v [] n) ∧ t.vec.file.k = s.vec.file.k ∧ t.vec.file.d = s.vec.file.d

/-- Everything is as before but the vector unit, the compute sequencer's own registers and the model's record of the issue. -/
def KeepsBeyondVector (s t : State) : Prop :=
  { t with vec := s.vec, seqs := s.seqs, last := s.last } = s ∧ ∀ q, q ≠ .compute → t.seqOf q = s.seqOf q

/-- Everything is as before but the vector unit, the overflow log, OVFCTL and the performance counters, and what the log and the ports
make due. -/
def KeepsBeyondVectorLogs (s t : State) : Prop :=
  { t with vec := s.vec, csr := s.csr, logs := s.logs, agenda := s.agenda, trap := { t.trap with pend := s.trap.pend }
           last := s.last } = s ∧ KeepsCsrsBut [0x17] s t

/-- The word completes whatever its operands give: `k` is its mask and `a`, `b`, `c` are the images of its vector operands. -/
def VRuns (i : Instr) (s : State) (post : VForm → BitVec 1024 → VReg → VReg → VReg → State → Prop) : Prop :=
  ∀ f, vform i = some f → ∀ a s1 b s2 c s3, s.sourceIf (f.ak == .vec) i 0 f.a f.ha = .got a s1 →
    s1.sourceIf (f.bk == .vec) i 1 f.b f.hb = .got b s2 → s2.sourceIf (f.dk == .regRead) i 2 f.d f.hc = .got c s3 →
    (f.dk ≠ .mask → f.dk ≠ .dir → f.d.toNat < 48) →
    ∃ t, exec i s = .next t ∧ t.last = .done ∧ KeepsBeyondVectorLogs s t ∧
      post f (if f.men then s.kReg f.k.toNat else BitVec.allOnes 1024) a b c t

/-- The word writes the lanes of vD under its mask; vsel, whose mask chooses, writes every lane. -/
def VFills (i : Instr) (s : State) (g : VReg → VReg → VReg → Nat → Lane) : Prop :=
  VRuns i s (fun f k a b c t => FillsV s t f.d (fun n =>
    if f.dk = .selReg ∨ k.getLsbD n = true then g a b c n else vlane (mget s.vec.file.v [] f.d.toNat) n))

/-- The word writes the bits of kD under its mask. -/
def VMasks (i : Instr) (s : State) (g : VReg → VReg → Nat → Bool) : Prop :=
  VRuns i s (fun f k a b _ t => t.vec.file.v = s.vec.file.v ∧ t.vec.file.d = s.vec.file.d ∧
    (∀ n, n ≠ f.d.toNat → mget t.vec.file.k 0 n = mget s.vec.file.k 0 n) ∧
    ∀ n, n < 1024 → (mget t.vec.file.k 0 f.d.toNat).getLsbD n =
      if k.getLsbD n then g a b n else (mget s.vec.file.k 0 f.d.toNat).getLsbD n)

/-- The word writes the sixteen rows of dD. -/
def VRows (i : Instr) (s : State) (g : VReg → VReg → Nat → DRow) : Prop :=
  VRuns i s (fun f _ a b _ t => t.vec.file.v = s.vec.file.v ∧ t.vec.file.k = s.vec.file.k ∧
    (∀ n, n ≠ f.d.toNat → mget t.vec.file.d .zero n = mget s.vec.file.d .zero n) ∧
    ∀ r, r < 16 → (mget t.vec.file.d .zero f.d.toNat).norm r = (g a b r).norm ∧
      ∀ c, c < 64 → (mget t.vec.file.d .zero f.d.toNat).comp r c = (BitVec.ofInt 16 ((g a b r).comps.getD c 0)).toInt)

end Sys2Proof.Machine
end

