-- ==== Sys2Proof/Certificates/Slice0/Obligations.lean ====
section
/-! DEFINITION. The statements for the provers. -/

open Sys2Proof Sys2Proof.Machine

/-- Integer, count and extension words of opcode 0x02 write their result to gD and change nothing else (11_scalar_instructions.md
R209, R190). add, sub, and, or, xor, andn, shl, shr, sra, rol, mul, mulh, mulhu, min, max, minu, maxu, adds and subs complete in
every state: gD takes the result of R209, a write to g0 is discarded, the program counter moves by 4, and every other register,
memory byte and unit is unchanged. clz, sextb, sexth, sextw and zextw complete in every state with the result of R209. ctz writes
the number of the lowest one bit, 64 where there is none; popc writes the number of one bits. Nothing else changes. -/
def Obligations.IntegerWords : Prop :=
    (∀ d a b : BitVec 5,
    WritesG (.add d a b) d (fun s => s.gReg a + s.gReg b) ∧
    WritesG (.sub d a b) d (fun s => s.gReg a - s.gReg b) ∧
    WritesG (.and d a b) d (fun s => s.gReg a &&& s.gReg b) ∧
    WritesG (.or d a b) d (fun s => s.gReg a ||| s.gReg b) ∧
    WritesG (.xor d a b) d (fun s => s.gReg a ^^^ s.gReg b) ∧
    WritesG (.andn d a b) d (fun s => s.gReg a &&& ~~~(s.gReg b)) ∧
    WritesG (.shl d a b) d (fun s => s.gReg a <<< ((s.gReg b).toNat % 64)) ∧
    WritesG (.shr d a b) d (fun s => s.gReg a >>> ((s.gReg b).toNat % 64)) ∧
    WritesG (.sra d a b) d (fun s => (s.gReg a).sshiftRight ((s.gReg b).toNat % 64)) ∧
    WritesG (.rol d a b) d (fun s => (s.gReg a).rotateLeft ((s.gReg b).toNat % 64)) ∧
    WritesG (.mul d a b) d (fun s => s.gReg a * s.gReg b) ∧
    WritesG (.mulh d a b) d (fun s => BitVec.ofInt 64 ((s.gReg a).toInt * (s.gReg b).toInt / 2 ^ 64)) ∧
    WritesG (.mulhu d a b) d (fun s => BitVec.ofNat 64 ((s.gReg a).toNat * (s.gReg b).toNat / 2 ^ 64)) ∧
    WritesG (.min d a b) d (fun s => if (s.gReg b).toInt < (s.gReg a).toInt then s.gReg b else s.gReg a) ∧
    WritesG (.max d a b) d (fun s => if (s.gReg a).toInt < (s.gReg b).toInt then s.gReg b else s.gReg a) ∧
    WritesG (.minu d a b) d (fun s => if (s.gReg b).toNat < (s.gReg a).toNat then s.gReg b else s.gReg a) ∧
    WritesG (.maxu d a b) d (fun s => if (s.gReg a).toNat < (s.gReg b).toNat then s.gReg b else s.gReg a) ∧
    WritesG (.adds d a b) d (fun s => BitVec.ofInt 64 (max (-2 ^ 63) (min (2 ^ 63 - 1) ((s.gReg a).toInt + (s.gReg b).toInt)))) ∧
    WritesG (.subs d a b) d (fun s => BitVec.ofInt 64 (max (-2 ^ 63) (min (2 ^ 63 - 1) ((s.gReg a).toInt - (s.gReg b).toInt))))) ∧
    (∀ d a : BitVec 5,
    WritesG (.clz d a) d (fun s => BitVec.ofNat 64 (if s.gReg a = 0 then 64 else 63 - Nat.log2 (s.gReg a).toNat)) ∧
    WritesG (.sextb d a) d (fun s => ((s.gReg a).setWidth 8).signExtend 64) ∧
    WritesG (.sexth d a) d (fun s => ((s.gReg a).setWidth 16).signExtend 64) ∧
    WritesG (.sextw d a) d (fun s => ((s.gReg a).setWidth 32).signExtend 64) ∧
    WritesG (.zextw d a) d (fun s => ((s.gReg a).setWidth 32).setWidth 64) ∧
    (∃ f : Word64 → Word64, (∀ w, (w = 0 → f w = 64) ∧
        (w ≠ 0 → (f w).toNat < 64 ∧ w.getLsbD (f w).toNat = true ∧ ∀ j, j < (f w).toNat → w.getLsbD j = false)) ∧
      WritesG (.ctz d a) d (fun s => f (s.gReg a))) ∧
    WritesG (.popc d a) d (fun s => BitVec.ofNat 64 (((List.range 64).map (fun i => ((s.gReg a).getLsbD i).toNat)).sum)))

/-- div, divu, rem and remu divide as R210 states, by zero and at the overflow too (R210). The four division words complete in
every state with the quotient and remainder of Div: by zero the quotient is all ones and the remainder the dividend; signed -2^63
by -1 gives -2^63 and 0; else the quotient is truncated toward zero and the remainder is a - q*b. Nothing else changes. -/
def Obligations.DivisionWords : Prop :=
    (∀ d a b : BitVec 5,
    WritesG (.div d a b) d (fun s => if s.gReg b = 0 then 0xFFFFFFFFFFFFFFFF
      else BitVec.ofInt 64 ((s.gReg a).toInt.tdiv (s.gReg b).toInt)) ∧
    WritesG (.divu d a b) d (fun s => if s.gReg b = 0 then 0xFFFFFFFFFFFFFFFF
      else BitVec.ofNat 64 ((s.gReg a).toNat / (s.gReg b).toNat)) ∧
    WritesG (.rem d a b) d (fun s => if s.gReg b = 0 then s.gReg a
      else s.gReg a - BitVec.ofInt 64 ((s.gReg a).toInt.tdiv (s.gReg b).toInt) * s.gReg b) ∧
    WritesG (.remu d a b) d (fun s => if s.gReg b = 0 then s.gReg a
      else s.gReg a - BitVec.ofNat 64 ((s.gReg a).toNat / (s.gReg b).toNat) * s.gReg b)) ∧
    BitVec.ofInt 64 ((BitVec.intMin 64).toInt.tdiv (-1)) = BitVec.intMin 64

/-- Address words write their result to aD or gD and change nothing else; Immediate words write their result to gD and change
nothing else (11_scalar_instructions.md R213, R211, R212). aset, aadd, aand, amov and aaddi write the value of R213 to aD; asub,
alo and ahi write theirs to gD. They complete in every state, the program counter moves by 4, and nothing else changes. addi,
andi, ori, xori, shli, shri, srai, roli and movi complete in every state with the result of R211 and R212; movk replaces bits
[16h+15:16h] of gD by c and leaves its other bits. Nothing else changes. -/
def Obligations.AddressAndImmediateWords : Prop :=
    (∀ d a b : BitVec 5,
    WritesA (.aset d a b) d (fun s => ((s.gReg b).setWidth 8 ++ s.gReg a : BitVec 72)) ∧
    WritesA (.aadd d a b) d (fun s => s.aReg a + (s.gReg b).signExtend 72) ∧
    WritesA (.aand d a b) d (fun s => s.aReg a &&& (s.gReg b).signExtend 72) ∧
    WritesA (.amov d a) d (fun s => s.aReg a) ∧
    (∀ i : BitVec 16, WritesA (.aaddi d a i) d (fun s => s.aReg a + i.signExtend 72)) ∧
    WritesG (.asub d a b) d (fun s => (s.aReg a - s.aReg b).setWidth 64) ∧
    WritesG (.alo d a) d (fun s => (s.aReg a).setWidth 64) ∧
    WritesG (.ahi d a) d (fun s => BitVec.ofNat 64 ((s.aReg a).toNat / 2 ^ 64))) ∧
    ((∀ (d a : BitVec 5) (i : BitVec 16),
    WritesG (.addi d a i) d (fun s => s.gReg a + i.signExtend 64) ∧
    WritesG (.andi d a i) d (fun s => s.gReg a &&& i.setWidth 64) ∧
    WritesG (.ori d a i) d (fun s => s.gReg a ||| i.setWidth 64) ∧
    WritesG (.xori d a i) d (fun s => s.gReg a ^^^ i.setWidth 64)) ∧
    (∀ (d a : BitVec 5) (n : BitVec 6),
    WritesG (.shli d a n) d (fun s => s.gReg a <<< n.toNat) ∧
    WritesG (.shri d a n) d (fun s => s.gReg a >>> n.toNat) ∧
    WritesG (.srai d a n) d (fun s => (s.gReg a).sshiftRight n.toNat) ∧
    WritesG (.roli d a n) d (fun s => (s.gReg a).rotateLeft n.toNat)) ∧
    (∀ (d : BitVec 5) (i : BitVec 21), WritesG (.movi d i) d (fun _ => i.signExtend 64)) ∧
    (∀ (d : BitVec 5) (h : BitVec 2) (c : BitVec 16), ∃ f : Word64 → Word64, WritesG (.movk d h c) d (fun s => f (s.gReg d)) ∧
      ∀ (w : Word64) (k : Nat), (f w).getLsbD k = if 16 * h.toNat ≤ k ∧ k < 16 * h.toNat + 16 then c.getLsbD (k - 16 * h.toNat) else w.getLsbD k))

/-- Compares to predicates set pD to their relation and change nothing else; Predicate words, and the moves between predicates and
gD (11_scalar_instructions.md R214, R215, R206). cmp, cmpi, acmp and tst complete in every state: pD is one where the relation of
R214 or R215 holds, else zero; a write to p0 is discarded; the program counter moves by 4 and nothing else changes. pand, por,
pxor and pandn set pD; prd reads the sixteen predicates into gD with bit 0 one; pwr sets p1 to p15 from gA. They complete in every
state and nothing else changes. -/
def Obligations.PredicateWords : Prop :=
    ((∀ (d : BitVec 4) (a b : BitVec 5),
    WritesP (.cmpEq d a b) (onePred d (fun s => s.gReg a == s.gReg b)) ∧
    WritesP (.cmpNe d a b) (onePred d (fun s => s.gReg a != s.gReg b)) ∧
    WritesP (.cmpLt d a b) (onePred d (fun s => decide ((s.gReg a).toInt < (s.gReg b).toInt))) ∧
    WritesP (.cmpGe d a b) (onePred d (fun s => decide ((s.gReg b).toInt ≤ (s.gReg a).toInt))) ∧
    WritesP (.cmpLtu d a b) (onePred d (fun s => decide ((s.gReg a).toNat < (s.gReg b).toNat))) ∧
    WritesP (.cmpGeu d a b) (onePred d (fun s => decide ((s.gReg b).toNat ≤ (s.gReg a).toNat))) ∧
    WritesP (.acmpEq d a b) (onePred d (fun s => s.aReg a == s.aReg b)) ∧
    WritesP (.acmpLtu d a b) (onePred d (fun s => decide ((s.aReg a).toNat < (s.aReg b).toNat))) ∧
    WritesP (.tst d a b) (onePred d (fun s => s.gReg a &&& s.gReg b != 0))) ∧
    (∀ (d : BitVec 4) (a : BitVec 5) (i : BitVec 13),
    WritesP (.cmpiEq d a i) (onePred d (fun s => s.gReg a == i.signExtend 64)) ∧
    WritesP (.cmpiNe d a i) (onePred d (fun s => s.gReg a != i.signExtend 64)) ∧
    WritesP (.cmpiLt d a i) (onePred d (fun s => decide ((s.gReg a).toInt < (i.signExtend 64).toInt))) ∧
    WritesP (.cmpiGe d a i) (onePred d (fun s => decide ((i.signExtend 64).toInt ≤ (s.gReg a).toInt))) ∧
    WritesP (.cmpiLtu d a i) (onePred d (fun s => decide ((s.gReg a).toNat < (i.signExtend 64).toNat))) ∧
    WritesP (.cmpiGeu d a i) (onePred d (fun s => decide ((i.signExtend 64).toNat ≤ (s.gReg a).toNat))))) ∧
    ((∀ d a b : BitVec 4,
    WritesP (.pand d a b) (onePred d (fun s => s.pred .control a && s.pred .control b)) ∧
    WritesP (.por d a b) (onePred d (fun s => s.pred .control a || s.pred .control b)) ∧
    WritesP (.pxor d a b) (onePred d (fun s => s.pred .control a ^^ s.pred .control b)) ∧
    WritesP (.pandn d a b) (onePred d (fun s => s.pred .control a && !s.pred .control b))) ∧
    (∀ d : BitVec 5, ∃ f : State → Word64, WritesG (.prd d) d f ∧
      ∀ s (k : BitVec 4), (f s).getLsbD k.toNat = s.pred .control k ∧ (f s).toNat < 2 ^ 16) ∧
    ∀ a : BitVec 5, WritesP (.pwr a) (fun s k => (s.gReg a).getLsbD k.toNat))

/-- sel and asel choose by the predicate and its NEG bit; other kinds are illegal (R216). sel writes gA to gD, and asel aA to aD,
where p XOR NEG is one, else gB or aB; nothing else changes. A word of opcode 0x0E whose kind is 2 to 31 raises ILLEGAL, and one
of kind 0 or 1 whose reserved bit is set raises RESERVED_BITS. -/
def Obligations.SelectWords : Prop :=
    (∀ (d a b : BitVec 5) (n : BitVec 1) (p : BitVec 4),
    WritesG (.sel d a b n p) d (fun s => if (s.pred .control p ^^ (n == 1)) = true then s.gReg a else s.gReg b) ∧
    WritesA (.asel d a b n p) d (fun s => if (s.pred .control p ^^ (n == 1)) = true then s.aReg a else s.aReg b)) ∧
    ∀ w : Word32, bits w 26 6 = 0x0E →
      (2 ≤ (bits w 6 5).toNat → decode .control w = .error .illegal) ∧
      ((bits w 6 5).toNat < 2 → bits w 5 1 = 1 → decode .control w = .error .reservedBits)

/-- Jumps, calls, branches and nops move the program counter as their rule says; a target off a word boundary raises MISALIGN
(11_scalar_instructions.md R218, R186, R217, R304, R206, 10_instruction_words.md R193, R194, R304). jmp and callr set the program
counter to aA, callr a15 to PC + 4 after the target is read. Where bits [1:0] of the target are not zero, they raise MISALIGN on
the jumping word. Nothing else changes. br of the control sequencer, the X slot and the load and store sequencers is taken when
p[P] XOR NEG = 1: the program counter moves by OFF words, else past the word. A taken call writes a15 := PC + 4, a call that is
not taken writes nothing. Nothing else changes. nop, x.nop and e.nop move their own sequencer past the word; the nops of the V and
M slots change nothing, their group being moved by its X slot. -/
def Obligations.BranchWords : Prop :=
    (∀ (s : State) (a : BitVec 5), ((s.aReg a).toNat % 4 = 0 →
      Jumps (.jmp a) .control s (s.aReg a) ∧
      ∃ t, exec (.callr a) s = .next t ∧ t.last = .done ∧ t.pcOf .control = s.aReg a ∧ t.aReg 15 = s.pcOf .control + 4 ∧
        KeepsScalarsButA 15 s t ∧ KeepsSequencers s t ∧ KeepsBeyondScalars s t) ∧
    ((s.aReg a).toNat % 4 ≠ 0 → Raises (.jmp a) .control s .misalign 0 0 ∧ Raises (.callr a) .control s .misalign 0 0)) ∧
    ((∀ (s : State) (n : BitVec 1) (p : BitVec 4) (o : BitVec 21),
    Jumps (.br n p o) .control s (if (s.pred .control p ^^ (n == 1)) = true then s.pcOf .control + o.signExtend 72 * 4 else s.pcOf .control + 4) ∧
    Jumps (.xBr n p o) .compute s (if (s.pred .compute p ^^ (n == 1)) = true then s.pcOf .compute + o.signExtend 72 * 16 else s.pcOf .compute + 16) ∧
    (∀ q, q = s.engineSeq →
      Jumps (.eBr n p o) q s (if (s.pred q p ^^ (n == 1)) = true then s.pcOf q + o.signExtend 72 * 4 else s.pcOf q + 4)) ∧
    ∃ t, exec (.call n p o) s = .next t ∧ t.last = .done ∧ KeepsSequencers s t ∧ KeepsBeyondScalars s t ∧
      (if (s.pred .control p ^^ (n == 1)) = true then
        t.pcOf .control = s.pcOf .control + o.signExtend 72 * 4 ∧ t.aReg 15 = s.pcOf .control + 4 ∧ KeepsScalarsButA 15 s t
      else t.pcOf .control = s.pcOf .control + 4 ∧ t.sc = s.sc)) ∧
    (∀ s : State, Jumps .nop .control s (s.pcOf .control + 4) ∧ Jumps .xNop .compute s (s.pcOf .compute + 16) ∧
    (∀ q, q = s.engineSeq → Jumps .eNop q s (s.pcOf q + 4)) ∧ Completes .vNop s s ∧ Completes .mNop s s))

/-- The loop close counts, shifts the window and branches; lcset, lcseti and lcwr set a loop counter or raise FIELD_RANGE
(11_scalar_instructions.md R219, R304, R220, R221, R222). loop counts REM, then DRAIN, down; with ROT it shifts p8 to p15 by one
and puts 1 into p8 while REM was not zero; it is taken unless both were zero. No other counter, predicate, sequencer or unit
changes. lcset and lcseti set REM := count - 1 and DRAIN := drain and with INIT p8 := 1 and p9 to p15 := 0; a count of 0, or for
lcset above 2^32, raises FIELD_RANGE. lcwr sets both fields from gA unless gA[63:35] is not zero, which raises FIELD_RANGE; lcrd
and mrd read. Nothing else changes. mset raises FIELD_RANGE where gA is 2^22 or more, gB is 0, or gA + gB exceeds 2^22; else mD
takes LEN gB in bits [54:32] and BASE gA in bits [21:0], and nothing else changes. The modulo post-increment faults where LEN is
0, the increment is longer than LEN, or the address lies outside the buffer; else the low 22 bits move by the increment, wrapped
by LEN into the buffer, and bits [71:22] stay. -/
def Obligations.LoopWords : Prop :=
    ((∀ (s : State) (r : BitVec 1) (c : BitVec 2) (o : BitVec 21),
    ClosesLoop (.loop r c o) .control s r c (s.pcOf .control + o.signExtend 72 * 4) (s.pcOf .control + 4) ∧
    ClosesLoop (.xLoop r c o) .compute s r c (s.pcOf .compute + o.signExtend 72 * 16) (s.pcOf .compute + 16) ∧
    ∀ q, q = s.engineSeq → ClosesLoop (.eLoop r c o) q s r c (s.pcOf q + o.signExtend 72 * 4) (s.pcOf q + 4)) ∧
    ((∀ (s : State) (z : BitVec 1) (c : BitVec 2) (d : BitVec 3),
    (∀ a : BitVec 5, (0 < (s.gReg a).toNat ∧ (s.gReg a).toNat ≤ 2 ^ 32 →
        SetsLoop (.lcset z c a d) .control s z c (s.gReg a).toNat d) ∧
      ((s.gReg a).toNat = 0 ∨ 2 ^ 32 < (s.gReg a).toNat → Raises (.lcset z c a d) .control s .fieldRange 0 0)) ∧
    ∀ n : BitVec 13, (n ≠ 0 → SetsLoop (.lcseti z c d n) .control s z c n.toNat d ∧
        SetsLoop (.xLcseti z c d n) .compute s z c n.toNat d ∧ ∀ q, q = s.engineSeq → SetsLoop (.eLcseti z c d n) q s z c n.toNat d) ∧
      (n = 0 → Raises (.lcseti z c d n) .control s .fieldRange 0 0 ∧ Raises (.xLcseti z c d n) .compute s .fieldRange 0 0 ∧
        ∀ q, q = s.engineSeq → Raises (.eLcseti z c d n) q s .fieldRange 0 0)) ∧
    (∀ (s : State) (c : BitVec 2) (a : BitVec 5),
      ((s.gReg a).toNat < 2 ^ 35 → ∃ t, exec (.lcwr c a) s = .next t ∧ t.last = .done ∧ OnlySequencer .control s t ∧
        t.pcOf .control = s.pcOf .control + 4 ∧ t.seqs.control.p = s.seqs.control.p ∧ t.seqs.control.run = s.seqs.control.run ∧
        t.lcOf .control c = ⟨(s.gReg a).setWidth 32, BitVec.ofNat 3 ((s.gReg a).toNat / 2 ^ 32)⟩ ∧
        ∀ k, k ≠ c → t.lcOf .control k = s.lcOf .control k) ∧
      (2 ^ 35 ≤ (s.gReg a).toNat → Raises (.lcwr c a) .control s .fieldRange 0 0)) ∧
    (∀ (d : BitVec 5) (c : BitVec 2), WritesG (.lcrd d c) d
      (fun s => BitVec.ofNat 64 ((s.lcOf .control c).drain.toNat * 2 ^ 32 + (s.lcOf .control c).rem.toNat))) ∧
    ∀ (d : BitVec 5) (m : BitVec 3), WritesG (.mrd d m) d (fun s => s.mReg m))) ∧
    ((∀ (s : State) (m : BitVec 3) (a b : BitVec 5),
    (2 ^ 22 ≤ (s.gReg a).toNat ∨ (s.gReg b).toNat = 0 ∨ 2 ^ 22 < (s.gReg a).toNat + (s.gReg b).toNat →
      Raises (.mset m a b) .control s .fieldRange 0 0) ∧
    (0 < (s.gReg b).toNat → (s.gReg a).toNat < 2 ^ 22 → (s.gReg a).toNat + (s.gReg b).toNat ≤ 2 ^ 22 →
      ∃ t, exec (.mset m a b) s = .next t ∧ t.last = .done ∧ t.pcOf .control = s.pcOf .control + 4 ∧
        t.mReg m = BitVec.ofNat 64 ((s.gReg b).toNat * 2 ^ 32 + (s.gReg a).toNat) ∧ (∀ k, k ≠ m → t.mReg k = s.mReg k) ∧
        (∀ r, t.gReg r = s.gReg r) ∧ (∀ r, t.aReg r = s.aReg r) ∧ t.sc.bankG = s.sc.bankG ∧ t.sc.bankA = s.sc.bankA ∧
        KeepsSequencers s t ∧ KeepsBeyondScalars s t)) ∧
    (∀ (m : Word64) (a inc : Addr),
    let base := (m.toNat % 2 ^ 22 : Int)
    let len := (m.toNat / 2 ^ 32 % 2 ^ 23 : Int)
    let x := (a.toNat % 2 ^ 22 : Int)
    let inside := base ≤ x ∧ x < base + len ∧ inc.toInt ≤ len ∧ -len ≤ inc.toInt ∧ len ≠ 0 ∧ base + len ≤ 2 ^ 22
    (inside → ∃ b, modStep m a inc = some b ∧ b.toNat / 2 ^ 22 = a.toNat / 2 ^ 22 ∧
      let y := (b.toNat % 2 ^ 22 : Int)
      base ≤ y ∧ y < base + len ∧ (y = x + inc.toInt ∨ y = x + inc.toInt - len ∨ y = x + inc.toInt + len)) ∧
    (len = 0 ∨ len < inc.toInt ∨ len < -inc.toInt ∨ x < base ∨ base + len ≤ x → modStep m a inc = none)))

/-- Checks after a walk come in the order of R24; binding touches only the cache, ACC and DIRTY, counters; pins raise and lower
PIN (01_address_spaces.md R24, R28, R29, R366, R23, 02_tensors_and_tile_tables.md R38, R40). After its walk an access is refused
with WORLD in a normal world through a secure leaf, else PERMISSION for a supervisor leaf in user mode or a right that the leaf
does not give, else SEALED_STORE for a write or an atomic through a sealed leaf, else PAGE_ABSENT where the page is not present.
An access that is bound leaves every register of the core but the performance counters, and every unit, as it was. Memory is
unchanged where a cached leaf serves it that already shows DIRTY or that is only read through; where a walk serves a read, only
the 16 bytes of the table entry of the leaf found may change. A translation walk completes: where the walk and the checks of its
leaf pass, the leaf stands first in the translation cache and covers the address; else nothing changes. Another agent's pin
completes: PIN of an entry that is not stale is one more, and a stale one stays. Its unpin completes, of the entry that it bound:
PIN is one less, and an entry that was released and loses its last pin is freed. Choices of the model that this rests on: log
entries 36, 37 and 67. -/
def Obligations.AccessBinding : Prop :=
    ((∀ (e : BitVec 128) (k : AccessKind) (sup secure : Bool),
    checkLeaf e k sup secure =
      if e.getLsbD 7 = true ∧ secure = false then some .world
      else if (e.getLsbD 6 = true ∧ sup = false) ∨ (e.getLsbD 3 = false ∧ (k = .read ∨ k = .both)) ∨
        (e.getLsbD 4 = false ∧ (k = .write ∨ k = .both ∨ k = .seal)) ∨ (e.getLsbD 5 = false ∧ k = .fetch) then some .permission
      else if e.getLsbD 8 = true ∧ (k = .write ∨ k = .both) then some .sealedStore
      else if e.getLsbD 2 = false then some .pageAbsent
      else none) ∧
    (∀ (s t : State) (va : Addr) (k : AccessKind) (b : Bound) (l : Nat), s.bindAccess va k = .ok (t, b, l) →
    { t with mem := s.mem, mu := s.mu, csr := s.csr, trap := { t.trap with pend := s.trap.pend } } = s ∧ KeepsCsrsBut [] s t ∧
    { t.mu with tlb := s.mu.tlb } = s.mu ∧ { t.mem with bytes := s.mem.bytes } = s.mem ∧ b.va = va ∧ b.asid = s.asid ∧ b.secure = s.secure ∧
    b.pa = leafAddress b.leaf l va ∧
    (∀ e, s.mu.tlb.find? (fun e => e.covers s.asid va) = some e → checkLeaf e.leaf k s.sup s.secure = none →
      (k = .read ∨ e.leaf.getLsbD 12 = true) → t.mem = s.mem ∧ b.leaf = e.leaf) ∧
    (k = .read → ∃ e, t.mu.tlb.head? = some e ∧
      (t.mem = s.mem ∨ ∃ c, s.cellOf s.ilvCur e.entry = some c ∧ KeepsMemoryBut c 16 s t)))) ∧
    (∀ s : State,
    (∀ u l, s.walkAndFill s.input.asid s.input.addr (kindOfNum s.input.n) s.input.flag s.taskSecure = .ok (u, l) →
      Completes .translationWalk s u ∧ u.mu.tlb.head? = some l ∧ l.covers s.input.asid s.input.addr = true) ∧
    (∀ e, s.walkAndFill s.input.asid s.input.addr (kindOfNum s.input.n) s.input.flag s.taskSecure = .error e → Completes .translationWalk s s) ∧
    (let h : Word32 := s.input.v.setWidth 32
     (∀ f, s.readSlot s.input.asid (handleSlot h) = .error f → Completes .pinAtHome s s) ∧
     ∀ e, s.readSlot s.input.asid (handleSlot h) = .ok e →
      (∀ c, s.readTable e.pa 64 = .error c → Completes .pinAtHome s s) ∧
      ∀ v, s.readTable e.pa 64 = .ok v → let x := BitVec.ofNat 512 v
        (entryStale x (handleGen h) = false → Completes .pinAtHome s (s.writeTable e.pa 64 (put x 344 24 (tePin x + 1)).toNat)) ∧
        (entryStale x (handleGen h) = true → Completes .pinAtHome s s)) ∧
    (let pa := s.input.addr.toNat
     (∀ c, s.readTable pa 64 = .error c → Completes .unpinAtHome s s) ∧
     ∀ v, s.readTable pa 64 = .ok v →
      let x := BitVec.ofNat 512 v
      let x1 := put x 344 24 (tePin x - 1)
      ((1 < tePin x ∨ teRel x = false) → Completes .unpinAtHome s (s.writeTable pa 64 x1.toNat)) ∧
      (tePin x ≤ 1 → teRel x = true →
        let f := s.finishEntry s.ilvCur x1 pa (mget s.mu.releases none pa)
        Completes .unpinAtHome s { f with mu := { f.mu with releases := mset f.mu.releases none pa none } })))

/-- ld and ldx complete from a local home: they load, extend and update the address register; ld and ldx ask an outside home once
and complete with its answer (12_memory_instructions.md R231, R233, 01_address_spaces.md R24, R26, R25). ld and ldx raise MISALIGN
off their alignment and the refusals of their access and their home precisely. They wait while an earlier access of the sequencer
to the granule or an earlier factor operation is not performed. Else they complete: gD takes the bytes at the home, zeros where
the granule has no owner, zero- or sign-extended, g0 staying zero; aA takes the updated address; and nothing else changes but what
binding the access and its claim leave, the performance counters and the lines of the scalar data cache. Where the home lies
outside the package, the first issue of ld or ldx sends one request and waits; one to pool memory whose key slot is not loaded
raises KEY_ABSENT. With the answer to this word in hand they complete: gD takes its value, aA its updated address, and the granule
of a checked page its claim; a refusal is raised precisely, and CLAIM_FULL before anything is asked. Choices of the model that
this rests on: log entries 2, 3, 36, 49 and 76. -/
def Obligations.LoadWords : Prop :=
    (∀ (s : State) (d a : BitVec 5) (m : BitVec 1) (z : BitVec 2) (o : BitVec 9),
    let inc : Addr := o.signExtend 72 <<< z.toNat
    let ea := if m = 0 then s.aReg a + inc else s.aReg a
    let na := if m = 0 then s.aReg a else s.aReg a + inc
    let n := 2 ^ z.toNat
    ∀ i : Instr, (i = .ld d a m z o ∨ i = .ldx d a m z o) →
    (ea.toNat % n ≠ 0 → Raises i .control s .misalign 0 0) ∧
    (ea.toNat % n = 0 → (∀ c tv, s.bindAccess ea .read = .error (c, tv) → Raises i .control s c tv ea) ∧
      ∀ s1 b l, s.bindAccess ea .read = .ok (s1, b, l) → (s1.pending b = true ∨ s1.opsPerformed = false → Waits i s) ∧
        (s1.pending b = false → s1.opsPerformed = true → s1.target b.leaf = 0 →
          (∀ c tv, s1.loadHome b n true = .error (c, tv) → Raises i .control s c tv ea) ∧
          ∀ v s2, s1.loadHome b n true = .ok (v, s2) → ∃ t, exec i s = .next t ∧ t.last = .done ∧
            t.gReg d = (if d = 0 then 0 else if i = .ld d a m z o then BitVec.ofNat 64 v else (BitVec.ofNat (8 * n) v).signExtend 64) ∧
            t.aReg a = na ∧ t.pcOf .control = s.pcOf .control + 4 ∧ KeepsScalarsBut2 d a s t ∧ KeepsSequencers s t ∧ KeepsBeyondAccess s2 t ∧ KeepsCsrsBut [] s2 t ∧
            t.mem = s2.mem ∧ { t.mu with lines := s2.mu.lines } = s2.mu ∧ KeepsMemory s1 t ∧
            (∀ c, s1.cellOf b.ver b.pa = some c → v = (if (s1.granule c).owner = none then 0 else getBytes s1.cell c n))))) ∧
    (∀ (s : State) (d a : BitVec 5) (m : BitVec 1) (z : BitVec 2) (o : BitVec 9),
    let inc : Addr := o.signExtend 72 <<< z.toNat
    let ea := if m = 0 then s.aReg a + inc else s.aReg a
    let na := if m = 0 then s.aReg a else s.aReg a + inc
    let n := 2 ^ z.toNat
    ∀ i : Instr, (i = .ld d a m z o ∨ i = .ldx d a m z o) →
    ea.toNat % n = 0 → ∀ s1 b l, s.bindAccess ea .read = .ok (s1, b, l) → s1.pending b = false → s1.opsPerformed = true → s1.target b.leaf ≠ 0 →
    let claims := s1.checked b && !leafSeal b.leaf
    (claims = true → s1.claimFull .control (s1.granuleOf b) = true → Raises i .control s .claimFull 0 ea) ∧
    ((claims = false ∨ s1.claimFull .control (s1.granuleOf b) = false) →
      (s1.mu.remote = .idle →
        ((s1.target b.leaf ≠ 3 ∨ (s1.ksctl (leafKey b.leaf)).getLsbD 63 = true) → exec i s = .next { s1.ask b (.access false b n 0) with last := .waits }) ∧
        (s1.target b.leaf = 3 → (s1.ksctl (leafKey b.leaf)).getLsbD 63 = false → Raises i .control s .keyAbsent 0 ea)) ∧
      (∀ v, s1.mu.remote = .answered (s1.pcOf .control) v none →
        let s2 : State := { s1 with mu := { s1.mu with remote := .idle } }
        ∀ s3, (claims = false ∧ s3 = s2 ∨ claims = true ∧ s2.takeClaim .control (s1.granuleOf b) false = .ok s3) →
          Completes i s (((s3.setA a na).setG d (extend (decide (i = Instr.ldx d a m z o)) n v.toNat)).advance .control)) ∧
      ∀ v c, s1.mu.remote = .answered (s1.pcOf .control) v (some c) → Raises i .control s c (if c = .race then v else 0) ea))

/-- sld, sldx and sst complete on the scratchpad under the low 22 bits of their address (12_memory_instructions.md R231, R232,
04_scratchpad_and_rings.md R72, R84, R89, R90). In their three modes, with ModStep and its FIELD_RANGE first: MISALIGN off their
alignment, NOT_MAPPED in a bank the core does not have, and a wait while an operation in flight holds the granules. Else sld and
sldx of a granule without poison complete: gD takes the bytes, extended, and aA its update, and nothing else changes. sst
completes: the bytes are stored and no other, the poison of the granule stays, or is set where the register came from poison, and
aA takes its update. A load of a poisoned granule raises POISON outside the banks of a double buffer; in one it takes the way of
the rerun rule, and where that only records the poison the load completes. Choices of the model that this rests on: log entries 36
and 42. -/
def Obligations.ScratchWords : Prop :=
    ∀ (s : State) (d a : BitVec 5) (m z : BitVec 2) (r : BitVec 3) (o : BitVec 9),
    let n := 2 ^ z.toNat
    let is := [Instr.sld d a m z r o, .sldx d a m z r o, .sst d a m z r o]
    (s.operand a m z r o = none → ∀ i, i ∈ is → Raises i .control s .fieldRange 0 0) ∧
    ∀ ea na, s.operand a m z r o = some (ea, na) →
    let x := ea.toNat % 2 ^ 22
    (x % n ≠ 0 → ∀ i, i ∈ is → Raises i .control s .misalign 0 0) ∧
    (x % n = 0 →
      (s.nbank ≤ x / 65536 → ∀ i, i ∈ is → Raises i .control s .notMapped 0x2E (BitVec.ofNat 72 x)) ∧
      (x / 65536 < s.nbank →
        (s.scrHeld x n false = true → ∀ i, i ∈ is → i ≠ .sst d a m z r o → Waits i s) ∧ (s.scrHeld x n true = true → Waits (.sst d a m z r o) s) ∧
        (s.scrHeld x n false = false → ∀ i : Instr, (i = .sld d a m z r o ∨ i = .sldx d a m z r o) →
          (s.scrPoison x = false → ∃ t, exec i s = .next t ∧ t.last = .done ∧
            t.gReg d = (if d = 0 then 0 else if i = .sld d a m z r o then BitVec.ofNat 64 (s.scrRead x n) else (BitVec.ofNat (8 * n) (s.scrRead x n)).signExtend 64) ∧
            t.aReg a = na ∧ t.pcOf .control = s.pcOf .control + 4 ∧ KeepsScalarsBut2 d a s t ∧ KeepsSequencers s t ∧ KeepsBeyondScalars s t) ∧
          (s.scrPoison x = true → (s.frontHalf (x / 65536) = none → Raises i .control s .poison 0 (BitVec.ofNat 72 x)) ∧
            (s.recordsPoison x = false →
              exec i s = .next { s.consume .control (s.pcOf .control) false 0 x with last := .raised .poison 0 (BitVec.ofNat 72 x) }) ∧
            (s.recordsPoison x = true → ∃ t, exec i s = .next t ∧ t.last = .done ∧ t.aReg a = na ∧ t.pcOf .control = s.pcOf .control + 4 ∧
              KeepsScalarsBut2 d a s t ∧ KeepsSequencers s t))) ∧
        (s.scrHeld x n true = false → ∃ t, exec (.sst d a m z r o) s = .next t ∧ t.last = .done ∧
          (∀ y, y < n → mget t.scr.bytes 0 (s.scrAddr x + y) = BitVec.ofNat 8 ((s.gReg d).toNat / 256 ^ y)) ∧
          (∀ y, (y < s.scrAddr x ∨ s.scrAddr x + n ≤ y) → mget t.scr.bytes 0 y = mget s.scr.bytes 0 y) ∧
          (∀ y, mget t.scr.poison false y = (mget s.scr.poison false y || (s.tainted d && decide (y = s.scrAddr x / 64)))) ∧
          t.aReg a = na ∧ t.pcOf .control = s.pcOf .control + 4 ∧ (∀ k, t.gReg k = s.gReg k) ∧ (∀ k, k ≠ a → t.aReg k = s.aReg k) ∧ KeepsSequencers s t ∧
          { t with sc := s.sc, seqs := s.seqs, last := s.last, scr := s.scr, eng := s.eng } = s ∧ { t.eng with refetch := s.eng.refetch } = s.eng)))

/-- st checks its access, takes its claim and completes into the store queue (12_memory_instructions.md R231, R233,
08_consistency_model.md R140, R148, R147, 01_address_spaces.md R25, 04_scratchpad_and_rings.md R89). st raises MISALIGN and the
refusals of its access and its claim precisely, and waits while all 32 rows are taken. The claim on a granule of a checked page at
a peer is asked for once and waited for. Else st completes: its value, with the address of its home, becomes the newest row of the
store queue, marked where the register came from poison; the phase is pinned outside a handler; aA is updated; and no memory byte
changes beyond what binding leaves. Choices of the model that this rests on: log entry 36. -/
def Obligations.StoreWord : Prop :=
    ∀ (s : State) (d a : BitVec 5) (m : BitVec 1) (z : BitVec 2) (o : BitVec 9),
    let inc : Addr := o.signExtend 72 <<< z.toNat
    let ea := if m = 0 then s.aReg a + inc else s.aReg a
    let na := if m = 0 then s.aReg a else s.aReg a + inc
    let n := 2 ^ z.toNat
    (ea.toNat % n ≠ 0 → Raises (.st d a m z o) .control s .misalign 0 0) ∧
    (ea.toNat % n = 0 → (∀ c tv, s.bindAccess ea .write = .error (c, tv) → Raises (.st d a m z o) .control s c tv ea) ∧
      ∀ s1 b l, s.bindAccess ea .write = .ok (s1, b, l) → (32 ≤ s.rowsTaken → Waits (.st d a m z o) s) ∧
        (s.rowsTaken < 32 →
          (∀ c tv, s1.checked b = true → s1.target b.leaf = 0 → s1.takeClaim .control (s1.granuleOf b) true = .error (c, tv) →
            Raises (.st d a m z o) .control s c tv ea) ∧
          (s1.checked b = true → s1.target b.leaf ≠ 0 → s1.holdsExcl .control (s1.granuleOf b) = false →
            (s1.claimFull .control (s1.granuleOf b) = true → Raises (.st d a m z o) .control s .claimFull 0 ea) ∧
            (s1.claimFull .control (s1.granuleOf b) = false → s1.mu.remote = .idle →
              exec (.st d a m z o) s = .next { s1.ask b (.access true b 0 0) with last := .waits }) ∧
            ∀ v c, s1.claimFull .control (s1.granuleOf b) = false → s1.mu.remote = .answered (s1.pcOf .control) v (some c) →
              Raises (.st d a m z o) .control s c (if c = .race then v else 0) ea) ∧
          ∀ s2, (s1.checked b = false ∧ s2 = s1 ∨
              s1.checked b = true ∧ s1.target b.leaf = 0 ∧ s1.takeClaim .control (s1.granuleOf b) true = .ok s2 ∨
              s1.checked b = true ∧ s1.target b.leaf ≠ 0 ∧ (s1.holdsExcl .control (s1.granuleOf b) = true ∧ s2 = s1 ∨
                s1.holdsExcl .control (s1.granuleOf b) = false ∧ s1.claimFull .control (s1.granuleOf b) = false ∧
                (∃ v, s1.mu.remote = .answered (s1.pcOf .control) v none) ∧
                { s1 with mu := { s1.mu with remote := .idle } }.takeClaim .control (s1.granuleOf b) true = .ok s2)) →
            ∃ t, exec (.st d a m z o) s = .next t ∧ t.last = .done ∧
              t.mu.storeQ = s1.mu.storeQ ++ [⟨s1.mu.nextId, s1.mu.nextRow, s1.task.id, b, n, s.gReg d, s.tainted d, s.pcOf .control, none, .queued⟩] ∧
              t.agenda = s.agenda ++ [⟨.storeQueueDepart, {}⟩] ∧ t.mem = s2.mem ∧ KeepsMemory s1 t ∧
              t.aReg a = na ∧ t.pcOf .control = s.pcOf .control + 4 ∧ (∀ k, t.gReg k = s.gReg k) ∧ (∀ k, k ≠ a → t.aReg k = s.aReg k) ∧
              KeepsSequencers s t ∧ KeepsCsrsBut [0xC] s1 t ∧ (∀ k, k ≠ 31 → (t.csrOf 0xC).getLsbD k = (s1.csrOf 0xC).getLsbD k) ∧
              (t.csrOf 0xC).getLsbD 31 = ((s1.csrOf 0xC).getLsbD 31 || !s1.inh)))

/-- A store leaves the queue in order, is performed at its home or refused, and an outside home acknowledges it; other chips are
served (08_consistency_model.md R138, R140, R147, 07_architected_clock.md R128, R132, 01_address_spaces.md R25, R26,
26_security_and_host.md R395, R396, 04_scratchpad_and_rings.md R89). The oldest queued row leaves once every earlier store and
factor operation of its task is acknowledged at die scope, for a timed store at its own scope with the claims of closed regions
released; else the event completes with no change. It goes to its local home, or outside, or is refused where its pool key is not
loaded. The home access of an untimed row that its home does not refuse completes: it writes the row bytes at the cell of its
physical address; every cell outside its granule reads as before, and so does every other cell of a granule that its key slot and
epoch own; a row marked poisoned marks its granule. A refused row leaves memory as it was, and its refusal is held for its task.
The acknowledgement of an outside home completes: it frees the row with its refusal, its lateness or its tag; for a timed store it
may tell first that it has arrived. An access of another chip is served, or refused where the package is stopped or its home
refuses it, as it does where the key slot does not admit the chip; what is refused changes nothing. The answer to the request of
the waiting word is kept for it, and that to another request is not. Choices of the model that this rests on: log entries 10, 11,
58 and 65. -/
def Obligations.StoreAtHome : Prop :=
    ∀ s : State,
    (∀ r, s.mu.storeQ.find? (fun r => r.place == .queued) = some r →
      (s.mayDepart r = false → Completes .storeQueueDepart s s) ∧
      (s.mayDepart r = true → (s.target r.bound.leaf = 0 ∨ s.hubRefusal r.bound = none) →
        ∃ t, exec .storeQueueDepart s = .next t ∧ t.last = .done ∧ t.mem = s.mem ∧ t.sc = s.sc ∧ t.seqs = s.seqs ∧ t.csr = s.csr ∧
          t.mu.storeQ = s.mu.storeQ.map (fun x => if x.id = r.id then { x with place := .sent } else x) ∧
          (s.target r.bound.leaf = 0 → t.outbox = s.outbox) ∧ (s.target r.bound.leaf ≠ 0 → t.outbox = r.message :: s.outbox)) ∧
      (s.mayDepart r = true → s.target r.bound.leaf = 3 → (s.ksctl (leafKey r.bound.leaf)).getLsbD 63 = false →
        Completes .storeQueueDepart s ((s.removeRow r).refuseStore r .keyAbsent none).kick) ∧
      (s.mayDepart r = (match r.timed with
        | none => s.ackedBefore r.task r.id 0
        | some t => s.ackedBefore r.task r.id t.scope && !s.closedBefore r.id))) ∧
    (s.mu.storeQ.find? (fun r => r.place == .queued) = none → Completes .storeQueueDepart s s) ∧
    (∀ r, s.input.flag2 = false → s.mu.storeQ.find? (fun r => r.place == .sent && r.timed.isNone && s.atHome r) = some r →
      let s0 := s.removeRow r
      (∀ c u, s0.writeHome r.bound r.bound.pa r.size r.data.toNat = .ok u → s.cellOf r.bound.ver r.bound.pa = some c → c % 64 + r.size ≤ 64 →
        ∃ t, exec .homeAccess s = .next t ∧ t.last = .done ∧
          (∀ i, i < r.size → t.cell (c + i) = BitVec.ofNat 8 (r.data.toNat / 256 ^ i)) ∧ KeepsMemoryBut (c / 64 * 64) 64 s t ∧
          ((s.granule c).owner = some (s.slotEpoch (leafKey r.bound.leaf)) → KeepsMemoryBut c r.size s t) ∧
          (t.granule c).owner = some (s.slotEpoch (leafKey r.bound.leaf)) ∧ (r.poison = true → (t.granule c).poison = true) ∧
          t.sc = s.sc ∧ t.seqs = s.seqs ∧ t.csr = s.csr ∧ t.mu.storeQ = s.mu.storeQ.filter (fun x => x.id != r.id) ∧ t.mu.deferred = s.mu.deferred) ∧
      ∀ e, s0.writeHome r.bound r.bound.pa r.size r.data.toNat = .error e →
        ∃ t, exec .homeAccess s = .next t ∧ t.last = .done ∧ KeepsMemory s t ∧ t.mem.gran = s.mem.gran ∧ t.sc = s.sc ∧ t.seqs = s.seqs ∧ t.csr = s.csr ∧
          t.mu.storeQ = s.mu.storeQ.filter (fun x => x.id != r.id) ∧
          let d : Deferred := ⟨e, r.pc, r.bound.va, BitVec.ofNat 64 r.row⟩
          (s.isBound r.task = true → t.mu.deferred = s.mu.deferred ++ [d]) ∧
          (s.isBound r.task = false → t.mu.deferred = s.mu.deferred ∧ t.disp.parked = s.disp.parked.map (fun p =>
            if p.context.task.id == r.task then { p with context := { p.context with deferred := p.context.deferred ++ [d] } } else p))) ∧
    (s.input.flag2 = true →
      let chip := BitVec.ofNat 10 s.input.n
      let b : Bound := ⟨0, s.input.asid, s.input.w.getLsbD 8, BitVec.ofNat 128 s.input.data, s.input.addr.toNat, s.ilvCur⟩
      (s.pkg.stopped = true → Completes .homeAccess s (s.emit (.served chip s.input.req 0 (some .containedStop)))) ∧
      (s.pkg.stopped = false →
        (∀ e, s.refusalOf chip b b.pa s.input.flag = some e → Completes .homeAccess s (s.emit (.served chip s.input.req 0 (some e)))) ∧
        ((s.ksctl (leafKey b.leaf)).getLsbD 63 = true → chip ≠ s.chip → s.admitsChip (fld (s.ksctl (leafKey b.leaf)) 0 6) chip = false →
          ∃ e, s.refusalOf chip b b.pa s.input.flag = some e) ∧
        ∀ c, s.refusalOf chip b b.pa s.input.flag = none → s.cellOf b.ver b.pa = some c → s.input.flag = false → (s.granule c).poison = false →
          Completes .homeAccess s (s.emit (.served chip s.input.req
            (if (s.granule c).owner = none then 0 else getBytes s.cell c (min (max (fld s.input.w 0 4) 1) 8)) none)))) ∧
    (∀ r, s.mu.storeQ.find? (fun r => r.place != .queued && s.target r.bound.leaf != 0 && r.id == s.input.n) = some r → s.input.flag2 = true →
      (r.timed = none → Completes .storeAck s s) ∧ (r.timed ≠ none → Completes .storeAck s (s.placeRow r .timedBuffer).kick)) ∧
    (∀ r, s.mu.storeQ.find? (fun r => r.place != .queued && s.target r.bound.leaf != 0 && r.id == s.input.n) = some r → s.isBound r.task = true →
      s.input.flag2 = false → ∃ t, exec .storeAck s = .next t ∧ t.last = .done ∧ t.mem.bytes = s.mem.bytes ∧ t.mem.gran = s.mem.gran ∧ t.sc = s.sc ∧ t.seqs = s.seqs ∧
        t.mu.storeQ = s.mu.storeQ.filter (fun x => x.id != r.id) ∧ KeepsCsrsBut [0x12, 0x13, 0x19, 0x1A] s t ∧
        (∀ x g, r.timed = some x → x.tag = some g → t.csrOf 0x19 = putBit (s.csrOf 0x19) g.toNat true) ∧
        (∀ x, s.input.cause = none → r.timed = some x → s.input.flag = true →
          t.csrOf 0x12 = lateUpdate (s.csrOf 0x12) x.scope s.input.w.toNat x.tag.isNone ∧ ∀ g, x.tag = some g → (t.csrOf 0x13).getLsbD g.toNat = true) ∧
        ((r.timed = none ∨ s.input.flag = false ∨ s.input.cause ≠ none) → t.csrOf 0x12 = s.csrOf 0x12 ∧ t.csrOf 0x13 = s.csrOf 0x13) ∧
        t.mu.deferred = (match s.input.cause with
          | none => s.mu.deferred
          | some c => s.mu.deferred ++ [⟨c, r.pc, r.bound.va, if c = .race then s.input.v else BitVec.ofNat 64 r.row⟩])) ∧
    ∀ pc id, s.mu.remote = .waiting pc id → (∀ o, o ∈ s.eng.ops → s.input.req ∉ o.asks) → ∃ t, exec .loadReturn s = .next t ∧ t.last = .done ∧
      t.mu.remote = (if id = s.input.req then .answered pc s.input.v s.input.cause else s.mu.remote) ∧ t.mem = s.mem ∧ t.sc = s.sc ∧ t.seqs = s.seqs ∧ t.csr = s.csr

/-- st.due and ld.nb check in the order of R235 and issue, or raise or wait; ld.nb waits for its home and completes
(12_memory_instructions.md R234, R235, 07_architected_clock.md R127, R129, 08_consistency_model.md R140, R147). Both raise
MISALIGN, then the refusals of their access, then ATOMIC_TARGET, CLOCK_UNLOCKED or FIELD_RANGE of R127, and st.due.lf TAG_BUSY.
Else, with fewer than 16 timed rows and 32 rows taken, st.due completes: it enters the store queue with its due time and scope,
makes its tag pending and closes its region. ld.nb sends its request, of a number of its own, and waits, to a home in the package
that admits it, to a peer as a not-before load once the earlier accesses to the granule have been performed, and after every
earlier factor operation; with the answer to this word there it completes: gD takes the value, extended, and its region closes.
Choices of the model that this rests on: log entries 2, 49 and 58. -/
def Obligations.TimedWords : Prop :=
    ∀ (s : State) (d a t : BitVec 5) (c z : BitVec 2) (l x : BitVec 1) (g : BitVec 6),
    let ea := s.aReg a
    let n := 2 ^ z.toNat
    (ea.toNat % n ≠ 0 → Raises (.stDue d a c z l t g) .control s .misalign 0 0 ∧ Raises (.ldNb d a c z x t) .control s .misalign 0 0) ∧
    (ea.toNat % n = 0 →
      (∀ e tv, s.bindAccess ea .write = .error (e, tv) → Raises (.stDue d a c z l t g) .control s e tv ea) ∧
      (∀ e tv, s.bindAccess ea .read = .error (e, tv) → Raises (.ldNb d a c z x t) .control s e tv ea) ∧
      (∀ s1 b v, s.bindAccess ea .write = .ok (s1, b, v) →
        (∀ e, s1.timedRefusal b (s1.effectiveScope b c) (s.gReg t) = some e → Raises (.stDue d a c z l t g) .control s e 0 0) ∧
        (s1.timedRefusal b (s1.effectiveScope b c) (s.gReg t) = none →
          (l = 1 ∧ s.tagPending g.toNat = true → Raises (.stDue d a c z l t g) .control s .tagBusy 0 0) ∧
          ((l = 0 ∨ s.tagPending g.toNat = false) → (s.mu.storeQ.filter (fun r => r.timed.isSome)).length < 16 → s.rowsTaken < 32 →
            s.mu.deferred = [] → ∃ u, exec (.stDue d a c z l t g) s = .next u ∧ u.last = .done ∧
              u.mu.storeQ = s1.mu.storeQ ++ [⟨s1.mu.nextId, s1.mu.nextRow, s1.task.id, b, n, s.gReg d, s.tainted d, s.pcOf .control,
                some ⟨s.gReg t, s1.effectiveScope b c, if l = 1 then some g else none⟩, .queued⟩] ∧
              (l = 1 → u.tagPending g.toNat = true) ∧ u.mem.claims = (s1.closeRegion .control).mem.claims ∧ KeepsMemory s1 u ∧
              u.pcOf .control = s.pcOf .control + 4 ∧ u.sc = s.sc))) ∧
      ∀ s1 b v, s.bindAccess ea .read = .ok (s1, b, v) →
        (s.mu.remote = .idle →
          (∀ e, s1.timedRefusal b (s1.effectiveScope b c) (s.gReg t) = some e → Raises (.ldNb d a c z x t) .control s e 0 0) ∧
          (s1.timedRefusal b (s1.effectiveScope b c) (s.gReg t) = none → s.mu.deferred = [] → s1.opsPerformed = true →
            (s1.target b.leaf = 0 → s1.barred b = false → ∃ u, exec (.ldNb d a c z x t) s = .next u ∧ u.last = .waits ∧ u.mu.notBefore = some (b, n, s.gReg t, s1.pkg.requests + 1) ∧
              u.mu.remote = .waiting (s.pcOf .control) (s1.pkg.requests + 1) ∧ u.sc = s.sc ∧ u.seqs = s.seqs) ∧
            ((s1.barred b = true ∨ (s1.target b.leaf ≠ 0 ∧ s1.pending b = true)) → Waits (.ldNb d a c z x t) s) ∧
            (s1.target b.leaf ≠ 0 → s1.pending b = false →
              exec (.ldNb d a c z x t) s = .next { s1.ask b (.notBefore b n (s.gReg t)) with last := .waits }))) ∧
        ∀ w, (s.mu.remote = .answered (s.pcOf .control) w none →
            Completes (.ldNb d a c z x t) s (((({ s with mu := { s.mu with remote := .idle } }).setG d
              (if x = 1 then BitVec.ofInt 64 (signedCode (8 * n) w.toNat) else BitVec.ofNat 64 (w.toNat % 2 ^ (8 * n)))).closeRegion .control).advance .control)) ∧
          ∀ e, s.mu.remote = .answered (s.pcOf .control) w (some e) → Raises (.ldNb d a c z x t) .control s e (if e = .race then w else 0) ea)

/-- A timed store that arrives is performed, buffered until due, late, or refused while the clock is unlocked
(07_architected_clock.md R128, R129, R130, R132, R134, 08_consistency_model.md R140). A row that arrives at pod scope while LOCKED
is 0 is refused with CLOCK_UNLOCKED. In time within the skew bound it is performed, or, where it is not due or an earlier access
of its task to the granule waits, it enters the timed buffer of its home. Late, LATE is updated, and late-fault sets its tag and
LATEMASK instead of performing it. The rows of the buffers that are due and wait behind nothing are performed, each in turn. A
not-before load whose tick has come takes its value or its refusal from its home; where the control sequencer waits for another
request, that answer changes nothing but that the load no longer waits. Choices of the model that this rests on: log entries 11,
49 and 58. -/
def Obligations.TimedStoreAtHome : Prop :=
    ∀ (s : State) (r : StoreRow) (x : Timed), r.timed = some x →
    (s.mu.storeQ.find? (fun r => r.place == .sent && r.timed.isSome && s.arrives r.bound) = some r →
      let now := (s.clkOf (s.homeDie r.bound.ver r.bound.pa)).toNat
      let by_ := now - x.due.toNat - skew x.scope
      (x.scope = 2 → s.locked = false → Completes .timedStoreArrival s ((s.removeRow r).refuseStore r .clockUnlocked none).kick) ∧
      ((x.scope ≠ 2 ∨ s.locked = true) →
        (now ≤ x.due.toNat + skew x.scope →
          ((now < x.due.toNat ∨ s.atHome r = false) → Completes .timedStoreArrival s (s.buffer r).kick) ∧
          (x.due.toNat ≤ now → s.atHome r = true → Completes .timedStoreArrival s ((s.removeRow r).performStore r).kick)) ∧
        (x.due.toNat + skew x.scope < now → s.isBound r.task = true →
          (x.tag = none → let late := s.setCsr 0x12 (lateUpdate (s.csrOf 0x12) x.scope by_ true)
            Completes .timedStoreArrival s (if s.atHome r then (late.removeRow r).performStore r else late.buffer r).kick) ∧
          ∀ g, x.tag = some g → ∃ t, exec .timedStoreArrival s = .next t ∧ t.last = .done ∧ KeepsMemory s t ∧ t.mem.gran = s.mem.gran ∧
            t.mu.storeQ = s.mu.storeQ.filter (fun y => y.id != r.id) ∧ (t.csrOf 0x13).getLsbD g.toNat = true ∧
            t.csrOf 0x12 = lateUpdate (s.csrOf 0x12) x.scope by_ false ∧ t.csrOf 0x19 = putBit (s.csrOf 0x19) g.toNat true))) ∧
    (s.buffer r).mu.storeQ = s.mu.storeQ.filter (fun y => y.id != r.id) ++ [{ r with place := .timedBuffer }] ∧
    (s.dueStore = none → Completes .timedStoreDue s s) ∧
    (s.dueStore = some r → r.place = .timedBuffer ∧ x.due.toNat ≤ (s.clkOf (s.homeDie r.bound.ver r.bound.pa)).toNat ∧ s.atHome r = true ∧
      Completes .timedStoreDue s (s.performDue s.mu.storeQ.length).kick ∧
      ∀ k, s.performDue (k + 1) = ((s.removeRow r).performStore r).performDue k) ∧
    ∀ b n due pc id, s.mu.notBefore = some (b, n, due, id) → s.mu.remote = .waiting pc id →
      due.toNat ≤ (s.clkOf (s.homeDie b.ver b.pa)).toNat → s.pendingBefore s.task.id s.mu.nextId (s.granuleOf b) = false →
      ((∀ v u, s.loadHome b n false = .ok (v, u) →
        Completes .notBeforePerform s { s with mu := { s.mu with remote := .answered pc (BitVec.ofNat 64 v) none, notBefore := none } }) ∧
      ∀ c tv, s.loadHome b n false = .error (c, tv) →
        Completes .notBeforePerform s { s with mu := { s.mu with remote := .answered pc tv (some c), notBefore := none } }) ∧
    ∀ b n due pc id k, s.mu.notBefore = some (b, n, due, id) → s.mu.remote = .waiting pc k → k ≠ id →
      due.toNat ≤ (s.clkOf (s.homeDie b.ver b.pa)).toNat → s.pendingBefore s.task.id s.mu.nextId (s.granuleOf b) = false → Completes .notBeforePerform s { s with mu := { s.mu with notBefore := none } }

/-- Each atomic returns the old word of its home and leaves the new word there (12_memory_instructions.md R237, R236,
08_consistency_model.md R140, R142). amo.add, and, or, xor, min, max, minu, maxu, swap and cas check alignment, access, target and
scope in order, and wait for earlier accesses to the granule, for every earlier factor operation, for the acknowledgement of
earlier stores at die scope, and for .rel and .acqrel as a fence of their scope does. Then at a local home that refuses nothing
they complete: gD takes the old word, zero-extended, and the word at the home becomes that of R237; bytes outside the word stay
where the writer owns the granule. A peer home is asked once; with its answer there they complete, and gD takes its value. Choices
of the model that this rests on: log entries 49, 54 and 76. -/
def Obligations.AtomicWords : Prop :=
    ∀ (s : State) (d a b : BitVec 5) (o c : BitVec 2) (w : BitVec 1),
    let ea := s.aReg a
    let n := 4 * (1 + w.toNat)
    let x := (s.gReg b).toNat % 2 ^ (8 * n)
    let words (old : Nat) : List (Instr × Nat) := [(Instr.amoAdd d a b o c w, (old + x) % 2 ^ (8 * n)), (Instr.amoAnd d a b o c w, old &&& x), (Instr.amoOr d a b o c w, old ||| x), (Instr.amoXor d a b o c w, old ^^^ x), (Instr.amoMin d a b o c w, if (BitVec.ofNat (8 * n) x).toInt < (BitVec.ofNat (8 * n) old).toInt then x else old), (Instr.amoMax d a b o c w, if (BitVec.ofNat (8 * n) old).toInt < (BitVec.ofNat (8 * n) x).toInt then x else old), (Instr.amoMinu d a b o c w, min old x), (Instr.amoMaxu d a b o c w, max old x), (Instr.amoSwap d a b o c w, x), (Instr.amoCas d a b o c w, if old = (s.gReg d).toNat % 2 ^ (8 * n) then x else old)]
    (∀ i r, (i, r) ∈ words 0 → (ea.toNat % n ≠ 0 → Raises i .control s .misalign 0 0) ∧
      (ea.toNat % n = 0 → ∀ e tv, s.bindAccess ea .both = .error (e, tv) → Raises i .control s e tv ea)) ∧
    (ea.toNat % n = 0 → ∀ s1 bd l, s.bindAccess ea .both = .ok (s1, bd, l) →
      (∀ i r, (i, r) ∈ words 0 → (2 ≤ s1.target bd.leaf ∨ c.toNat < s1.homeScope bd → Raises i .control s .atomicTarget 0 0)) ∧
      (s1.target bd.leaf < 2 → s1.homeScope bd ≤ c.toNat →
        ((s1.pending bd = true ∨ s1.opsPerformed = false ∨ s1.acked 0 = false ∨ (2 ≤ o.toNat ∧ s1.quiet c.toNat = false)) → ∀ i r, (i, r) ∈ words 0 → Waits i s) ∧
        (s1.pending bd = false → s1.opsPerformed = true → s1.acked 0 = true → (o.toNat < 2 ∨ s1.quiet c.toNat = true) → s.mu.deferred = [] →
          let s2 := if 2 ≤ o.toNat then s1.closeRegion .control else s1
          (s1.target bd.leaf = 0 →
            (∀ old, s2.readHome bd bd.pa n = .ok old → s2.homeRefusal bd bd.pa true = none →
              (s2.checked bd = false ∨ s2.claimRefusal .control (s2.granuleOf bd) true = none) →
              ∀ i r k, (i, r) ∈ words old → s1.cellOf bd.ver bd.pa = some k → k % 64 + n ≤ 64 →
                ∃ t, exec i s = .next t ∧ t.last = .done ∧ t.gReg d = (if d = 0 then 0 else BitVec.ofNat 64 old) ∧
                  (∀ r, r ≠ d → t.gReg r = s.gReg r) ∧ (∀ r, t.aReg r = s.aReg r) ∧ t.pcOf .control = s.pcOf .control + 4 ∧
                  KeepsCsrsBut [0xC] s1 t ∧ t.scr = s.scr ∧ t.vec = s.vec ∧ t.mat = s.mat ∧ t.pkg = s.pkg ∧ t.mu.storeQ = s.mu.storeQ ∧
                  ((s1.granule k).owner = some (s1.slotEpoch (leafKey bd.leaf)) →
                    (∀ j, j < n → t.cell (k + j) = BitVec.ofNat 8 (r / 256 ^ j)) ∧ KeepsMemoryBut k n s1 t) ∧
                  KeepsMemoryBut (k / 64 * 64) 64 s1 t) ∧
            ∀ e, s2.homeRefusal bd bd.pa true = some e → ∀ i r, (i, r) ∈ words 0 → Raises i .control s e 0 ea) ∧
          (s1.target bd.leaf = 1 → ∀ i r, (i, r) ∈ words 0 →
            (∀ v, s.mu.remote = .answered (s.pcOf .control) v none → ∃ t, exec i s = .next t ∧ t.last = .done ∧
              t.gReg d = (if d = 0 then 0 else BitVec.ofNat 64 (v.toNat % 2 ^ (8 * n))) ∧ (∀ r, r ≠ d → t.gReg r = s.gReg r) ∧
              (∀ r, t.aReg r = s.aReg r) ∧ t.pcOf .control = s.pcOf .control + 4 ∧ t.mem.bytes = s1.mem.bytes ∧ t.mu.remote = .idle) ∧
            (s.mu.remote = .idle → ∃ t, exec i s = .next t ∧ t.last = .waits ∧ t.mu.remote = .waiting (s.pcOf .control) (s1.pkg.requests + 1) ∧ t.sc = s.sc ∧ t.seqs = s.seqs ∧
              t.mem.bytes = s1.mem.bytes) ∧
            ∀ v e, s.mu.remote = .answered (s.pcOf .control) v (some e) → Raises i .control s e (if e = .race then v else 0) ea))))

/-- A fence waits, raises a held refusal or closes the region; seal and unseal set and clear SEAL; clmq reports claims
(08_consistency_model.md R141, 12_memory_instructions.md R238, R245, 01_address_spaces.md R26, 12_memory_instructions.md R239,
08_consistency_model.md R159, 01_address_spaces.md R28, R44, 12_memory_instructions.md R240). fence.core and fence.die wait until
earlier stores and factor operations are acknowledged at die scope, fence.pkg at package and fence.pod at pod scope, with the
claims and the log records gone; ffence waits for the factor operations and the acknowledgement at die scope. A store refusal that
is held is raised in their place, with the store as FAULTPC. Else they complete: the region closes and nothing else changes. Both
raise the refusals of their access, FIELD_RANGE for a large leaf and ATOMIC_TARGET off the local target, and wait as fence.pod
does. They complete at a page already in the wanted state, which is left as it is; else the mark of the cell of the frame changes,
bit 8 of the leaf entry follows, no cached translation of the address stays, and they complete. A claim of another region raises
RACE for a seal. clmq raises the refusals of its access. At a local home, and on an unchecked or sealed page, it completes: it
writes CHK, OTHX, OTHS, BLK, OWNX and OWN of the granule to gD, zeros but CHK on an unchecked or sealed page, and changes no claim
and no memory byte beyond what binding leaves. At a peer home it completes with the answer, of which it keeps the five claim bits
under CHK. Choices of the model that this rests on: log entries 11, 69 and 76. -/
def Obligations.FenceAndSealWords : Prop :=
    (∀ s : State,
    (∀ i n, (i, n) ∈ [(Instr.fenceCore, 0), (.fenceDie, 0), (.fencePkg, 1), (.fencePod, 2)] →
      (s.quiet n = false → Waits i s) ∧ (s.quiet n = true → s.mu.deferred = [] → Completes i s ((s.closeRegion .control).advance .control)) ∧
      ∀ f fs, s.mu.deferred = f :: fs → s.quiet n = true →
        exec i s = .next { ({ s with mu := { s.mu with deferred := fs } }).raise f.cause .control f.pc true f.tvalue f.addr with
          last := .raised f.cause f.tvalue f.addr }) ∧
    (s.ownOps ≠ [] ∨ s.acked 0 = false → Waits .ffence s) ∧
    (s.ownOps = [] → s.acked 0 = true →
      (s.mu.deferred = [] → Completes .ffence s ((s.closeRegion .control).advance .control)) ∧
      ∀ f fs, s.mu.deferred = f :: fs →
        exec .ffence s = .next { ({ s with mu := { s.mu with deferred := fs } }).raise f.cause .control f.pc true f.tvalue f.addr with
          last := .raised f.cause f.tvalue f.addr })) ∧
    ((∀ (s : State) (a : BitVec 5) (on : Bool),
    let ea := s.aReg a
    let i : Instr := if on then .sealPage a else .unsealPage a
    (∀ e tv, s.leafFor s.asid ea .seal s.sup s.secure = .error (e, tv) → Raises i .control s e tv ea) ∧
    ∀ s1 t, s.leafFor s.asid ea .seal s.sup s.secure = .ok (s1, t) → (s1.target t.leaf = 0 → (s1.cellOf s1.ilvCur (leafAddress t.leaf t.level ea)).isSome = true) →
      (t.level ≠ 0 → Raises i .control s .fieldRange 0 0) ∧
      (t.level = 0 → s1.target t.leaf ≠ 0 → Raises i .control s .atomicTarget 0 0) ∧
      (t.level = 0 → s1.target t.leaf = 0 → s1.quiet 2 = false → Waits i s) ∧
      (t.level = 0 → s1.target t.leaf = 0 → s1.quiet 2 = true → s.mu.deferred = [] →
        let s2 := s1.closeRegion .control
        (leafSeal t.leaf = on → Completes i s (s2.pin.advance .control)) ∧
        (leafSeal t.leaf ≠ on → ∀ cell, s2.cellOf s2.ilvCur (leafFrame t.leaf * 2 ^ 17) = some cell →
          (∀ k cs, on = true → s2.sealRace cell = some (k, cs) → Raises i .control s .race (raceTvalue cs true k 0) ea) ∧
          ((on = false ∨ s2.sealRace cell = none) → t.leaf.getLsbD 12 = true → s2.readTable t.entry 16 = .ok t.leaf.toNat →
            ∃ u, exec i s = .next u ∧ u.last = .done ∧ mget u.mem.sealed false (cell / 2 ^ 17) = on ∧
              (∀ k, k ≠ cell / 2 ^ 17 → mget u.mem.sealed false k = mget s.mem.sealed false k) ∧
              u.mem.bytes = (s2.writeTable t.entry 16 (putBit t.leaf 8 on).toNat).mem.bytes ∧
              u.mu.tlb = s1.mu.tlb.filter (fun e => !e.covers s.asid ea) ∧
              u.sc = s.sc ∧ u.pcOf .control = s.pcOf .control + 4 ∧ KeepsSequencers s u)))) ∧
    (∀ (s : State) (d a : BitVec 5),
    (∀ e tv, s.bindAccess (s.aReg a) .read = .error (e, tv) → Raises (.clmq d a) .control s e tv (s.aReg a)) ∧
    ∀ s1 b l, s.bindAccess (s.aReg a) .read = .ok (s1, b, l) →
      ((s1.checked b = false ∨ leafSeal b.leaf = true ∨ s1.target b.leaf = 0) →
        ∃ t v, exec (.clmq d a) s = .next t ∧ t.last = .done ∧ t.gReg d = (if d = 0 then 0 else v) ∧ t.mem = s1.mem ∧ t.csr = s1.csr ∧
          (∀ r, r ≠ d → t.gReg r = s.gReg r) ∧ (∀ r, t.aReg r = s.aReg r) ∧ t.pcOf .control = s.pcOf .control + 4 ∧
          v.toNat < 64 ∧ v.getLsbD 5 = leafChk b.leaf ∧
          (s1.checked b = false ∨ leafSeal b.leaf = true → ∀ k, k ≠ 5 → v.getLsbD k = false) ∧
          (s1.checked b = true → leafSeal b.leaf = false →
            let g := s1.granuleOf b
            let others := s1.mem.claims.filter (fun c => !s1.owns .control c && unitsMeet c.unit c.block g false)
            let own := s1.mem.claims.filter (fun c => s1.owns .control c && c.closed.isNone && !c.block && c.unit == g)
            v.getLsbD 4 = others.any (fun c => c.excl) ∧ v.getLsbD 3 = others.any (fun c => !c.excl) ∧
            v.getLsbD 2 = others.any (fun c => c.block) ∧ v.getLsbD 1 = own.any (fun c => c.excl) ∧ v.getLsbD 0 = !own.isEmpty)) ∧
      (s1.checked b = true → leafSeal b.leaf = false → s1.target b.leaf = 1 → ∀ w, s.mu.remote = .answered (s.pcOf .control) w none →
        Completes (.clmq d a) s ((({ s1 with mu := { s1.mu with remote := .idle } }).setG d (putBit (w &&& 0x1F) 5 true)).advance .control))))

/-- Factor operations check fields, target and operand block, then are accepted at their home; fop.rel goes to the tensor home
(12_memory_instructions.md R241, R242, 08_consistency_model.md R140, R147, 12_memory_instructions.md R243,
02_tensors_and_tile_tables.md R40). fop.cas2, cas4, enq, chase and prog raise FIELD_RANGE for a chase outside its field ranges,
and MISALIGN off their alignment; cas2 and cas4 raise MISALIGN for an operand block off its own alignment, NOT_MAPPED with TVALUE
0x2E in an absent bank, wait while a range covers the block, and raise POISON where it is poisoned and the poison is not only
recorded; then all raise the refusals of their access, and ATOMIC_TARGET off device memory, and wait while 16 entries of fq are
reserved, an earlier access to the granule is not performed, or an earlier store is not acknowledged at die scope. Accepted at a
local home, or with the acceptance of a peer home there, they complete: they reserve the next entry of fq with the operand block
as read, pin the phase, move past the word, and change no register and no memory byte beyond binding. fop.rel raises TAG_BUSY for
a pending tag and the causes of its handle precisely, waits while fq is full, an earlier access to the granule of the entry is not
performed or an earlier store is not acknowledged at die scope, raises what the home of the entry refuses, and else completes: the
tag is pending, an entry of fq is reserved for the entry bound now, and nothing else of registers and memory changes. Choices of
the model that this rests on: log entries 11, 49 and 76. -/
def Obligations.FactorIssueWords : Prop :=
    (∀ (s : State) (a b c : BitVec 5) (j : BitVec 3),
    (∀ h off, h = (s.gReg b).toNat → off = (s.gReg c).toNat → (h = 0 ∨ 16 < h ∨ 65528 < off ∨ off % 8 ≠ 0) →
      Raises (.fopChase c a b) .control s .fieldRange 0 0) ∧
    (∀ i align, (i, align) ∈ [(Instr.fopCas2 a b, 16), (.fopCas4 a b, 32)] →
      let x := (s.gReg b).toNat % 2 ^ 22
      (x % (2 * align) ≠ 0 → Raises i .control s .misalign 0 0) ∧
      ((s.aReg a).toNat % align = 0 → x % (2 * align) = 0 →
        (s.nbank ≤ x / 65536 → Raises i .control s .notMapped 0x2E (BitVec.ofNat 72 x)) ∧
        (x / 65536 < s.nbank →
          (s.scrHeld x (2 * align) true = true → Waits i s) ∧
          (s.scrHeld x (2 * align) true = false → s.scrPoison x = true → s.recordsPoison x = false →
            exec i s = .next { s.consume .control (s.pcOf .control) false 0 x with last := .raised .poison 0 (BitVec.ofNat 72 x) })))) ∧
    ∀ i kind align v arg blk, ((i, kind, align, v, arg) ∈ [(Instr.fopEnq a b, 2, 16, (0 : Word64), (0 : BitVec 6)), (.fopProg c a b j, 4, 8, s.gReg c, j ++ 0#3)] ∧ blk = 0) ∨
        ((i, kind, align, v, arg) = (.fopChase c a b, 3, 8, s.gReg c, 0) ∧ blk = 0 ∧ 0 < (s.gReg b).toNat ∧ (s.gReg b).toNat ≤ 16 ∧
          (s.gReg c).toNat ≤ 65528 ∧ (s.gReg c).toNat % 8 = 0) ∨
        ((i, kind, align, v, arg) ∈ [(Instr.fopCas2 a b, 0, 16, (0 : Word64), (0 : BitVec 6)), (.fopCas4 a b, 1, 32, 0, 0)] ∧ blk = 2 * align ∧
          let x := (s.gReg b).toNat % 2 ^ 22
          x % blk = 0 ∧ x / 65536 < s.nbank ∧ s.scrPoison x = false ∧ s.scrHeld x blk true = false) →
      ((s.aReg a).toNat % align ≠ 0 → Raises i .control s .misalign 0 0) ∧
      ((s.aReg a).toNat % align = 0 → (∀ e tv, s.bindAccess (s.aReg a) .both = .error (e, tv) → Raises i .control s e tv (s.aReg a)) ∧
        ∀ s1 bd l, s.bindAccess (s.aReg a) .both = .ok (s1, bd, l) →
          (2 ≤ s1.target bd.leaf → Raises i .control s .atomicTarget 0 0) ∧
          (s1.target bd.leaf < 2 → (16 ≤ s.ownOps.length + s.mu.fq.length ∨ s1.pending bd = true ∨ s1.acked 0 = false) → Waits i s) ∧
          (s.ownOps.length + s.mu.fq.length < 16 → s1.pending bd = false → s1.acked 0 = true → s.mu.deferred = [] →
            let op : FactorOp := ⟨s1.mu.nextId, s.task.id, kind, bd, s.gReg b, v, arg, (s.gReg b).setWidth 22,
              if blk = 0 then 0 else s.scrRead ((s.gReg b).toNat % 2 ^ 22) blk, s.sup, true, 0, (s.aReg a).setWidth 64, false, none⟩
            let accepted (t : State) : Prop := t.mu.factor = s1.mu.factor ++ [op] ∧ t.mem = s1.mem ∧ t.sc = s.sc ∧ t.pcOf .control = s.pcOf .control + 4 ∧
              (s.inh = false → (t.csrOf 0xC).getLsbD 31 = true) ∧ KeepsSequencers s t ∧ t.scr = s.scr
            (s1.target bd.leaf = 0 →
              (∀ e tv, s1.factorAccept op = some (e, tv) → Raises i .control s e tv (s.aReg a)) ∧
              (s1.factorAccept op = none → ∃ t, exec i s = .next t ∧ t.last = .done ∧ accepted t ∧ t.agenda = s.agenda ++ [⟨.factorAtHome, {}⟩])) ∧
            (s1.target bd.leaf = 1 →
              (∀ w, s.mu.remote = .answered (s.pcOf .control) w none → ∃ t, exec i s = .next t ∧ t.last = .done ∧ accepted t ∧ t.agenda = s.agenda) ∧
              (s.mu.remote = .idle → exec i s = .next { s1.ask bd (.factor { op with id := 0, accepted := false }) with last := .waits }) ∧
              ∀ w e, s.mu.remote = .answered (s.pcOf .control) w (some e) → Raises i .control s e (if e = .race then w else 0) (s.aReg a))))) ∧
    (∀ (s : State) (b : BitVec 5) (g : BitVec 6),
    let h : Word32 := (s.gReg b).setWidth 32
    (s.tagPending g.toNat = true → Raises (.fopRel b g) .control s .tagBusy 0 0) ∧
    (s.tagPending g.toNat = false →
      (∀ f, s.tensorSlot s.die s.asid (handleSlot h) = .error f → Raises (.fopRel b g) .control s f.cause (f.tvalue h) (BitVec.ofNat 72 f.addr)) ∧
      ∀ e, s.tensorSlot s.die s.asid (handleSlot h) = .ok e →
        let bd : Bound := ⟨0, s.asid, s.secure, 0, e.pa, s.ilvCur⟩
        ((16 ≤ s.ownOps.length + s.mu.fq.length ∨ s.pending bd = true ∨ s.acked 0 = false) → Waits (.fopRel b g) s) ∧
        (s.ownOps.length + s.mu.fq.length < 16 → s.pending bd = false → s.acked 0 = true → s.mu.deferred = [] →
          (∀ c, s.readTable e.pa 64 = .error c → Raises (.fopRel b g) .control s c (({ cause := c } : TensorFault).tvalue h) 0) ∧
          (∀ v c, s.readTable e.pa 64 = .ok v → s.cellOf s.ilvCur e.pa = some c → (s.granule c).poison = true →
            Raises (.fopRel b g) .control s .poison (({ cause := .poison } : TensorFault).tvalue h) 0) ∧
          ∀ v, s.readTable e.pa 64 = .ok v → (∀ c, s.cellOf s.ilvCur e.pa = some c → (s.granule c).poison = false) → ∃ t o, exec (.fopRel b g) s = .next t ∧ t.last = .done ∧
          t.tagPending g.toNat = true ∧ t.mu.factor = s.mu.factor ++ [o] ∧ o.kind = 5 ∧ o.bound.pa = e.pa ∧ o.b = s.gReg b ∧ o.arg = g ∧ o.result = none ∧
          t.agenda = s.agenda ++ [⟨.factorAtHome, {}⟩] ∧ t.sc = s.sc ∧ t.mem = s.mem ∧ t.pcOf .control = s.pcOf .control + 4)))

/-- An accepted factor operation acts at its home; its result enters fq in issue order (12_memory_instructions.md R242, R243,
R244). The oldest operation without a result that may go on at a home in the package has its effect there, and the event
completes: the operation holds its result, or asks the other home that it needs. A compare-and-swap writes the new words only
where the old ones equal the comparand, puts the old words into the operand block of its task while that is bound, and its result
is 1 or 0. The answer of an outside home gives the operation that it names its result. The results that then move into fq, oldest
first, are those of the longest run of the oldest operations of the task that have one: none passes an operation that has none,
and every operation that does not move stays; the event completes too where none may move. Choices of the model that this rests
on: log entries 49 and 54. -/
def Obligations.FactorAtHome : Prop :=
    ∀ s : State,
    (∀ op, s.mu.factor.find? (fun o => o.result.isNone && !o.asked && (o.kind == 5 || s.target o.bound.leaf == 0)) = some op →
      (∀ s1 v st, s.factorEffect op = .done s1 v st → ∃ t, exec .factorAtHome s = .next t ∧ t.last = .done ∧
        t.mem.bytes = s1.mem.bytes ∧ t.mem.gran = s1.mem.gran ∧ t.scr = s1.scr ∧ t.sc = s1.sc ∧ t.seqs = s1.seqs ∧ t.csr = s1.csr ∧
        (s1.isBound op.task = true → t.mu.factor = s1.mu.factor.map (fun o => if o.id = op.id then { op with asked := false, result := some (v, st) } else o)) ∧
        (s1.isBound op.task = false → t.mu.factor = s1.mu.factor.filter (fun o => o.id != op.id))) ∧
      (∀ s1 b w op1, s.factorEffect op = .asks s1 b w op1 → ∃ t, exec .factorAtHome s = .next t ∧ t.last = .done ∧ t.mem = s1.mem ∧ t.sc = s1.sc ∧
        t.mu.factor = s1.mu.factor.map (fun o => if o.id = op1.id then { op1 with asked := true } else o) ∧
        t.outbox = .access w.isSome b 8 ((w.map (fun x => x.toNat)).getD 0) :: s1.outbox) ∧
      (∀ n old, (op.kind = 0 ∧ n = 16 ∨ op.kind = 1 ∧ n = 32) → s.readHome op.bound op.bound.pa n = .ok old →
        let hit : Bool := decide (old = op.data % 2 ^ (8 * n))
        let s1 := if hit then s.targetPut op 0 n (op.data / 2 ^ (8 * n) % 2 ^ (8 * n)) else s
        s.factorEffect op = .done (if s1.isBound op.task then s1.scrWrite op.block.toNat n old else s1) (if hit then 1 else 0) 0)) ∧
    (s.mu.factor.find? (fun o => o.result.isNone && !o.asked && (o.kind == 5 || s.target o.bound.leaf == 0)) = none → Completes .factorAtHome s s) ∧
    (∀ s1, ((s.input.flag = false ∨ s.mu.factor.find? (fun o => o.result.isNone && o.id == s.input.w.toNat &&
          (o.asked || (o.kind != 5 && s.target o.bound.leaf != 0))) = none) ∧ s1 = s) ∨
        (∃ op, s.input.flag = true ∧ s.mu.factor.find? (fun o => o.result.isNone && o.id == s.input.w.toNat &&
          (o.asked || (o.kind != 5 && s.target o.bound.leaf != 0))) = some op ∧
          s1 = s.factorAnswer op s.input.v (BitVec.ofNat 6 s.input.n) s.input.data) →
      ∃ t moved kept, exec .factorResult s = .next t ∧ t.last = .done ∧ s1.ownOps = moved ++ kept ∧
        (∀ o, o ∈ moved → o.result ≠ none) ∧ (∀ o, kept.head? = some o → o.result = none) ∧
        t.mu.fq = s1.mu.fq ++ moved.filterMap (fun o => o.result) ∧
        (∀ o, o ∈ t.mu.factor ↔ o ∈ s1.mu.factor ∧ ∀ m, m ∈ moved → m.id ≠ o.id) ∧ t.mem = s1.mem ∧ t.sc = s.sc) ∧
    ∀ op v st old, s.target op.bound.leaf ≠ 0 → 2 ≤ op.kind → s.isBound op.task = true →
      (s.factorAnswer op v st old).mu.factor = s.mu.factor.map (fun o => if o.id = op.id then { op with asked := false, result := some (v, st) } else o)

/-- Token puts and gets of every sequencer; Waits on tags: any, all, first and test (09_execution_model.md R163, R165,
08_consistency_model.md R140, R144, R147, 16_matrix_instructions.md R301, 17_engine_commands.md R306, 19_tasks_and_scheduling.md
R343). A count of 0 raises FIELD_RANGE; a put past 255 that no get of the cycle can still make room for raises TOKEN_OVERFLOW, and
else a put that fits completes and adds to its queue; a get waits while its queue holds fewer tokens put before this cycle, and
else completes and takes from it. Each moves its sequencer past the word. On the control sequencer a put, a release, waits until
the earlier accesses are acknowledged and the accesses of a region with claims performed; a get, an acquire, waits for none of
them. A put of the load or store sequencer waits for operations that hold claims; all of these close the region. A put of the X
slot spends the self-cycles to the end of the last acc.st of the groups before it. A wait for any tag of a mask needs one
complete, for all every one; an empty mask, a mask of free tags alone, or for all a free tag raises FIELD_RANGE, with the free
tags in TVALUE for all. A wait that ends completes: it gives the complete tags of the mask, with CLR clears them, and closes its
region; those of the control sequencer are acquires and wait for no earlier access. tag.first finds the lowest complete tag, 64 if
none; tagw.tst sets a predicate and changes no tag; both complete in every state, but HI below LO raises FIELD_RANGE. Choices of
the model that this rests on: log entries 12 and 14. -/
def Obligations.CouplingWords : Prop :=
    (∀ (s : State) (k : BitVec 3) (n : BitVec 8),
    let ready : Bool := s.acked 0 && s.regionDone && s.mu.deferred.isEmpty
    let stored := match s.vec.image with
      | some u => u.stored
      | none => s.mat.stored
    let q := s.engineSeq
    let moved (i : Instr) (r : Seq) (m : Nat) : Prop := ∃ t, exec i s = .next t ∧ t.last = .done ∧ t.tokens k = m ∧
      (∀ j, j ≠ k → t.tokens j = s.tokens j) ∧ t.pcOf r = s.nextPc r ∧ (∀ p, p ≠ r → t.seqOf p = s.seqOf p) ∧ t.sc = s.sc ∧ t.mem.bytes = s.mem.bytes ∧
      (r = .compute → t.mem = s.mem) ∧ (r ≠ .compute → t.mem.claims = (s.closeRegion r).mem.claims)
    (n = 0 → (ready = true → Raises (.tokPut k n) .control s .fieldRange 0 0) ∧
      (s.mu.deferred = [] → Raises (.tokGet k n) .control s .fieldRange 0 0) ∧
      Raises (.xTokPut k n) .compute s .fieldRange 0 0 ∧ Raises (.xTokGet k n) .compute s .fieldRange 0 0 ∧
      (s.opsClaim q = false → Raises (.eTokPut k n) q s .fieldRange 0 0) ∧ Raises (.eTokGet k n) q s .fieldRange 0 0) ∧
    ((s.acked 0 = false ∨ s.regionDone = false) → Waits (.tokPut k n) s) ∧
    (s.opsClaim q = true → Waits (.eTokPut k n) s) ∧
    (n ≠ 0 →
      (255 < s.tokens k + n.toNat → s.retryPut k = none → (ready = true → Raises (.tokPut k n) .control s .tokenOverflow 0 0) ∧
        Raises (.xTokPut k n) .compute s .tokenOverflow 0 0 ∧ (s.opsClaim q = false → Raises (.eTokPut k n) q s .tokenOverflow 0 0)) ∧
      (s.tokens k + n.toNat ≤ 255 → (ready = true → moved (.tokPut k n) .control (s.tokens k + n.toNat)) ∧
        moved (.xTokPut k n) .compute (s.tokens k + n.toNat) ∧
        (∀ t, exec (.xTokPut k n) s = .next t → t.csr = (s.spend (stored - s.vec.now)).csr) ∧ (s.opsClaim q = false → moved (.eTokPut k n) q (s.tokens k + n.toNat))) ∧
      (s.tokens k < n.toNat + mget s.cycle.puts 0 k.toNat → (s.mu.deferred = [] → Waits (.tokGet k n) s) ∧ Waits (.xTokGet k n) s ∧ Waits (.eTokGet k n) s) ∧
      (n.toNat + mget s.cycle.puts 0 k.toNat ≤ s.tokens k → (s.mu.deferred = [] → moved (.tokGet k n) .control (s.tokens k - n.toNat)) ∧
        moved (.xTokGet k n) .compute (s.tokens k - n.toNat) ∧ moved (.eTokGet k n) q (s.tokens k - n.toNat)))) ∧
    (∀ (s : State) (d a : BitVec 5) (c : BitVec 1) (h l : BitVec 6) (p : BitVec 4),
    let tags := s.csrOf 0x19
    let free (m : Word64) := m &&& ~~~tags &&& ~~~(s.csrOf 0x1A)
    let range : Word64 := BitVec.ofNat 64 (2 ^ (h.toNat + 1) - 2 ^ l.toNat)
    let cleared (m : Word64) : State := if c = 1 then s.setCsr 0x19 (tags &&& ~~~(tags &&& m)) else s
    (∀ m, m = s.gReg a → s.mu.deferred = [] →
      (m = 0 ∨ free m = m → Raises (.tagAny d a c) .control s .fieldRange 0 0) ∧
      (m ≠ 0 → free m ≠ m → tags &&& m = 0 → Waits (.tagAny d a c) s) ∧
      (tags &&& m ≠ 0 → Completes (.tagAny d a c) s (((((cleared m).setG d (tags &&& m)).advance .control)).closeRegion .control)) ∧
      (m = 0 → Raises (.tagAll d a c) .control s .fieldRange 0 0) ∧ (m ≠ 0 → free m ≠ 0 → Raises (.tagAll d a c) .control s .fieldRange (free m) 0) ∧
      (m ≠ 0 → free m = 0 → tags &&& m ≠ m → Waits (.tagAll d a c) s) ∧
      (m ≠ 0 → tags &&& m = m → Completes (.tagAll d a c) s (((((cleared m).setG d m).advance .control)).closeRegion .control))) ∧
    (h < l → Raises (.tagwAny c h l) s.engineSeq s .fieldRange 0 0 ∧ Raises (.tagwAll c h l) s.engineSeq s .fieldRange 0 0 ∧
      Raises (.tagwTst c p h l) s.engineSeq s .fieldRange 0 0) ∧
    (l ≤ h →
      (tags &&& range ≠ 0 → Completes (.tagwAny c h l) s (((cleared range).closeRegion s.engineSeq).advance s.engineSeq)) ∧
      (tags &&& range = 0 → free range ≠ range → Waits (.tagwAny c h l) s) ∧
      (free range = range → Raises (.tagwAny c h l) s.engineSeq s .fieldRange 0 0) ∧
      (free range ≠ 0 → Raises (.tagwAll c h l) s.engineSeq s .fieldRange (free range) 0) ∧
      (tags &&& range = range → Completes (.tagwAll c h l) s (((cleared range).closeRegion s.engineSeq).advance s.engineSeq)) ∧
      (free range = 0 → tags &&& range ≠ range → Waits (.tagwAll c h l) s) ∧
      Completes (.tagwTst c p h l) s ((s.setPred s.engineSeq p (tags &&& range != 0)).advance s.engineSeq)) ∧
    ∃ f : Word64 → Word64, (∀ w, (w = 0 → f w = 64) ∧ (w ≠ 0 → (f w).toNat < 64 ∧ w.getLsbD (f w).toNat = true ∧ ∀ j, j < (f w).toNat → w.getLsbD j = false)) ∧
      WritesG (.tagFirst d a) d (fun s => f (s.csrOf 0x19 &&& s.gReg a)))

/-- Operations on a group record count members and arrivals; the last arrival opens the next epoch at its home
(09_execution_model.md R168, 19_tasks_and_scheduling.md R344, 09_execution_model.md R169, 08_consistency_model.md R140, R147).
Join adds a member; Arrive adds an arrival once per member and epoch and is GROUP_STATE else; the arrival that makes ARRIVED equal
EXPECT adds one to EPOCH, sets ARRIVED to 0 and EXPECT to MEMBERS; Leave takes a member away and counts as an arrival for a member
that has not arrived. On a local record that passes the checks of R344, with the earlier accesses acknowledged, every earlier
factor operation performed and the region done: join completes, adds the membership and gives the epoch; leave completes and takes
the membership away; bar.arrive completes and gives EPOCH as it stood before the arrival; bar.wait completes once EPOCH differs
from gB and waits else; dissolve completes and frees a group without members. The record in memory becomes the one the operation
leaves, other registers stay, and the sequencer moves past the word. A free group, a fifth or a second membership, a missing one,
an arrival that Arrive refuses and a group with members raise GROUP_STATE. Choices of the model that this rests on: log entries 49
and 76. -/
def Obligations.GroupWords : Prop :=
    (∀ (g : GroupRecord) (m : Member) (va : Addr),
    (grpMembers g < 2 ^ 20 - 1 → grpMembers (joinGroup g va).1 = grpMembers g + 1 ∧ grpEpoch (joinGroup g va).1 = grpEpoch g ∧
      (joinGroup g va).2.joined = grpEpoch g ∧ (joinGroup g va).2.arrived = none ∧
      (grpExpect g = 0 → grpExpect (joinGroup g va).1 = grpMembers g + 1) ∧ (grpExpect g ≠ 0 → grpExpect (joinGroup g va).1 = grpExpect g)) ∧
    (countedNow g m = false ∨ m.arrived = some (grpEpoch g) → arriveGroup g m = none) ∧
    (countedNow g m = true → m.arrived ≠ some (grpEpoch g) → grpArrived g < 2 ^ 20 - 1 → ∃ u v, arriveGroup g m = some (u, v) ∧
      v.arrived = some (grpEpoch g) ∧ grpMembers u = grpMembers g ∧
      (grpArrived g + 1 ≠ grpExpect g → grpArrived u = grpArrived g + 1 ∧ grpEpoch u = grpEpoch g ∧ grpExpect u = grpExpect g) ∧
      (grpArrived g + 1 = grpExpect g → grpArrived u = 0 ∧ grpEpoch u = grpEpoch g + 1 ∧ grpExpect u = grpMembers g)) ∧
    (0 < grpMembers g → grpMembers (leaveGroup g m) = grpMembers g - 1) ∧ grpOpen (leaveGroup g m) = grpOpen g) ∧
    (∀ (s s1 : State) (d a b : BitVec 5) (bd : Bound) (l v : Nat),
    let ea := s.aReg a
    s.acked 0 = true → s.regionDone = true → s.mu.deferred = [] → ea.toNat % 32 = 0 → s.bindAccess ea .both = .ok (s1, bd, l) → leafChk bd.leaf = false →
    s1.target bd.leaf = 0 → s1.pending bd = false → s1.opsPerformed = true →
    s1.homeRefusal bd bd.pa true = none → s1.readHome bd bd.pa 32 = .ok v →
    let g : GroupRecord := BitVec.ofNat 256 v
    let s2 := (s1.countRequest bd).useLine (s1.granuleOf bd)
    let wrote (u : State) (r : GroupRecord) : Prop :=
      u.mem.bytes = (s2.writeCell ((s1.cellOf bd.ver bd.pa).getD 0) 32 r.toNat (s1.slotEpoch (leafKey bd.leaf))).mem.bytes
    let kept (u : State) : Prop := u.pcOf .control = s.pcOf .control + 4 ∧ KeepsSequencers s u ∧ (∀ r, u.aReg r = s.aReg r) ∧ KeepsCsrsBut [0xC] s1 u ∧ u.vec = s.vec ∧ u.scr = s.scr
    (grpOpen g = false → ∀ i, i ∈ [Instr.join d a, .leave a, .barArrive d a, .barWait a b, .dissolve a] → Raises i .control s .groupState 0 0) ∧
    ((4 ≤ s.task.members.length ∨ s.member ea ≠ none) → Raises (.join d a) .control s .groupState 0 0) ∧
    (s.member ea = none → Raises (.leave a) .control s .groupState 0 0 ∧ Raises (.barArrive d a) .control s .groupState 0 0) ∧
    (grpOpen g = true →
      (s.task.members.length < 4 → s.member ea = none → ∃ u, exec (.join d a) s = .next u ∧ u.last = .done ∧ wrote u (joinGroup g ea).1 ∧ kept u ∧
        u.task.members = s.task.members ++ [(joinGroup g ea).2] ∧ ∀ r, u.gReg r = if r = d ∧ d ≠ 0 then (grpEpoch g).setWidth 64 else s.gReg r) ∧
      (∀ m, s.member ea = some m → ∃ u, exec (.leave a) s = .next u ∧ u.last = .done ∧ wrote u (leaveGroup g m) ∧ kept u ∧
        u.task.members = s.task.members.filter (fun m => m.va != ea) ∧ ∀ r, u.gReg r = s.gReg r) ∧
      (∀ m g1 m1, s.member ea = some m → arriveGroup g m = some (g1, m1) → ∃ u, exec (.barArrive d a) s = .next u ∧ u.last = .done ∧ wrote u g1 ∧ kept u ∧
        ∀ r, u.gReg r = if r = d ∧ d ≠ 0 then (grpEpoch g).setWidth 64 else s.gReg r) ∧
      (∀ m, s.member ea = some m → arriveGroup g m = none → Raises (.barArrive d a) .control s .groupState 0 0) ∧
      ((grpEpoch g).toNat = (s.gReg b).toNat % 2 ^ 32 → ∃ u, exec (.barWait a b) s = .next u ∧ u.last = .waits ∧ u.sc = s.sc ∧ u.seqs = s.seqs ∧ u.mem = s.mem) ∧
      ((grpEpoch g).toNat ≠ (s.gReg b).toNat % 2 ^ 32 → ∃ u, exec (.barWait a b) s = .next u ∧ u.last = .done ∧ u.mem.bytes = s1.mem.bytes ∧ kept u ∧
        u.task = s.task ∧ ∀ r, u.gReg r = s.gReg r) ∧
      (grpMembers g ≠ 0 → Raises (.dissolve a) .control s .groupState 0 0) ∧
      (grpMembers g = 0 → ∃ u, exec (.dissolve a) s = .next u ∧ u.last = .done ∧ wrote u (g &&& ~~~3#256) ∧ kept u ∧ u.task = s.task ∧
        ∀ r, u.gReg r = s.gReg r)))

/-- Value queue words append and take entries; the pops of result queues and fstat put what the oldest entry holds in lanes or gD
(13_vector_instructions.md R256, 19_tasks_and_scheduling.md R343, 09_execution_model.md R164, 16_matrix_instructions.md R302,
12_memory_instructions.md R244). vqpush appends gA where fewer than eight entries wait, else raises QUEUE_OVERFLOW. vqpop takes
the oldest entry, or raises QUEUE_UNDERFLOW; vqpop.peek leaves it and waits for one; vqpop.nr tells by its predicate whether it
took one, and fills with zero if not. Every lane of vD takes the high or the low half, without poison. rqpop of mq, fq or cq takes
the oldest entry: lane 0 and lane 1 hold its value, lane 2 its status, every other lane zero. With nothing queued it waits where a
push is due, and raises QUEUE_UNDERFLOW where none is. rqpop.nr never waits and tells by its predicate whether it popped. fpop
completes with the oldest entry popped into gD and its status into gS; with nothing queued it waits for an operation in flight,
and raises QUEUE_UNDERFLOW where there is none. fpop.nr completes in every state: its predicate says whether it popped, and its
registers read 0 if not. fstat counts entries and operations of the task. Choices of the model that this rests on: log entry 12.
-/
def Obligations.QueueWords : Prop :=
    ((∀ (s : State) (n h : BitVec 1) (a : BitVec 5) (d : BitVec 6) (p : BitVec 4), d.toNat < 48 →
    let half (v : Word64) : Word32 := BitVec.ofNat 32 (if h = 1 then v.toNat / 2 ^ 32 else v.toNat)
    let fills (i : Instr) (w : Word32) (l : List Word64) (took : Option Bool) := ∃ t, exec i s = .next t ∧ t.last = .done ∧
      FillsV s t d (fun _ => ⟨w, false⟩) ∧ t.valueQueue n = l ∧ t.valueQueue (n + 1) = s.valueQueue (n + 1) ∧ t.pcOf .compute = s.pcOf .compute + 16 ∧
      KeepsBeyondVector { s with q := t.q } t ∧ ∀ k, t.pred .compute k = (if k = 0 then true else if k = p then took.getD (s.pred .compute k) else s.pred .compute k)
    (s.acked 0 = true → s.regionDone = true → s.mu.deferred = [] → (8 ≤ (s.valueQueue n).length → Raises (.vqpush n a) .control s .queueOverflow 0 0) ∧
      ((s.valueQueue n).length < 8 → ∃ t, exec (.vqpush n a) s = .next t ∧ t.last = .done ∧ t.valueQueue n = s.valueQueue n ++ [s.gReg a] ∧
        t.valueQueue (n + 1) = s.valueQueue (n + 1) ∧ t.sc = s.sc ∧ t.pcOf .control = s.pcOf .control + 4 ∧ t.mem.bytes = s.mem.bytes)) ∧
    (s.valueQueue n = [] → Raises (.vqpop d n h) .compute s .queueUnderflow 0 0 ∧ Waits (.vqpopPeek d n h) s ∧ fills (.vqpopNr d n h p) 0 [] (some false)) ∧
    ∀ v l, s.valueQueue n = v :: l → fills (.vqpop d n h) (half v) l none ∧ fills (.vqpopPeek d n h) (half v) (v :: l) none ∧
      fills (.vqpopNr d n h p) (half v) l (some true)) ∧
    (∀ (s : State) (d : BitVec 6) (q : BitVec 2) (p : BitVec 4), d.toNat < 48 → q.toNat < 3 →
    let lanes (v : Word64) (st : BitVec 6) (i : Nat) : Lane := ⟨if i = 0 then v.setWidth 32 else if i = 1 then (v >>> 32).setWidth 32 else if i = 2 then st.setWidth 32 else 0, false⟩
    (∀ v st u, (s.awaitMq q).takeEntry q = some (v, st, u) → ∃ t, exec (.rqpop d q) s = .next t ∧ t.last = .done ∧ FillsV u t d (lanes v st) ∧
      t.mat = u.mat ∧ t.mu = u.mu ∧ t.eng = u.eng ∧ t.pcOf .compute = s.pcOf .compute + 16 ∧ t.sc = s.sc ∧ t.mem = s.mem) ∧
    ((s.awaitMq q).takeEntry q = none → ((s.awaitMq q).pushDue q = true → Waits (.rqpop d q) s) ∧
      ((s.awaitMq q).pushDue q = false → Raises (.rqpop d q) .compute s .queueUnderflow 0 0)) ∧
    (∀ v st u, (q ≠ 0 ∨ s.mqTime ≤ s.vec.now) → s.takeEntry q = some (v, st, u) → ∃ t, exec (.rqpopNr d q p) s = .next t ∧ t.last = .done ∧ FillsV u t d (lanes v st) ∧
      t.mat = u.mat ∧ t.mu = u.mu ∧ t.eng = u.eng ∧ t.pred .compute p = true ∧ t.pcOf .compute = s.pcOf .compute + 16) ∧
    ((s.takeEntry q = none ∨ (q = 0 ∧ s.vec.now < s.mqTime)) → ∃ t, exec (.rqpopNr d q p) s = .next t ∧ t.last = .done ∧ FillsV s t d (fun _ => ⟨0, false⟩) ∧
      t.mat = s.mat ∧ t.mu = s.mu ∧ t.eng = s.eng ∧ t.pred .compute p = (p == 0) ∧ t.pcOf .compute = s.pcOf .compute + 16))) ∧
    (∀ (s : State) (d z : BitVec 5) (p : BitVec 4),
    (∀ v st rest, s.mu.fq = (v, st) :: rest →
      Completes (.fpop d z) s (((({ s with mu := { s.mu with fq := rest } }).setG d v).setG z (st.setWidth 64)).advance .control) ∧
      Completes (.fpopNr d p z) s ((((({ s with mu := { s.mu with fq := rest } }).setG d v).setG z (st.setWidth 64)).setPred .control p true).advance .control)) ∧
    (s.mu.fq = [] → (s.ownOps = [] → Raises (.fpop d z) .control s .queueUnderflow 0 0) ∧ (s.ownOps ≠ [] → Waits (.fpop d z) s) ∧
      Completes (.fpopNr d p z) s ((((s.setG d 0).setG z 0).setPred .control p false).advance .control)) ∧
    WritesG (.fstat d) d (fun s => BitVec.ofNat 64 (s.mu.fq.length * 256 + s.ownOps.length)))

/-- Mask words change one mask or predicate; sset writes a word of a record; sbind and sunbind bind ports; qrdy asks for an image
(13_vector_instructions.md R256, R257, R254, R259). kand, kor, kxor, kandn, knot, kset and kclr write kD from the masks as they
stood when the group issued; kany and kall set a predicate of the compute sequencer, p0 staying one. The group program counter
moves by 16; every other register and unit is unchanged. sset pops a value queue into one word of a record, or raises
QUEUE_UNDERFLOW. sbind raises FIELD_RANGE for a record out of its ranges, and binds an input port at once and an output port once
its images are performed; sunbind unbinds likewise. qrdy sets its predicate while a whole image waits at the port. -/
def Obligations.MaskAndPortWords : Prop :=
    (∀ (s : State) (d a b : BitVec 3) (p : BitVec 4),
    (∀ i m, (i, m) ∈ [(Instr.kand d a b, s.kReg a.toNat &&& s.kReg b.toNat), (Instr.kor d a b, s.kReg a.toNat ||| s.kReg b.toNat), (Instr.kxor d a b, s.kReg a.toNat ^^^ s.kReg b.toNat), (Instr.kandn d a b, s.kReg a.toNat &&& ~~~s.kReg b.toNat), (Instr.knot d a, ~~~s.kReg a.toNat), (Instr.kset d, BitVec.allOnes 1024), (Instr.kclr d, 0)] →
      ∃ t, exec i s = .next t ∧ t.last = .done ∧ mget t.vec.file.k 0 d.toNat = m ∧ (∀ j, j ≠ d.toNat → mget t.vec.file.k 0 j = mget s.vec.file.k 0 j) ∧
        t.vec.file.v = s.vec.file.v ∧ t.vec.file.d = s.vec.file.d ∧ t.pcOf .compute = s.pcOf .compute + 16 ∧ KeepsBeyondVector s t) ∧
    ∀ i v, (i, v) ∈ [(Instr.kany p a, decide (s.kReg a.toNat ≠ 0)), (.kall p a, decide (s.kReg a.toNat = BitVec.allOnes 1024))] →
      ∃ t, exec i s = .next t ∧ t.last = .done ∧ (∀ k, t.pred .compute k = (k == 0 || if k = p then v else s.pred .compute k)) ∧
        t.pcOf .compute = s.pcOf .compute + 16 ∧ OnlySequencer .compute s t) ∧
    (∀ (s : State) (r : BitVec 4) (w : BitVec 2) (v : BitVec 1) (p : BitVec 3) (c : BitVec 4),
    (s.valueQueue v = [] → Raises (.sset r w v) .compute s .queueUnderflow 0 0) ∧
    (∀ x l, s.valueQueue v = x :: l → ∃ t, exec (.sset r w v) s = .next t ∧ t.last = .done ∧ t.valueQueue v = l ∧
      (let k := t.recordOf r.toNat
       let k0 := s.recordOf r.toNat
       k.w0 = (if w = 0 then x else k0.w0) ∧ k.w1 = (if w = 1 then x else k0.w1) ∧ k.w2 = (if 2 ≤ w.toNat then x else k0.w2)) ∧
      (∀ j, j ≠ r.toNat → t.recordOf j = s.recordOf j) ∧ t.pcOf .compute = s.pcOf .compute + 16 ∧ t.vec.file = s.vec.file ∧ t.sc = s.sc ∧ t.mem = s.mem) ∧
    (s.recordFault r.toNat = true → ∀ d, Raises (.sbind d p r) .compute s .fieldRange 0 0) ∧
    (s.recordFault r.toNat = false →
      Completes (.sbind 0 p r) s ((s.bindIn p.toNat (some (s.bindingOf r.toNat))).advance .compute) ∧
      (s.outBusy p.toNat = false → Completes (.sbind 1 p r) s ((s.bindOut p.toNat (some (s.bindingOf r.toNat))).advance .compute)) ∧
      (s.outBusy p.toNat = true → Waits (.sbind 1 p r) s)) ∧
    Completes (.sunbind 0 p) s ((s.bindIn p.toNat none).advance .compute) ∧
    (s.outBusy p.toNat = false → Completes (.sunbind 1 p) s ((s.bindOut p.toNat none).advance .compute)) ∧
    (s.outBusy p.toNat = true → Waits (.sunbind 1 p) s) ∧
    ∃ t, exec (.qrdy c p) s = .next t ∧ t.last = .done ∧ OnlySequencer .compute s t ∧ t.pcOf .compute = s.pcOf .compute + 16 ∧
      ∀ k, t.pred .compute k = (k == 0 || if k = c then (s.inPort p.toNat).images.any (fun i => i.fault.isNone && i.rows == 16) else s.pred .compute k))

/-- A swap is reached by each sequencer; the last one makes the rendezvous due (09_execution_model.md R171, R174,
10_instruction_words.md R197, 08_consistency_model.md R147). swap and yield of the load and store sequencers wait for operations
that hold claims, and else complete and are reached at once; those of the compute sequencer complete as they issue, and are
reached once its matrix operations have retired. A sequencer at its swap keeps its program counter; with the last of the three,
the rendezvous becomes due. phase.begin in the first group of a phase has the effect of a nop and else raises ILLEGAL. Choices of
the model that this rests on: log entries 4 and 35. -/
def Obligations.SwapWords : Prop :=
    ∀ s : State,
    (∀ i y, (i, y) ∈ [(Instr.eSwap, false), (.eYield, true)] →
      (s.opsClaim s.engineSeq = true → Waits i s) ∧
      (s.opsClaim s.engineSeq = false → ∃ t, exec i s = .next t ∧ t.last = .done ∧ t.seqs = s.seqs ∧ t.sc = s.sc ∧ t.mem = s.mem ∧
        t.atSwap s.engineSeq = true ∧ (∀ q, q ≠ s.engineSeq → t.atSwap q = s.atSwap q) ∧ t.phase.yields = (s.phase.yields || y) ∧
        (t.allReached = true → ⟨.swapRendezvous, {}⟩ ∈ t.agenda) ∧ (t.allReached = false → t.agenda = s.agenda))) ∧
    (∀ i y, (i, y) ∈ [(Instr.swap, false), (.xYield, true)] →
      Completes i s { s with phase := { s.phase with swapping := some y } } ∧
      ({ s with phase := { s.phase with swapping := some y } } : State).atSwap .compute = true) ∧
    (∀ y, s.phase.swapping = some y →
      (s.mat.ops ≠ [] → s.reachSwap = s) ∧
      (s.mat.ops = [] → s.reachSwap.phase.swapping = none ∧ s.reachSwap.atSwap .compute = true ∧ s.reachSwap.phase.yields = (s.phase.yields || y) ∧
        s.reachSwap.seqs = s.seqs ∧ s.reachSwap.mem = s.mem ∧ (s.reachSwap.allReached = true → ⟨.swapRendezvous, {}⟩ ∈ s.reachSwap.agenda))) ∧
    ∀ n : BitVec 8, ((s.phase.first = true ∨ s.compat = true) → Jumps (.phaseBegin n) .compute s (s.pcOf .compute + 16)) ∧
      (s.phase.first = false → s.compat = false → Raises (.phaseBegin n) .compute s .illegal (BitVec.ofNat 64 (3 * 2 ^ 32 + 0x78000000 + n.toNat)) 0)

/-- FP32 words write each lane under their mask with the once-rounded result; compares write a mask register; vsel chooses by one
(13_vector_instructions.md R262, R263, R250, R264). fadd, fsub, fmul, fma, fms, fmin, fmax, fabs and fneg complete once their
operands are there: each lane of vD under the mask takes the exact result rounded once by FMODE, poison where an operand is
poison, and other lanes, registers, memory and program counters stay. fcmp, icmp and vptst write under their mask the bits of kD
and change nothing else; a poison operand makes every relation false. vsel takes the lane of A where its mask is one and of B
where it is zero, poison included. -/
def Obligations.VectorFloatWords : Prop :=
    (∀ (s : State) (d a b : BitVec 6) (m : BitVec 1) (k : BitVec 3) (x y z : BitVec 1),
    let rm := fld s.fmode 0 2
    let sat := s.fmode.getLsbD 2
    VFills (.vFadd d a b m k x y) s (fun p q _ j => (fp2 (fun r u v => u.add r v) rm sat (vlane p j) (vlane q j)).1) ∧
    VFills (.vFsub d a b m k x y) s (fun p q _ j => (fp2 (fun r u v => u.add r v.neg) rm sat (vlane p j) (vlane q j)).1) ∧
    VFills (.vFmul d a b m k x y) s (fun p q _ j => (fp2 (fun _ u v => u.mul v) rm sat (vlane p j) (vlane q j)).1) ∧
    VFills (.vFmin d a b m k x y) s (fun p q _ j => (fpPick false (vlane p j) (vlane q j)).1) ∧
    VFills (.vFmax d a b m k x y) s (fun p q _ j => (fpPick true (vlane p j) (vlane q j)).1) ∧
    VFills (.vFabs d a m k x) s (fun p _ _ j => if (vlane p j).fpPoison then ⟨0x7FFFFFFF, true⟩ else ⟨(vlane p j).bits &&& 0x7FFFFFFF, false⟩) ∧
    VFills (.vFneg d a m k x) s (fun p _ _ j => if (vlane p j).fpPoison then ⟨0x7FFFFFFF, true⟩ else ⟨(vlane p j).bits ^^^ 0x80000000, false⟩) ∧
    VFills (.vFma d a b m k x y z) s (fun p q c j => (fp3 (fun r u v w => (u.mul v).add r w) rm sat (vlane p j) (vlane q j) (vlane c j)).1) ∧
    VFills (.vFms d a b m k x y z) s (fun p q c j => (fp3 (fun r u v w => w.add r (u.mul v).neg) rm sat (vlane p j) (vlane q j) (vlane c j)).1)) ∧
    (∀ (s : State) (d a b : BitVec 6) (m : BitVec 1) (k : BitVec 3) (x y : BitVec 1),
    let ints (f : Word32 → Word32 → Bool) (p q : Lane) : Bool := !(p.side || q.side) && f p.bits q.bits
    VMasks (.vFcmpEq d a b m k x y) s (fun p q j => fpCompare (fun u v => u == v) (vlane p j) (vlane q j)) ∧
    VMasks (.vFcmpLt d a b m k x y) s (fun p q j => fpCompare (fun u v => decide (u < v)) (vlane p j) (vlane q j)) ∧
    VMasks (.vFcmpLe d a b m k x y) s (fun p q j => fpCompare (fun u v => decide (u ≤ v)) (vlane p j) (vlane q j)) ∧
    VMasks (.vFcmpUn d a b m k x y) s (fun p q j => fpUnordered (vlane p j) (vlane q j)) ∧
    VMasks (.vIcmpEq d a b m k x y) s (fun p q j => ints (fun u v => u == v) (vlane p j) (vlane q j)) ∧
    VMasks (.vIcmpLt d a b m k x y) s (fun p q j => ints (fun u v => decide (u.toInt < v.toInt)) (vlane p j) (vlane q j)) ∧
    VMasks (.vIcmpLtu d a b m k x y) s (fun p q j => ints (fun u v => decide (u.toNat < v.toNat)) (vlane p j) (vlane q j)) ∧
    VMasks (.vptst d a m k x) s (fun p _ j => (vlane p j).side || (vlane p j).bits == 0x7FFFFFFF) ∧
    VFills (.vsel d a b k x y) s (fun p q _ j => if (s.kReg k.toNat).getLsbD j then vlane p j else vlane q j))

/-- INT32 words and widening multiply-accumulates write each lane of vD under their mask and change nothing else
(13_vector_instructions.md R265, R266). The INT32 words of two sources and the immediate shifts complete once their operands are
there: each lane of vD under the mask takes the 32-bit result of R265, zero with the side bit where an operand has its side bit,
and other lanes, registers, memory and program counters stay. wmac of signed or unsigned 8- and 16-bit elements adds the products
of the packed elements of A and B to the lane of D, wrapping or saturating, zero with the side bit where an operand has its side
bit; nothing else changes. -/
def Obligations.VectorIntegerWords : Prop :=
    (∀ (s : State) (d a b j : BitVec 6) (m : BitVec 1) (k : BitVec 3) (x y : BitVec 1),
    let int1 (p : Lane) (f : Word32 → Word32) : Lane := if p.side then ⟨0, true⟩ else ⟨f p.bits, false⟩
    let int2 (p q : Lane) (f : Word32 → Word32 → Word32) : Lane := if p.side || q.side then ⟨0, true⟩ else ⟨f p.bits q.bits, false⟩
    VFills (.vAdd d a b m k x y) s (fun p q _ n => int2 (vlane p n) (vlane q n) (fun u v => u + v)) ∧
    VFills (.vSub d a b m k x y) s (fun p q _ n => int2 (vlane p n) (vlane q n) (fun u v => u - v)) ∧
    VFills (.vMul d a b m k x y) s (fun p q _ n => int2 (vlane p n) (vlane q n) (fun u v => u * v)) ∧
    VFills (.vMulh d a b m k x y) s (fun p q _ n => int2 (vlane p n) (vlane q n) (fun u v => BitVec.ofInt 32 (u.toInt * v.toInt / 2 ^ 32))) ∧
    VFills (.vAnd d a b m k x y) s (fun p q _ n => int2 (vlane p n) (vlane q n) (fun u v => u &&& v)) ∧
    VFills (.vOr d a b m k x y) s (fun p q _ n => int2 (vlane p n) (vlane q n) (fun u v => u ||| v)) ∧
    VFills (.vXor d a b m k x y) s (fun p q _ n => int2 (vlane p n) (vlane q n) (fun u v => u ^^^ v)) ∧
    VFills (.vShl d a b m k x y) s (fun p q _ n => int2 (vlane p n) (vlane q n) (fun u v => u <<< (v.toNat % 32))) ∧
    VFills (.vShr d a b m k x y) s (fun p q _ n => int2 (vlane p n) (vlane q n) (fun u v => u >>> (v.toNat % 32))) ∧
    VFills (.vSra d a b m k x y) s (fun p q _ n => int2 (vlane p n) (vlane q n) (fun u v => u.sshiftRight (v.toNat % 32))) ∧
    VFills (.vMin d a b m k x y) s (fun p q _ n => int2 (vlane p n) (vlane q n) (fun u v => if v.toInt < u.toInt then v else u)) ∧
    VFills (.vMax d a b m k x y) s (fun p q _ n => int2 (vlane p n) (vlane q n) (fun u v => if u.toInt < v.toInt then v else u)) ∧
    VFills (.vMinu d a b m k x y) s (fun p q _ n => int2 (vlane p n) (vlane q n) (fun u v => if v.toNat < u.toNat then v else u)) ∧
    VFills (.vMaxu d a b m k x y) s (fun p q _ n => int2 (vlane p n) (vlane q n) (fun u v => if u.toNat < v.toNat then v else u)) ∧
    VFills (.vDiv d a b m k x y) s (fun p q _ n => int2 (vlane p n) (vlane q n) (fun u v => if v = 0 then BitVec.allOnes 32 else BitVec.ofInt 32 (u.toInt.tdiv v.toInt))) ∧
    VFills (.vDivu d a b m k x y) s (fun p q _ n => int2 (vlane p n) (vlane q n) (fun u v => if v = 0 then BitVec.allOnes 32 else BitVec.ofNat 32 (u.toNat / v.toNat))) ∧
    VFills (.vRem d a b m k x y) s (fun p q _ n => int2 (vlane p n) (vlane q n) (fun u v => if v = 0 then u else BitVec.ofInt 32 (u.toInt.tmod v.toInt))) ∧
    VFills (.vRemu d a b m k x y) s (fun p q _ n => int2 (vlane p n) (vlane q n) (fun u v => if v = 0 then u else BitVec.ofNat 32 (u.toNat % v.toNat))) ∧
    VFills (.vAdds d a b m k x y) s (fun p q _ n => int2 (vlane p n) (vlane q n) (fun u v => BitVec.ofInt 32 (max (-2 ^ 31) (min (2 ^ 31 - 1) (u.toInt + v.toInt))))) ∧
    VFills (.vSubs d a b m k x y) s (fun p q _ n => int2 (vlane p n) (vlane q n) (fun u v => BitVec.ofInt 32 (max (-2 ^ 31) (min (2 ^ 31 - 1) (u.toInt - v.toInt))))) ∧
    VFills (.vShli d a j m k x) s (fun p _ _ n => int1 (vlane p n) (fun u => u <<< j.toNat)) ∧
    VFills (.vShri d a j m k x) s (fun p _ _ n => int1 (vlane p n) (fun u => u >>> j.toNat)) ∧
    VFills (.vSrai d a j m k x) s (fun p _ _ n => int1 (vlane p n) (fun u => u.sshiftRight j.toNat))) ∧
    (∀ (s : State) (d a b : BitVec 6) (m : BitVec 1) (k : BitVec 3) (x y z : BitVec 1),
    let lane3 (f : Word32 → Word32 → Word32 → Word32) (p q c : VReg) (n : Nat) : Lane :=
      if (vlane p n).side || (vlane q n).side || (vlane c n).side then ⟨0, true⟩ else ⟨f (vlane p n).bits (vlane q n).bits (vlane c n).bits, false⟩
    VFills (.vWmacS8 d a b m k x y z) s (lane3 (fun p q c => BitVec.ofInt 32 (c.toInt + ((List.range 4).map (fun i => (BitVec.ofNat 8 (p.toNat / 2 ^ (8 * i))).toInt * (BitVec.ofNat 8 (q.toNat / 2 ^ (8 * i))).toInt)).sum))) ∧
    VFills (.vWmacS8Sat d a b m k x y z) s (lane3 (fun p q c => BitVec.ofInt 32 (max (-2 ^ 31) (min (2 ^ 31 - 1) (c.toInt + ((List.range 4).map (fun i => (BitVec.ofNat 8 (p.toNat / 2 ^ (8 * i))).toInt * (BitVec.ofNat 8 (q.toNat / 2 ^ (8 * i))).toInt)).sum))))) ∧
    VFills (.vWmacU8 d a b m k x y z) s (lane3 (fun p q c => BitVec.ofInt 32 (c.toInt + ((List.range 4).map (fun i => ((p.toNat / 2 ^ (8 * i) % 2 ^ 8 * (q.toNat / 2 ^ (8 * i) % 2 ^ 8) : Nat) : Int))).sum))) ∧
    VFills (.vWmacU8Sat d a b m k x y z) s (lane3 (fun p q c => BitVec.ofInt 32 (max (-2 ^ 31) (min (2 ^ 31 - 1) (c.toInt + ((List.range 4).map (fun i => ((p.toNat / 2 ^ (8 * i) % 2 ^ 8 * (q.toNat / 2 ^ (8 * i) % 2 ^ 8) : Nat) : Int))).sum))))) ∧
    VFills (.vWmacS16 d a b m k x y z) s (lane3 (fun p q c => BitVec.ofInt 32 (c.toInt + ((List.range 2).map (fun i => (BitVec.ofNat 16 (p.toNat / 2 ^ (16 * i))).toInt * (BitVec.ofNat 16 (q.toNat / 2 ^ (16 * i))).toInt)).sum))) ∧
    VFills (.vWmacS16Sat d a b m k x y z) s (lane3 (fun p q c => BitVec.ofInt 32 (max (-2 ^ 31) (min (2 ^ 31 - 1) (c.toInt + ((List.range 2).map (fun i => (BitVec.ofNat 16 (p.toNat / 2 ^ (16 * i))).toInt * (BitVec.ofNat 16 (q.toNat / 2 ^ (16 * i))).toInt)).sum))))) ∧
    VFills (.vWmacU16 d a b m k x y z) s (lane3 (fun p q c => BitVec.ofInt 32 (c.toInt + ((List.range 2).map (fun i => ((p.toNat / 2 ^ (16 * i) % 2 ^ 16 * (q.toNat / 2 ^ (16 * i) % 2 ^ 16) : Nat) : Int))).sum))) ∧
    VFills (.vWmacU16Sat d a b m k x y z) s (lane3 (fun p q c => BitVec.ofInt 32 (max (-2 ^ 31) (min (2 ^ 31 - 1) (c.toInt + ((List.range 2).map (fun i => ((p.toNat / 2 ^ (16 * i) % 2 ^ 16 * (q.toNat / 2 ^ (16 * i) % 2 ^ 16) : Nat) : Int))).sum))))))

/-- Moves, conversions, rotations and broadcasts; Reductions and scans along rows and columns (13_vector_instructions.md R267,
R268, R269). vmov copies lanes; cvt.to, cvt.from and cvt.ito convert them; vrot.r rotates within rows and vrot.c along columns;
vbc.c copies one column to every column and vbc.r one row to every row. Nothing else changes. vred.r puts into every lane of a row
the tree reduction of its 64 lanes, vred.c into every lane of a column that of its 16 lanes; the scans put into each lane the
running result from the first lane on. A poison lane makes the reduction, or the scan from it on, poison. Nothing else changes. -/
def Obligations.VectorMoveWords : Prop :=
    (∀ (s : State) (d a j : BitVec 6) (m : BitVec 1) (k : BitVec 3) (x : BitVec 1),
    let rm := fld s.fmode 0 2
    let sat := s.fmode.getLsbD 2
    VFills (.vmov d a m k x) s (fun p _ _ n => vlane p n) ∧
    VFills (.cvtTo d a j m k x) s (fun p _ _ n => (cvtTo j.toNat rm sat (vlane p n)).1) ∧
    VFills (.cvtFrom d a j m k x) s (fun p _ _ n => (cvtFrom j.toNat rm sat (vlane p n)).1) ∧
    VFills (.cvtIto d a j m k x) s (fun p _ _ n => (cvtIto j.toNat (vlane p n)).1) ∧
    VFills (.vrotR d a j m k x) s (fun p _ _ n => vlane p (n / 64 * 64 + (n + 64 - j.toNat) % 64)) ∧
    VFills (.vrotC d a j m k x) s (fun p _ _ n => vlane p ((n + 64 * (16 - j.toNat % 16)) % 1024)) ∧
    VFills (.vbcc d a j m k x) s (fun p _ _ n => vlane p (n / 64 * 64 + j.toNat)) ∧
    VFills (.vbcr d a j m k x) s (fun p _ _ n => vlane p (64 * (j.toNat % 16) + n % 64))) ∧
    (∀ (s : State) (d a j : BitVec 6) (m : BitVec 1) (k : BitVec 3) (x : BitVec 1),
    let rm := fld s.fmode 0 2
    let sat := s.fmode.getLsbD 2
    let row (p : VReg) (n : Nat) : List Lane := (List.range 64).map (fun c => vlane p (n / 64 * 64 + c))
    let col (p : VReg) (n : Nat) : List Lane := (List.range 16).map (fun r => vlane p (64 * r + n % 64))
    VFills (.vredR d a j m k x) s (fun p _ _ n => (reduce j.toNat rm sat 6 (row p n)).1) ∧
    VFills (.vredC d a j m k x) s (fun p _ _ n => (reduce j.toNat rm sat 4 (col p n)).1) ∧
    VFills (.vscanR d a j m k x) s (fun p _ _ n => ((scanFrom j.toNat rm sat none (row p n)).getD (n % 64) (.zero, none)).1) ∧
    VFills (.vscanC d a j m k x) s (fun p _ _ n => ((scanFrom j.toNat rm sat none (col p n)).getD (n / 64) (.zero, none)).1))

/-- Directional words act row by row on components and norms; Log-path words write each lane under their mask and change nothing
else (15_directional_and_log.md R279, R280, R281, R282, R283, R284, R285, R286, R287, R288). dnorm, dadd, dsub, dscl and dscli
write the rows of dD; dexp, ddot, ddotn, dcomp and dnget write lanes of vD from the rows of their directional sources under the
mask; dtst writes a mask by the class of each row norm. Nothing else changes. lcvt converts between FP32 and L32; lmul and ldiv
add and subtract logarithms; lsh scales one; lfn evaluates exp, log, sigmoid, tanh or rsqrt through the log path. Nothing else
changes. Choices of the model that this rests on: log entries 24 and 30. -/
def Obligations.DirectionalWords : Prop :=
    (∀ (s : State) (d a b : BitVec 6) (j : BitVec 6) (m : BitVec 1) (k : BitVec 3) (x y : BitVec 1),
    let rm := fld s.fmode 0 2
    let sat := s.fmode.getLsbD 2
    let da := s.dReg a.toNat
    let db := s.dReg b.toNat
    let o : Operands := ⟨[], [], [], da, db, 0, rm, sat⟩
    VRows (.dnorm d a x) s (fun p _ r => dnormRow ((List.range 64).map (fun c => vlane p (64 * r + c)))) ∧
    VRows (.dadd d a b) s (fun _ _ r => daddRow (da.row r) (da.norm r) (db.row r) (db.norm r)) ∧
    VRows (.dsub d a b) s (fun _ _ r => daddRow (da.row r) (da.norm r) ((db.row r).map (fun c => -c)) (db.norm r)) ∧
    VRows (.dscl d a b y) s (fun _ q r => if (vlane q (64 * r)).logPoison then .zeros normPoison else dsclRow (da.row r) (da.norm r)
      (if l32Zero (vlane q (64 * r)).bits.toNat then none else some (l32Neg (vlane q (64 * r)).bits.toNat, l32Log (vlane q (64 * r)).bits.toNat))) ∧
    VRows (.dscli d a j) s (fun _ _ r => dsclRow (da.row r) (da.norm r) (some (false, j.toInt * 2 ^ 22))) ∧
    VFills (.dexp d a m k) s (fun _ _ _ n => (dexpLane rm sat (da.comp (n / 64) (n % 64)) (da.norm (n / 64))).1) ∧
    VFills (.ddot d a b m k) s (fun _ _ _ n => (dotLane false o (n / 64)).1) ∧
    VFills (.ddotn d a b m k) s (fun _ _ _ n => (dotLane true o (n / 64)).1) ∧
    VFills (.dcomp d a m k) s (fun _ _ _ n => if da.norm (n / 64) = normPoison then ⟨0, true⟩ else if da.norm (n / 64) = normZero then ⟨0, false⟩ else ⟨BitVec.ofInt 32 (da.comp (n / 64) (n % 64)), false⟩) ∧
    VFills (.dnget d a m k) s (fun _ _ _ n => if da.norm (n / 64) = normPoison then ⟨0, true⟩ else ⟨da.norm (n / 64), false⟩) ∧
    VMasks (.dtst d a j) s (fun _ _ n => normClass j.toNat (da.norm (n / 64)))) ∧
    (∀ (s : State) (d a b j : BitVec 6) (r : BitVec 1) (z : BitVec 3) (m : BitVec 1) (k : BitVec 3) (x y : BitVec 1),
    let rm := fld s.fmode 0 2
    let sat := s.fmode.getLsbD 2
    VFills (.lcvt d a j m k x) s (fun p _ _ n => (lcvtLane j.toNat rm sat (vlane p n)).1) ∧
    VFills (.lmul d a b m k x y) s (fun p q _ n => (lmulLane false (vlane p n) (vlane q n)).1) ∧
    VFills (.ldiv d a b m k x y) s (fun p q _ n => (lmulLane true (vlane p n) (vlane q n)).1) ∧
    VFills (.lsh d a r z m k x) s (fun p _ _ n => (lshLane (r == 1) z.toNat (vlane p n)).1) ∧
    VFills (.lfn d a j m k x) s (fun p _ _ n => (lfnLane j.toNat rm sat (vlane p n)).1))

/-- V-slot words take operands from registers, latches and ports, queue images for output ports, and touch nothing else
(13_vector_instructions.md R252, R258, R259, R192, 10_instruction_words.md R191, R195). Of every V-slot word: a register operand
is read as it stood at the issue of the group and fills its latch; a hold takes the latch of its field, or raises BAD_REGISTER
where it holds another register or none; an input port that is not bound or whose walk has ended raises QUEUE_UNDERFLOW, one
without a whole image waits, and one with a whole image gives its lanes, popped unless held. The word waits, or raises the cause,
with its first operand that does. With its operands there, a lane result for code 52 or above completes and changes no register;
one for an output port raises QUEUE_OVERFLOW without a binding or a row left, waits while four images are queued, and else
completes with a new image at the port. Whatever V-slot word completes, it leaves every sequencer, every scalar register, memory,
the scratchpad and every CSR but OVFCTL and the performance counters as they were; and of the vector file it changes only what it
names. -/
def Obligations.VectorOperands : Prop :=
    (∀ (s : State) (i : Instr) (f : VForm), vform i = some f →
    (∀ c h n, c.toNat < 48 → (h = false → ∃ t, s.source i n c h = .got (s.vReg c.toNat) t ∧ t.latchOf n = some (c.toNat, s.vReg c.toNat)) ∧
      (h = true → (∀ v, s.latchOf n = some (c.toNat, v) → s.source i n c h = .got v s) ∧
        ((∀ v, s.latchOf n ≠ some (c.toNat, v)) → s.source i n c h = .fails .badRegister (BitVec.ofNat 64 (s.vslot * 2 ^ 32 + ((encode i).getD 0).toNat)) 0))) ∧
    (∀ c h n, 48 ≤ c.toNat → ((s.inPort (c.toNat - 48)).bound = none → s.source i n c h = .fails .queueUnderflow 0 0) ∧
      ∀ b, (s.inPort (c.toNat - 48)).bound = some b → (b.walk.rows ≤ (s.inPort (c.toNat - 48)).popped * 16 → s.source i n c h = .fails .queueUnderflow 0 0) ∧
        (¬ b.walk.rows ≤ (s.inPort (c.toNat - 48)).popped * 16 → ((s.inPort (c.toNat - 48)).images = [] → s.source i n c h = .waits) ∧
          ∀ x r, (s.inPort (c.toNat - 48)).images = x :: r → x.fault = none → x.rows = 16 → ∃ t, s.source i n c h = .got x.lanes t ∧
            (t.inPort (c.toNat - 48)).images = (if h then x :: r else r))) ∧
    (f.ak = .vec → (s.source i 0 f.a f.ha = .waits → Waits i s) ∧
      ∀ c tv u, s.source i 0 f.a f.ha = .fails c tv u → c ≠ .poison → Raises i .compute s c tv u) ∧
    (f.ak ≠ .vec → f.bk = .vec → (s.source i 1 f.b f.hb = .waits → Waits i s) ∧
      ∀ c tv u, s.source i 1 f.b f.hb = .fails c tv u → c ≠ .poison → Raises i .compute s c tv u) ∧
    ∀ a s1 b s2 c s3, s.sourceIf (f.ak == .vec) i 0 f.a f.ha = .got a s1 → s1.sourceIf (f.bk == .vec) i 1 f.b f.hb = .got b s2 →
      s2.sourceIf (f.dk == .regRead) i 2 f.d f.hc = .got c s3 → f.dk ≠ .mask → f.dk ≠ .dir → 48 ≤ f.d.toNat →
      let p := s.outPort (f.d.toNat - 48)
      (52 ≤ f.d.toNat → ∃ t, exec i s = .next t ∧ t.last = .done ∧ KeepsBeyondVectorLogs s t ∧ t.vec.file = s.vec.file ∧ t.vec.out = s.vec.out) ∧
      (f.d.toNat < 52 → (p.bound = none → Raises i .compute s .queueOverflow 0 0) ∧
        ∀ b, p.bound = some b → (b.walk.rows < (p.queued + 1) * 16 → Raises i .compute s .queueOverflow 0 0) ∧
          ((p.queued + 1) * 16 ≤ b.walk.rows → (4 ≤ p.images.length → Waits i s) ∧
            ∀ xs, p.images.length < 4 → s.imageRows b p.queued = .ok xs → s.accessRangesFull = false →
              s.rangeHeld (xs.foldl min (2 ^ 22) / 64) (xs.foldl (fun m x => max m ((x + 8 * s.bankWidth (x / 65536) - 1) / 64)) 0) true = false →
              ∃ t x, exec i s = .next t ∧ t.last = .done ∧ KeepsBeyondVectorLogs s t ∧ t.vec.file = s.vec.file ∧
                (t.outPort (f.d.toNat - 48)).images = p.images ++ [x] ∧ (t.outPort (f.d.toNat - 48)).queued = p.queued + 1 ∧ x.addrs = xs ∧ x.done = 0 ∧ x.rm = b.rm))) ∧
    (∀ (s t : State) (i : Instr) (f : VForm), vform i = some f → exec i s = .next t → t.last = .done →
    { t with vec := s.vec, csr := s.csr, logs := s.logs, agenda := s.agenda, trap := { t.trap with pend := s.trap.pend }, last := s.last } = s ∧
    KeepsCsrsBut [0x17] s t ∧
    (∀ n, n ∉ vecWrites i → n < 48 → mget t.vec.file.v [] n = mget s.vec.file.v [] n) ∧
    (∀ n, 64 + n ∉ vecWrites i → mget t.vec.file.k 0 n = mget s.vec.file.k 0 n) ∧
    (∀ n, 128 + n ∉ vecWrites i → mget t.vec.file.d .zero n = mget s.vec.file.d .zero n))

/-- Every well-formed control word decodes to itself (10_instruction_words.md R187, R188, R189, R190). Every instruction of the
control sequencer that the decode checks admit has a word, with every operand at every value, and that word decodes to the
instruction. -/
def Obligations.ScalarWordsRoundTrip : Prop :=
    ∀ i : Instr, WellFormed .control i = true → ∃ w, encode i = some w ∧ decode .control w = .ok i

/-- Every well-formed slot word decodes to itself; Every well-formed engine word decodes to itself (10_instruction_words.md R187,
R191, R192, R193, R194, R196, R197, R200). Every instruction of the slots V0, V1, M and X that the decode checks of its slot admit
has a word, and that word decodes in the slot to the instruction. Every instruction of the load and the store sequencer that the
decode checks admit has a word, and that word decodes on its sequencer to the instruction. -/
def Obligations.SlotWordsRoundTrip : Prop :=
    (∀ sp : Space, sp ∈ [Space.v0, .v1, .m, .x] → ∀ i : Instr, WellFormed sp i = true → ∃ w, encode i = some w ∧ decode sp w = .ok i) ∧
    (∀ sp : Space, sp ∈ [Space.load, .store] → ∀ i : Instr, WellFormed sp i = true → ∃ w, encode i = some w ∧ decode sp w = .ok i)

/-- What the decoder accepts passes every decode check, and only one word stands for it (10_instruction_words.md R187, R190,
R193). A word that decodes in an opcode space gives an instruction of that space that is well formed there, and the word is the
one that the encoder gives for it: no two words of a space decode to one instruction. -/
def Obligations.DecodedWordsAreWellFormed : Prop :=
    ∀ (sp : Space) (w : Word32) (i : Instr), decode sp w = .ok i → WellFormed sp i = true ∧ encode i = some w

/-- Words written out in the spec decode to the instructions they stand for, and words of unassigned opcodes are refused by name
(11_scalar_instructions.md R214, 22_program_halo_stencil.md, 17_engine_commands.md R306, 16_matrix_instructions.md R299,
13_vector_instructions.md R262, 15_directional_and_log.md R284, 20_traps_faults_and_preemption.md R357, 10_instruction_words.md
R189, R193, R194). One or more words of every opcode space, taken from the worked encodings of the spec, decode to their
instructions; opcode 0x00 of every space, 0x3F of the control words, and the words that the spec calls ILLEGAL or RESERVED_BITS
beside its examples are refused so. -/
def Obligations.DecodedWordsAreRight : Prop :=
    decode .control 0x3127A001#32 = .ok (.cmpNe 9 7 20) ∧
    decode .control 0xC0060901#32 = .ok (.csrw 6 0x90) ∧
    decode .control 0x7CE97580#32 = .ok (.ldNb 7 9 1 3 0 22) ∧
    decode .control 0xAB230002#32 = .ok (.barArrive 25 3) ∧
    decode .control 0xB0850005#32 = .ok (.tagAll 4 5 1) ∧
    decode .control 0xD8031000#32 = .ok (.invalVa 3 2) ∧
    decode .v0 0x0A400600#32 = .ok (.vFma 8 0 12 0 0 0 0 0) ∧
    decode .v1 0x041882D0#32 = .ok (.vFadd 3 4 5 1 2 0 0) ∧
    decode .v0 0x18084180#32 = .ok (.vFcmpLt 1 2 3 0 0 0 0) ∧
    decode .v0 0xC4504100#32 = .ok (.ddot 10 2 2 0 0) ∧
    decode .v0 0xCE185F80#32 = .ok (.dscli 3 2 63) ∧
    decode .m 0x88600082#32 = .ok (.patchM 4 6 8 0 0 1 0) ∧
    decode .m 0x11828000#32 = .ok (.accSt 1 32 5 0) ∧
    decode .m 0x18C60000#32 = .ok (.accTov 12 1 2) ∧
    decode .x 0x1E0C0000#32 = .ok (.sbind 1 0 3) ∧
    decode .x 0x60000601#32 = .ok (.xTokPut 6 1) ∧
    decode .load 0x093FFFFC#32 = .ok (.eLoop 1 1 0x1FFFFC) ∧
    decode .store 0x0E002004#32 = .ok (.eLcseti 1 0 1 4) ∧
    decode .store 0x1E4801C4#32 = .ok (.tagwTst 0 9 7 4) ∧
    decode .store 0x86502032#32 = .ok (.patch 3 5 0x203 0 0 1 0) ∧
    decode .control 0x00000000#32 = .error .illegal ∧
    decode .control 0xFC000000#32 = .error .illegal ∧
    decode .v1 0x00000000#32 = .error .illegal ∧
    decode .m 0x00000000#32 = .error .illegal ∧
    decode .load 0x00000000#32 = .error .illegal ∧
    decode .store 0x00000000#32 = .error .illegal ∧
    decode .control 0xB0C50006#32 = .error .illegal ∧
    decode .m 0x28000000#32 = .error .illegal ∧
    decode .m 0x09000001#32 = .error .reservedBits ∧
    decode .load 0x1F000000#32 = .error .illegal ∧
    decode .v0 0x00000000#32 = .error .illegal ∧
    decode .x 0x00000000#32 = .error .illegal

/-- On its turn a sequencer runs the word at its program counter, and the compute sequencer the four words of its group or none
(09_execution_model.md R161, R162, 20_traps_faults_and_preemption.md R350, R353, 10_instruction_words.md R186, R187, R191, R195,
09_execution_model.md R174, R176, R177). A fetch from local memory that its checks pass gives the bytes at the program counter,
lowest first. When the core runs, no asynchronous cause of the sequencer waits, nothing comes first at the boundary, the fetch
waits for no home and the sequencer issues, a step is exec of the instruction that the word at its program counter decodes to, on
the state after the fetch; around it the step notes whether the word waits on a coupling, whether SINGLE_STEP follows, that the
control sequencer issued, the hops of the fetch, and whose turn is next. A word that does not decode takes the cause of its
decoding with SLOT and WORD, and a fetch that is refused takes its cause with the address. A cause of a sequencer before the
control sequencer takes its way at the end of the cycle. A sequencer that does not issue passes its turn, and one whose fetch has
to wait for its home waits. A group that decodes and whose words write no register twice enters its phase. One that is not the
first of its phase is performed: exec of V0, V1, M and X in that order, each reading the vector file as it stood at the issue;
where all four complete, its address enters the signature, its self-cycle is counted, and a swap among them is reached once the
phase has retired. Where one waits, the group waits on the state before its words; where one raises a cause, the group raises it
on the state after its own stalls. A group that does not decode, and one with a clash, takes its cause. A compute sequencer that
does not issue reaches its swap once it may. Around the group the step counts the hops of its fetch, and a cause of the group
takes its way at the end of the cycle. Choices of the model that this rests on: log entries 1, 4, 43 and 77. -/
def Obligations.StepRuns : Prop :=
    ((∀ (s u : State) (q : Seq) (e : TlbEntry) (c : Nat), s.leafFor s.asid (s.pcOf q) .fetch s.sup s.secure = .ok (u, e) → u.target e.leaf = 0 →
    let pa := leafAddress e.leaf e.level (s.pcOf q)
    u.cellOf s.ilvCur pa = some c → u.homeRefusal ⟨s.pcOf q, s.asid, s.secure, e.leaf, pa, s.ilvCur⟩ pa false = none → (u.granule c).poison = false →
    s.fetch q = .ok (u, if (u.granule c).owner = none then 0 else getBytes u.cell c (if q = .compute then 16 else 4))) ∧
    ∀ (s c : State) (q : Seq), q ≠ .compute → HasTurn s q c → c.coreRuns = true → c.asyncDue.filter (fun a => a.seq == q) = none →
      (q = .control → c.boundary = none) →
    (c.issues q = false → Turns s q { c with last := .waits }) ∧
    (c.issues q = true →
      (∀ t, c.fetchGate q = some t → Turns s q { t with last := .waits }) ∧
      (c.fetchGate q = none →
        (∀ s1 w i t, c.fetch q = .ok (s1, w) → decode (spaceOf q) (BitVec.ofNat 32 w) = .ok i → exec i s1 = .next t →
          Turns s q (((t.afterWord q i (q == .control && s.status.getLsbD 0 && !s.sup)).notes q).fetched q (c.fetchHops q))) ∧
        (∀ s1 w e t, c.fetch q = .ok (s1, w) → decode (spaceOf q) (BitVec.ofNat 32 w) = .error e →
          finish q s1 (.trap (causeOf e) (w64 (BitVec.ofNat 32 w).toNat) 0) = .next t → Turns s q (t.fetched q (c.fetchHops q))) ∧
        ∀ e tv t, c.fetch q = .error (e, tv) → finish q c (.trap e tv (s.pcOf q)) = .next t → Turns s q (t.fetched q (c.fetchHops q))))) ∧
    (∀ s c : State, HasTurn s .compute c → c.coreRuns = true → c.asyncDue.filter (fun a => a.seq == .compute) = none →
    (c.issues .compute = false → Turns s .compute { c.reachSwap with last := .waits }) ∧
    (∀ t, c.issues .compute = true → c.fetchGate .compute = some t → Turns s .compute { t with last := .waits }) ∧
    (∀ e tv t, c.issues .compute = true → c.fetchGate .compute = none → c.fetch .compute = .error (e, tv) →
      finish .compute c (.trap e tv (s.pcOf .compute)) = .next t → Turns s .compute (t.fetched .compute (c.fetchHops .compute))) ∧
    ∀ s1 w, c.issues .compute = true → c.fetchGate .compute = none → c.fetch .compute = .ok (s1, w) →
    let comes (r : Result) : Prop := ∀ t, r = .next t → Turns s .compute (t.fetched .compute (c.fetchHops .compute))
    (∀ e tv, decodeGroup w = .error (e, tv) → comes (finish .compute s1 (.trap e tv 0))) ∧
    ∀ g, decodeGroup w = .ok g →
      decode .v0 (BitVec.ofNat 32 w) = .ok g.v0 ∧ decode .v1 (BitVec.ofNat 32 (w / 2 ^ 32)) = .ok g.v1 ∧
      decode .m (BitVec.ofNat 32 (w / 2 ^ 64)) = .ok g.m ∧ decode .x (BitVec.ofNat 32 (w / 2 ^ 96)) = .ok g.x ∧
      (∀ tv, g.clash w = some tv → comes (finish .compute s1 (.trap .badRegister tv 0))) ∧
      (g.clash w = none → comes (s1.enterGroup g) ∧
        ((s1.phase.first = false ∨ s1.compat = true) → s1.enterGroup g = s1.performGroup g) ∧
        (let u := s1.stalled g
         let at_ (b : Bool) (t : State) : State := { t with vec := { t.vec with slot1 := b } }
         let v := { u with vec := { u.vec with image := some u.atIssue } }
         (∀ t0 t1 t2 t3, exec g.v0 (at_ false v) = .next t0 → t0.last = .done → exec g.v1 (at_ true t0) = .next t1 → t1.last = .done →
            exec g.m (at_ false t1) = .next t2 → t2.last = .done → exec g.x (at_ false t2) = .next t3 → t3.last = .done →
            s1.performGroup g = .next ((t3.issued (s1.pcOf .compute)).retirePhase.afterWord .compute g.x false)) ∧
         ∀ t i, runWords g.words .xNop v = .next (t, i) →
            (t.last = .waits → t.cycle.again.length ≤ s1.cycle.again.length →
              s1.performGroup g = .next ({ (s1.groupWaits i (decide (s1.vec.now < s1.groupReady g) || s1.engineWait g != 0)) with last := .waits }.afterWord .compute i false)) ∧
            ∀ c tv a, t.last = .raised c tv a →
              s1.performGroup g = mapNext (fun t => t.afterWord .compute i false) (finish .compute u (.ofRow c tv a)))))

/-- The machine never stops: every step gives a next state (20_traps_faults_and_preemption.md R350, R352, R365). From every state,
whatever its words, its causes and the events that are due, a step gives a next state: no instruction and no event is refused or
faults, since every cause takes its disposition. -/
def Obligations.StepNeverStops : Prop :=
    ∀ s : State, ∃ t, step s = .next t

/-- Every step keeps device memory in its canonical form (00_scope.md R9, 27_power_and_bring_up.md R400). From every state whose
device memory lists its cells in rising order and lists none that holds zero, a step leads to a state whose memory is so again.
Choices of the model that this rests on: log entry 60. -/
def Obligations.MemoryStaysCanonical : Prop :=
    ∀ s t : State, s.mem.wf = true → step s = .next t → t.mem.wf = true

/-- No word that runs in user mode changes what guards the worlds (26_security_and_host.md R393, R394,
20_traps_faults_and_preemption.md R353, R357, 01_address_spaces.md R13). Whatever word of whatever sequencer runs in user mode,
and whatever cause it raises, the worlds of the regions, DELEG, the key material as written and the keys of the slots stay as they
were. Choices of the model that this rests on: log entries 57 and 64. -/
def Obligations.UserModeKeepsSecurity : Prop :=
    ∀ (i : Instr) (s t : State), i.kind ≠ .event → s.sup = false → exec i s = .next t →
    t.pkg.regions = s.pkg.regions ∧ t.pkg.deleg = s.pkg.deleg ∧ t.pkg.secret = s.pkg.secret ∧ t.pkg.slotKeys = s.pkg.slotKeys

/-- What reset leaves (27_power_and_bring_up.md R400, R402, 09_execution_model.md R160, 05_landing_maps.md R102,
23_fabric_and_personalities.md R378, 02_tensors_and_tile_tables.md R43, 20_traps_faults_and_preemption.md R353, R354,
26_security_and_host.md R393). After reset memory is empty and canonical, no task is bound and every sequencer is idle, STATUS is
user mode outside a handler, TVECN, TVECS and DELEG read zero, every region is secure, the clocks stand at zero and are not
locked, HOLDT is 8,000 and FABTO 4,000,000, and INTLV entry n places span n. -/
def Obligations.ResetState : Prop :=
    State.reset.mem.wf = true ∧ (∀ c, State.reset.cell c = 0) ∧ State.reset.task.bound = false ∧ (∀ q, (State.reset.seqOf q).run = false) ∧
    State.reset.sup = false ∧ State.reset.inh = false ∧ State.reset.tvec false = 0 ∧ State.reset.tvec true = 0 ∧ State.reset.pkg.deleg = 0 ∧
    (∀ pa, State.reset.regionSecure pa = true) ∧ (∀ d, State.reset.clkOf d = 0) ∧ State.reset.locked = false ∧
    State.reset.csrOf 0x16 = 8000 ∧ State.reset.cfgOf 0x78 = 4000000 ∧
    ∀ n, n < 1024 → State.reset.intlv false n = put (put (put (0 : Word64) 15 1 1) 8 2 (n / 256)) 0 8 (n % 256)

/-- Entering a handler saves cause, addresses and status and goes to 256 × TVEC; tret returns; user mode may not execute tret
(20_traps_faults_and_preemption.md R352, R353, R354, R355, R356, R357). A cause of disposition H outside a handler, whose world
has a handler, writes CAUSE with ASYNC, FAULTADDR, FAULTPC and TVALUE; PMODE, PWORLD and TSEQ save the mode, the world and the
sequencer; the mode is then supervisor in the handler's world with INH set. g24 to g31 and a12 to a15 are exchanged with the bank
of that world, a15 takes the resume address of the control sequencer, past the word for the four calls, and a14 that of the
trapping sequencer. The control sequencer goes to 256 × TVEC. Every other register, sequencer and byte of memory stays. In a
handler tret restores the mode from PMODE and the world from PWORLD and clears INH; it exchanges g24 to g31 and a12 to a15 with
the bank of the world that ran; the control sequencer goes to a15, and the sequencer of TSEQ, if it is another, to a14, their low
bits cleared. Outside a handler tret raises ILLEGAL, and in user mode PRIVILEGE, each with the word. Choices of the model that
this rests on: log entry 56. -/
def Obligations.HandlerEntryAndReturn : Prop :=
    (∀ (s : State) (c : Cause) (q : Seq) (pc : Addr) (async : Bool) (tv : Word64) (fa : Addr), c ∉ [Cause.pageAbsent, .phaseCycles, .phaseSignature, .integrity, .thermalStop, .dieLost, .linkLost, .replayExhausted, .machineCheck, .uncorrectable, .factorProgram, .preempted, .debugHalt, .assignmentLock] →
    s.inh = false → s.tvec (s.handlerWorld c) ≠ 0 →
    let w := s.handlerWorld c
    let wg := if w then 32 else 0
    let wa := if w then 16 else 0
    let t := s.raise c q pc async tv fa
    t.csrOf 1 = c.code.setWidth 64 ||| (if async then 128 else 0) ∧ t.csrOf 2 = fa.setWidth 64 ∧ t.csrOf 3 = (fa >>> 64).setWidth 64 ∧
    t.csrOf 4 = pc.setWidth 64 ∧ t.csrOf 5 = (pc >>> 64).setWidth 64 ∧ t.csrOf 6 = tv ∧ KeepsCsrsBut [0, 1, 2, 3, 4, 5, 6] s t ∧
    t.inh = true ∧ t.sup = true ∧ t.secure = w ∧ t.status.getLsbD 3 = s.sup ∧ t.status.getLsbD 4 = s.secure ∧ fld t.status 5 2 = seqNum q ∧
    t.status.getLsbD 0 = s.status.getLsbD 0 ∧ t.pcOf .control = handlerAddress (s.tvec w) ∧ (∀ r, r ≠ .control → t.seqOf r = s.seqOf r) ∧
    (t.seqOf .control).p = (s.seqOf .control).p ∧ (t.seqOf .control).lc = (s.seqOf .control).lc ∧
    t.aReg 15 = s.pcOf .control +
      (if q = .control ∧ async = false ∧ c ∈ [Cause.trapCall, .hostCall, .breakpoint, .worldSwitch] then 4 else 0) ∧
    t.aReg 14 = (if q = .control then t.aReg 15 else s.pcOf q) ∧ (∀ i : Nat, 12 ≤ i → i < 14 → mget t.sc.a 0 i = mget s.sc.bankA 0 (wa + i)) ∧
    (∀ i : Nat, 24 ≤ i → i < 32 → mget t.sc.g 0 i = mget s.sc.bankG 0 (wg + i) ∧ mget t.sc.bankG 0 (wg + i) = mget s.sc.g 0 i) ∧
    (∀ i : Nat, i < 24 → mget t.sc.g 0 i = mget s.sc.g 0 i) ∧ (∀ i : Nat, 12 ≤ i → i < 16 → mget t.sc.bankA 0 (wa + i) = mget s.sc.a 0 i) ∧
    (∀ i : Nat, i < 12 → mget t.sc.a 0 i = mget s.sc.a 0 i) ∧ t.sc.m = s.sc.m ∧ KeepsMemory s t ∧ t.vec = s.vec ∧ t.scr = s.scr ∧ t.mat = s.mat ∧ t.q = s.q ∧ t.pkg = s.pkg) ∧
    (∀ s : State,
    (s.sup = false → Raises .tret .control s .privilege (wordTvalue 0 .tret) 0) ∧
    (s.sup = true → s.inh = false → Raises .tret .control s .illegal (wordTvalue 0 .tret) 0) ∧
    (s.sup = true → s.inh = true →
    let wg := if s.secure then 32 else 0
    let wa := if s.secure then 16 else 0
    let q := seqOfNum (fld s.status 5 2)
    ∃ t, exec .tret s = .next t ∧ t.last = .done ∧ t.inh = false ∧ t.sup = s.status.getLsbD 3 ∧ t.secure = s.status.getLsbD 4 ∧
    t.pcOf .control = s.aReg 15 &&& ~~~(3 : Addr) ∧
    (q ≠ .control → t.pcOf q = s.aReg 14 &&& ~~~(if q = .compute then (15 : Addr) else 3)) ∧ (∀ r, r ≠ .control → r ≠ q → t.seqOf r = s.seqOf r) ∧
    (∀ i : Nat, 12 ≤ i → i < 16 → mget t.sc.a 0 i = mget s.sc.bankA 0 (wa + i)) ∧ (∀ i : Nat, 24 ≤ i → i < 32 → mget t.sc.g 0 i = mget s.sc.bankG 0 (wg + i) ∧ mget t.sc.bankG 0 (wg + i) = mget s.sc.g 0 i) ∧
    (∀ i : Nat, i < 24 → mget t.sc.g 0 i = mget s.sc.g 0 i) ∧ (∀ i : Nat, 12 ≤ i → i < 16 → mget t.sc.bankA 0 (wa + i) = mget s.sc.a 0 i) ∧
    (∀ i : Nat, i < 12 → mget t.sc.a 0 i = mget s.sc.a 0 i) ∧ t.sc.m = s.sc.m ∧ KeepsCsrsBut [0] s t ∧ t.mem = s.mem ∧
    t.vec = s.vec ∧ t.scr = s.scr ∧ t.mat = s.mat ∧ t.pkg = s.pkg))

/-- Causes of the other dispositions park, rerun, contain or stop, and a cause in a handler stops
(20_traps_faults_and_preemption.md R352, R354, R360, R362, R365, 19_tasks_and_scheduling.md R340). A cause of disposition S, and
any of disposition H or PAGE_ABSENT while a handler runs, brings the contained stop: CSTOP holds the cause, or MACHINE_CHECK, with
the die, no task is bound, no sequencer runs, and no launch, store, engine operation or claim is left; of the events that are due,
only what the host or another chip asks is. INTEGRITY, and a cause whose handler has no address, contain the task: it is unbound
and its launch is gone. A phase mismatch cancels and reruns the phase the first time. PAGE_ABSENT asks for a save of the task.
Choices of the model that this rests on: log entries 6, 33 and 77. -/
def Obligations.CauseDispositions : Prop :=
    ∀ (s : State) (c : Cause) (q : Seq) (pc : Addr) (async : Bool) (tv : Word64) (fa : Addr),
    let t := s.raise c q pc async tv fa
    (c ∈ [Cause.thermalStop, .dieLost, .linkLost, .replayExhausted, .machineCheck] → t.pkg.stopped = true ∧ t.cfgOf 0x20 = put (put (put (0 : Word64) 63 1 1) 8 2 s.die.toNat) 0 6 c.code.toNat ∧ t.task.bound = false ∧
      (∀ r, (t.seqOf r).run = false) ∧ (∀ p, p ∈ t.agenda ↔ p ∈ s.agenda ∧ p.asked = true) ∧ t.mem.claims = [] ∧ t.mu.storeQ = [] ∧ t.eng.ops = [] ∧ t.disp.launches = []) ∧
    (s.inh = true → c ∉ [Cause.phaseCycles, .phaseSignature, .integrity, .thermalStop, .dieLost, .linkLost, .replayExhausted, .uncorrectable, .factorProgram, .preempted, .debugHalt, .assignmentLock] →
      t.pkg.stopped = true ∧ t.cfgOf 0x20 = put (put (put (0 : Word64) 63 1 1) 8 2 s.die.toNat) 0 6 Cause.machineCheck.code.toNat ∧ t.task.bound = false ∧
      (∀ r, (t.seqOf r).run = false) ∧ (∀ p, p ∈ t.agenda ↔ p ∈ s.agenda ∧ p.asked = true) ∧ t.mem.claims = [] ∧ t.mu.storeQ = [] ∧ t.eng.ops = [] ∧ t.disp.launches = []) ∧
    (c = .integrity ∨ (c ∉ [Cause.pageAbsent, .phaseCycles, .phaseSignature, .integrity, .thermalStop, .dieLost, .linkLost, .replayExhausted, .machineCheck, .uncorrectable, .factorProgram, .preempted, .debugHalt, .assignmentLock] ∧ s.inh = false ∧ s.tvec (s.handlerWorld c) = 0) →
      t.task.bound = false ∧ (∀ r, (t.seqOf r).run = false) ∧ t.launchOf s.taskLaunch = none) ∧
    ((c = .phaseCycles ∨ c = .phaseSignature) → s.compat = false → (s.csrOf 0xC).getLsbD 31 = false → (s.csrOf 0xC).getLsbD 30 = false →
      t.seqs = s.phase.commit.seqs ∧ t.sc.g = s.phase.commit.g ∧ t.sc.a = s.phase.commit.a ∧ (t.csrOf 0xC).getLsbD 30 = true ∧ t.phase.first = true) ∧
    (c = .pageAbsent → s.inh = false → t.disp.saving.isSome = true ∧ Pending.mk .taskSave {} ∈ t.agenda)

/-- The trap and system words: the calls raise their causes, the supervisor words act in supervisor mode and raise PRIVILEGE in
user mode (20_traps_faults_and_preemption.md R357, R352, R362, R364, 01_address_spaces.md R31, 05_landing_maps.md R106). trap,
hcall and brk raise TRAP_CALL and HOST_CALL with gA and BREAKPOINT. In user mode wdsvc, contain, wsw, the invalidations and mwclr
raise PRIVILEGE with the word. In supervisor mode wdsvc clears WDCNT; contain unbinds the task and removes its launch, with
FIELD_RANGE above 63; wsw raises WORLD_SWITCH with gA in the non-secure world and ILLEGAL in the secure one; the invalidations
leave no cached translation of the ASID and address, of the ASID, or any, and the latter two no tensor entry and no tile leaf of
the ASID, or any; mwclr retires the ASID's memory-wharf slots and waits until each is FREE; an ASID above 2,047 raises
FIELD_RANGE. Choices of the model that this rests on: log entries 33, 56 and 67. -/
def Obligations.TrapAndSystemWords : Prop :=
    ∀ (s : State) (a b : BitVec 5),
    Raises (.trap a) .control s .trapCall (s.gReg a) 0 ∧ Raises (.hcall a) .control s .hostCall (s.gReg a) 0 ∧ Raises .brk .control s .breakpoint 0 0 ∧
    (s.sup = false → ∀ i, i ∈ [Instr.wdsvc, .contain a, .wsw a, .invalVa a b, .invalAsid b, .invalAll, .mwclr b] →
      Raises i .control s .privilege (wordTvalue 0 i) 0) ∧
    (s.sup = true →
      (∃ t, exec .wdsvc s = .next t ∧ t.last = .done ∧ t.csrOf 0xD = 0 ∧ (∀ n, n ≠ 0xD → t.csrOf n = s.csrOf n) ∧ t.pcOf .control = s.pcOf .control + 4 ∧
        { t with seqs := s.seqs, csr := s.csr, last := s.last } = s) ∧
      (63 < (s.gReg a).toNat → Raises (.contain a) .control s .fieldRange 0 0) ∧
      ((s.gReg a).toNat ≤ 63 → ∃ t, exec (.contain a) s = .next t ∧ t.last = .done ∧ t.task.bound = false ∧ (∀ r, (t.seqOf r).run = false) ∧
        t.launchOf s.taskLaunch = none) ∧
      (s.secure = true → Raises (.wsw a) .control s .illegal (wordTvalue 0 (.wsw a)) 0) ∧
      (s.secure = false → Raises (.wsw a) .control s .worldSwitch (s.gReg a) 0) ∧
      (let drops (i : Instr) (gone : TlbEntry → Prop) (units : BitVec 11 → Prop) : Prop :=
          ∃ t, exec i s = .next t ∧ t.last = .done ∧ (∀ e, e ∈ t.mu.tlb ↔ e ∈ s.mu.tlb ∧ ¬ gone e) ∧
          (∀ n u, (n, u) ∈ t.layout → ∃ v, (n, v) ∈ s.layout ∧ (∀ e, e ∈ u.entries ↔ e ∈ v.entries ∧ ¬ units e.1) ∧
            ∀ l, l ∈ u.leaves ↔ l ∈ v.leaves ∧ ¬ units l.asid) ∧
          t.pcOf .control = s.pcOf .control + 4 ∧
          { t with seqs := s.seqs, mu := { t.mu with tlb := s.mu.tlb }, layout := s.layout, last := s.last } = s
       drops .invalAll (fun _ => True) (fun _ => True) ∧
       ((s.gReg b).toNat ≤ 2047 →
         drops (.invalVa a b) (fun e => e.covers ((s.gReg b).setWidth 11) (s.aReg a) = true) (fun _ => False) ∧
         drops (.invalAsid b) (fun e => e.asid = (s.gReg b).setWidth 11) (fun x => x = (s.gReg b).setWidth 11) ∧
         (let t := s.retireWhere (fun m => m.asid == (s.gReg b).setWidth 11)
          (t.holdsMaps ((s.gReg b).setWidth 11) = false → Completes (.mwclr b) s (t.advance .control)) ∧
          (t.holdsMaps ((s.gReg b).setWidth 11) = true → exec (.mwclr b) s = .next { t with last := .waits })))) ∧
      (2047 < (s.gReg b).toNat → ∀ i, i ∈ [Instr.invalVa a b, .invalAsid b, .mwclr b] → Raises i .control s .fieldRange 0 0))

/-- The five CSR words read the old value into gD and write their function of it; a refused access raises its cause and does
neither (11_scalar_instructions.md R223, R224, R225, 00_scope.md R10, R13, 20_traps_faults_and_preemption.md R353,
03_number_formats.md R56, 05_landing_maps.md R102). Each word reads the CSR as it stood and writes gA, the old value with the bits
of gA set or cleared, or nothing; TAGS, which clears by ones, takes gA itself for csrs and nothing for csrc. A read or a write
that R223 refuses raises its cause and changes nothing. In user mode a read of DELEG, CFGADDR or CFGDATA and a write of a
supervisor's register raise PRIVILEGE. FMODE holds its three bits; STATUS takes STEP and PMODE and, in the secure world, PWORLD;
HOLDT raises FIELD_RANGE for zero and above 4,194,304. CFGDATA waits for the earlier stores and factor operations. Choices of the
model that this rests on: log entries 57 and 64. -/
def Obligations.CsrWords : Prop :=
    ∀ (s : State) (d a : BitVec 5) (c : BitVec 12),
    let n := c.toNat
    let x := s.gReg a
    (n = 0x1E → (s.ownRows.isEmpty && s.opsPerformed) = false → ∀ i, i ∈ [Instr.csrr d c, .csrw a c, .csrs d a c, .csrc d a c, .csrrw d a c] → Waits i s) ∧
    ((n ≠ 0x1E ∨ (s.ownRows = [] ∧ s.opsPerformed = true)) →
      (∀ e, s.csrRead n = .error e → ∀ i, i ∈ [Instr.csrr d c, .csrs d a c, .csrc d a c, .csrrw d a c] → Raises i .control s e 0 0) ∧
      (∀ v, s.csrRead n = .ok v → Completes (.csrr d c) s ((s.setG d v).advance .control) ∧
        ∀ i w, (i, w) ∈ [(Instr.csrs d a c, if n = 0x19 then x else v ||| x), (.csrc d a c, if n = 0x19 then 0 else v &&& ~~~x), (.csrrw d a c, x)] →
          (∀ e, s.csrWrite n w = .error e → Raises i .control s e 0 0) ∧
          ∀ t, s.csrWrite n w = .ok t → Completes i s ((t.setG d v).advance .control)) ∧
      (∀ e, s.csrWrite n x = .error e → Raises (.csrw a c) .control s e 0 0) ∧
      (∀ t, s.csrWrite n x = .ok t → Completes (.csrw a c) s (t.advance .control))) ∧
    (s.sup = false → (∀ m, m ∈ [7, 0x1D, 0x1E] → s.csrRead m = .error .privilege) ∧
      ∀ m, m ∈ [0, 1, 2, 3, 4, 5, 6, 7, 9, 0xA, 0xB, 0xD, 0x10, 0x1D, 0x1E, 0x80] → s.csrWrite m x = .error .privilege) ∧
    (∀ v : Word64, s.csrWrite 0x14 v = .ok (s.setCsr 0x14 (v &&& 7)) ∧ (s.setCsr 0x14 (v &&& 7)).csrOf 0x14 = v &&& 7 ∧
      ((fld v 0 23 = 0 ∨ 4194304 < fld v 0 23) → s.csrWrite 0x16 v = .error .fieldRange) ∧
      ((fld v 0 23 ≠ 0 ∧ fld v 0 23 ≤ 4194304) → s.csrWrite 0x16 v = .ok (s.setCsr 0x16 (w64 (fld v 0 23)))) ∧
      (s.sup = true → ∃ t, s.csrWrite 0 v = .ok t ∧ t.status.getLsbD 0 = v.getLsbD 0 ∧ t.status.getLsbD 3 = v.getLsbD 3 ∧
        t.status.getLsbD 4 = (if s.secure then v.getLsbD 4 else s.status.getLsbD 4) ∧ t.sup = s.sup ∧ t.inh = s.inh ∧ t.secure = s.secure))

/-- rdclk and clkadd read the tick counter; a locality query answers whether its address holds or not (11_scalar_instructions.md
R226, R227, R228, 06_rings_dies_and_interleave.md R123). rdclk writes the die's counter into gD, and clkadd the counter plus gA.
locq writes the home of the address, with the interleave version, the target and the hops, where the checks of a read pass, else
the code of the cause; it raises nothing. locq.t answers so for the tile of a coordinate. Beside gD and the program counter only
the translation and layout caches and the counters of their misses change. Choices of the model that this rests on: log entry 78.
-/
def Obligations.ClockAndLocalityWords : Prop :=
    ∀ (s : State) (d a : BitVec 5),
    WritesG (.rdclk d) d (fun s => s.clk) ∧ WritesG (.clkadd d a) d (fun s => s.clk + s.gReg a) ∧
    (∀ c tv, s.leafFor s.asid (s.aReg a) .read s.sup s.secure = .error (c, tv) →
      Completes (.locq d a) s (((s.failedMiss .control c (s.aReg a)).setG d (put (0 : Word64) 18 6 c.code.toNat)).advance .control)) ∧
    (∀ u l, s.leafFor s.asid (s.aReg a) .read s.sup s.secure = .ok (u, l) →
      Completes (.locq d a) s ((u.setG d (u.locality l.leaf (leafAddress l.leaf l.level (s.aReg a)))).advance .control)) ∧
    (∀ f, s.tensorEntry s.die s.asid ((s.gReg a).setWidth 32) = .error f →
      Completes (.locqT d a) s ((s.setG d (put (0 : Word64) 18 6 f.cause.code.toNat)).advance .control)) ∧
    ∀ e, s.tensorEntry s.die s.asid ((s.gReg a).setWidth 32) = .ok e →
      let c : Coord := (fld (s.gReg (a + 1)) 0 24, fld (s.gReg (a + 1)) 24 24, fld (s.gReg (a + 2)) 0 24, fld (s.gReg (a + 2)) 24 24)
      (∀ f, boundsFault e.entry c = some f → Completes (.locqT d a) s ((s.setG d (put (0 : Word64) 18 6 f.cause.code.toNat)).advance .control)) ∧
      (boundsFault e.entry c = none → let x := locate e.entry (fmtWidth (teFmt e.entry)) c
        let found := (s.cacheEntry s.die s.asid e).tileEntry ⟨s.asid, s.secure, s.die, e, none⟩ e x.1 .read
        (∀ f, found = .error f → Completes (.locqT d a) s ((s.setG d (put (0 : Word64) 18 6 f.cause.code.toNat)).advance .control)) ∧
        ∀ u l, found = .ok (u, l) → Completes (.locqT d a) s
          ((u.setG d (u.locality l (leafFrame l * 2 ^ 17 + swz (fld e.entry 9 3) (x.2 / 8)))).advance .control))

/-- launch enters its queue under a fresh number; trigger, wait, setprio and yield act on launches and the phase
(19_tasks_and_scheduling.md R331, R332, R333, R337, R345, R346, R347, 08_consistency_model.md R144). With no refusal of a store
held: launch and trigger, which are releases, wait until the earlier accesses are acknowledged at package scope and the region is
done. Then launch raises MISALIGN or FIELD_RANGE, waits for what it reads of its descriptor at homes that have to answer first,
and raises the first check of R331 that fails; checked once, it waits while its queue holds 16 launches or the numbers are used
up; else it completes: the launch enters its queue and gD takes its number. trigger completes and releases every dependence on the
own launch; wait, an acquire that waits for no earlier access, raises for a mask out of range or an aborted dependence, waits for
those not released, else completes. setprio of a launch of the own ASID, or of any for the supervisor, completes and leaves the
priority to the next selection round. yield, no release, completes and marks the phase. The other scalar registers and memory
stay. Choices of the model that this rests on: log entries 31 and 59. -/
def Obligations.LaunchWords : Prop :=
    ∀ (s : State) (d a b : BitVec 5), s.mu.deferred = [] →
    let va := s.aReg a
    let q := (s.gReg b).toNat
    let check := s.checkLaunch s.asid s.secure s.sup false s.taskSecure va q
    let enters (u : State) (l : Launch) : Prop :=
      let m := u.noteDependences l
      let full := 16 ≤ (mget u.disp.queues [] l.queue).length ∨ u.numbersFull = true
      (full → exec (.launch d a b) s = .next { { u with task := { u.task with launching := some (s.pcOf .control, m) } } with last := .waits }) ∧
      (¬ full → ∃ t, exec (.launch d a b) s = .next t ∧ t.last = .done ∧
        (let n := u.nextNumber u.disp.next 1024
         t.gReg d = (if d = 0 then 0 else w64 n) ∧ t.disp.launches = u.disp.launches ++ [{ m with number := n }] ∧
         mget t.disp.queues [] m.queue = mget u.disp.queues [] m.queue ++ [n]) ∧ t.task.launching = none ∧
        t.pcOf .control = u.pcOf .control + 4 ∧ KeepsScalarsBut d u t ∧ KeepsMemory u t)
    ((s.acked 1 = false ∨ s.regionDone = false) → Waits (.launch d a b) s ∧ Waits .trigger s) ∧
    (s.acked 1 = true → s.regionDone = true →
    (∀ l, s.task.launching = some (s.pcOf .control, l) → enters s l) ∧
    ((∀ l, s.task.launching ≠ some (s.pcOf .control, l)) →
      (va.toNat % 64 ≠ 0 → Raises (.launch d a b) .control s .misalign 0 0) ∧
      (va.toNat % 64 = 0 → 64 ≤ q → Raises (.launch d a b) .control s .fieldRange 0 0) ∧
      (va.toNat % 64 = 0 → q < 64 →
        (∀ t, s.launchGate 7 s.asid s.secure s.sup va = some t → exec (.launch d a b) s = .next { t with last := .waits }) ∧
        (s.launchGate 7 s.asid s.secure s.sup va = none →
          (∀ c tv fa, check = .error (c, tv, fa) → Raises (.launch d a b) .control s c tv fa) ∧ ∀ u l, check = .ok (u, l) → enters (u.doneHw 7) l))) ∧
    (∀ l, s.launchOf s.taskLaunch = some l → l.triggered = false → ∃ t, exec .trigger s = .next t ∧ t.last = .done ∧
      (∃ m, t.launchOf l.number = some m ∧ m.triggered = true) ∧
      (∀ m ∈ t.disp.launches, ∀ j, j < 4 → (lhDepv m.header).getLsbD j = true → lhDep m.header j = l.number → m.released.getLsbD j = true) ∧
      t.pcOf .control = s.pcOf .control + 4 ∧ t.sc = s.sc ∧ KeepsMemory s t) ∧
    ((s.launchOf s.taskLaunch = none ∨ ∃ l, s.launchOf s.taskLaunch = some l ∧ l.triggered = true) →
      Completes .trigger s ((s.pin.advance .control).closeRegion .control))) ∧
    (∀ l, s.launchOf s.taskLaunch = some l →
      let named : BitVec 4 := if s.gReg a = 0 then lhDepv l.header else (s.gReg a).setWidth 4
      ((16 ≤ (s.gReg a).toNat ∨ named &&& ~~~(lhDepv l.header) ≠ 0) → Raises (.wait a) .control s .fieldRange 0 0) ∧
      ((s.gReg a).toNat < 16 → named &&& ~~~(lhDepv l.header) = 0 →
        (named &&& l.aborted ≠ 0 → Raises (.wait a) .control s .dependenceInvalid 0 0) ∧
        (named &&& l.aborted = 0 → named &&& ~~~l.released ≠ 0 → Waits (.wait a) s) ∧
        (named &&& l.aborted = 0 → named &&& ~~~l.released = 0 → Completes (.wait a) s ((s.advance .control).closeRegion .control)))) ∧
    ((65536 ≤ (s.gReg a).toNat ∨ 7 < (s.gReg b).toNat) → Raises (.setprio a b) .control s .fieldRange 0 0) ∧
    ((s.gReg a).toNat < 65536 → (s.gReg b).toNat ≤ 7 →
      (s.launchOf (s.gReg a).toNat = none → Raises (.setprio a b) .control s .dependenceInvalid 0 0) ∧
      ∀ l, s.launchOf (s.gReg a).toNat = some l →
        (l.asid ≠ s.asid → s.sup = false → Raises (.setprio a b) .control s .dependenceInvalid 0 0) ∧
        ((l.asid = s.asid ∨ s.sup = true) →
          Completes (.setprio a b) s ((s.setLaunch { l with newPrio := some (s.gReg b).toNat }).advance .control))) ∧
    ∃ t, exec .yield s = .next t ∧ t.last = .done ∧ t.phase.marked = true ∧ t.pcOf .control = s.pcOf .control + 4 ∧ t.sc = s.sc ∧ KeepsMemory s t

/-- rpop and rpush move records of the stage queues; exit ends the task (19_tasks_and_scheduling.md R329, R335, R341, R347, R348,
08_consistency_model.md R140). rpop raises STAGE_QUEUE without an input queue, and waits for earlier stores and factor operations
on the granules it reads. Else it completes: eight registers take the oldest record and its predicate is set, or they are zero and
it is clear where the queue is empty or the output queue has no room. rpush raises STAGE_QUEUE without a granted push and waits
until earlier accesses are acknowledged; else it completes: the record is written at PUT and PUT counts up. exit raises EXIT_LIVE
with a membership, waits while anything of the task runs, else completes and unbinds the task. Choices of the model that this
rests on: log entries 32, 74 and 76. -/
def Obligations.StageWords : Prop :=
    ∀ (s : State) (d a : BitVec 5) (p : BitVec 4), d.toNat ≤ 24 → a.toNat ≤ 24 →
    let fills (t : State) (r : Nat) (ok : Bool) : Prop :=
      (∀ k, k < 8 → t.gReg (BitVec.ofNat 5 (d.toNat + k)) = (if d.toNat + k = 0 then 0 else w64 (r / 2 ^ (64 * k)))) ∧
      (∀ r : BitVec 5, r.toNat < d.toNat ∨ d.toNat + 8 ≤ r.toNat → t.gReg r = s.gReg r) ∧ (∀ r, t.aReg r = s.aReg r) ∧
      t.pred .control p = (p == 0 || ok) ∧ t.pcOf .control = s.pcOf .control + 4
    let pops (bs : List Bound) (post : State → Prop) : Prop :=
      ((bs.any s.pending || !s.opsPerformed) = true → Waits (.rpop d p) s) ∧
      ((bs.any s.pending || !s.opsPerformed) = false → ∃ t, exec (.rpop d p) s = .next t ∧ t.last = .done ∧ post t)
    (s.launchOf s.taskLaunch = none → Raises (.rpop d p) .control s .stageQueue 0 0 ∧ Raises (.rpush a) .control s .stageQueue 0 0) ∧
    (∀ l, s.launchOf s.taskLaunch = some l →
      let e := l.stage s.taskStage
      (stInq e = 15 → Raises (.rpop d p) .control s .stageQueue 0 0) ∧
      (stInq e ≠ 15 →
        (∀ c tv fa, s.reserveAt l (stOutq e) (stOutn e) = .error (c, tv, fa) → Raises (.rpop d p) .control s c tv fa) ∧
        (∀ s1 bs, s.reserveAt l (stOutq e) (stOutn e) = .ok (s1, bs, none) → pops bs (fun t => fills t 0 false ∧ t.mem = s1.mem ∧ t.disp = s1.disp)) ∧
        ∀ s1 bs l1, s.reserveAt l (stOutq e) (stOutn e) = .ok (s1, bs, some l1) →
          (∀ c tv fa, s1.takeRecord l (stInq e) = .error (c, tv, fa) → Raises (.rpop d p) .control s c tv fa) ∧
          (∀ s2 bi, s1.takeRecord l (stInq e) = .ok (s2, bi, none) → pops (bs ++ bi) (fun t => fills t 0 false ∧ t.mem = s2.mem ∧ t.disp = s2.disp)) ∧
          ∀ s2 bi r, s1.takeRecord l (stInq e) = .ok (s2, bi, some r) → pops (bs ++ bi) (fun t => fills t r true ∧ t.mem = s2.mem ∧
            t.disp = (s2.setLaunch l1).disp ∧ t.task.grants = s2.task.grants + (if stOutq e = 15 then 0 else stOutn e))) ∧
      ((stOutq e = 15 ∨ s.task.grants = 0) → Raises (.rpush a) .control s .stageQueue 0 0) ∧
      (stOutq e ≠ 15 → s.task.grants ≠ 0 → ∀ s1 b put take u v br, s.queueCounts l (stOutq e) = .ok (s1, b, put, take) →
        let at_ := recordAddress (l.queueDesc (stOutq e)) put
        s1.queueGet l at_ 64 = .ok (u, v, br) →
        let held := !s.acked 0 || s.pending b || s.pending br
        (held = true → Waits (.rpush a) s) ∧
        (held = false → ∀ s2 s3, s1.queuePut l at_ 64 (s.gRecord a.toNat) = .ok s2 →
          s2.queuePut l (lqBase (l.queueDesc (stOutq e))) 8 ((put + 1) % 2 ^ 64) = .ok s3 → ∃ t, exec (.rpush a) s = .next t ∧ t.last = .done ∧
            t.mem = s3.mem ∧ t.disp = (s3.setLaunch (l.grant (stOutq e) 0 1)).disp ∧ t.task.grants = s3.task.grants - 1 ∧ t.sc = s3.sc ∧
            t.pcOf .control = s3.pcOf .control + 4))) ∧
    (s.task.members ≠ [] → Raises .exit .control s .exitLive 0 0) ∧
    (s.task.members = [] → s.mayExit = false → Waits .exit s) ∧
    (s.task.members = [] → s.mayExit = true → s.mu.deferred = [] → ∃ t, exec .exit s = .next t ∧ t.last = .done ∧ t.task.bound = false ∧
      ∀ r, (t.seqOf r).run = false)

/-- tmpl.ld fills a template slot, a patch writes one of its fields, and a go enters its queue (10_instruction_words.md R198,
R199, R200, R201, 17_engine_commands.md R305, R312, 16_matrix_instructions.md R292, R293, 04_scratchpad_and_rings.md R79). tmpl.ld
raises MISALIGN, the refusals of its access, ILLEGAL for a kind that its table does not have, or RESERVED_BITS; it asks an outside
home once; else it completes and the slot holds the 64 bytes. A patch word of an empty slot raises TEMPLATE_EMPTY, of a field the
kind lacks or a value that does not fit FIELD_RANGE, of an empty value queue QUEUE_UNDERFLOW or a wait, each cause with the word;
else the field of the staging copy takes the value, the queue is popped unless peeked, and with GO = 0 the word completes. With GO
= 1 a copy that passes its checks and finds room completes: its tag is pending and its snapshot is in its queue; a matrix
operation that passes its checks and finds room and its tiles at HEAD completes and is in the engine. Choices of the model that
this rests on: log entries 44 and 53. -/
def Obligations.TemplateWords : Prop :=
    ∀ (s : State) (t : BitVec 2) (sl : BitVec 6) (a : BitVec 4) (o : BitVec 14) (f : BitVec 5) (v : BitVec 16) (h q g c : BitVec 1),
    let va := s.aReg (a.setWidth 5) + (o.signExtend 72) * 64
    let table : Table := if t = 0 then .engine .load else if t = 1 then .engine .store else .matrix
    let ld : Instr := .tmplLd t sl a o
    let fills (u : State) (x : Nat) : Prop :=
      let img := BitVec.ofNat 512 x
      (table.assigned (opKind img) = false → Raises ld .control s .illegal 0 0) ∧
      (table.assigned (opKind img) = true → fld img 6 2 ≠ 0 → Raises ld .control s .reservedBits 0 0) ∧
      (table.assigned (opKind img) = true → fld img 6 2 = 0 →
        Completes ld s ({ u with eng := { u.eng with tmpl := mset u.eng.tmpl none (table.key sl.toNat) (some img) } }.advance .control))
    (va.toNat % 64 ≠ 0 → Raises ld .control s .misalign 0 0) ∧
    (va.toNat % 64 = 0 →
      (∀ e tv, s.bindAccess va .read = .error (e, tv) → Raises ld .control s e tv va) ∧
      ∀ s1 b lv, s.bindAccess va .read = .ok (s1, b, lv) →
        ((s1.pending b = true ∨ s1.opsPerformed = false) → Waits ld s) ∧
        (s1.pending b = false → s1.opsPerformed = true →
          (s1.target b.leaf = 0 → (∀ e tv, s1.loadHome b 64 true = .error (e, tv) → Raises ld .control s e tv va) ∧
            ∀ x s2, s1.loadHome b 64 true = .ok (x, s2) → fills (s2.cached s1 b) x) ∧
          (s1.target b.leaf ≠ 0 →
            let claims := s1.checked b && !leafSeal b.leaf
            (claims = true → s1.claimFull .control (s1.granuleOf b) = true → Raises ld .control s .claimFull 0 va) ∧
            ((claims = false ∨ s1.claimFull .control (s1.granuleOf b) = false) →
              (s1.mu.remote = .idle → (s1.target b.leaf ≠ 3 ∨ (s1.ksctl (leafKey b.leaf)).getLsbD 63 = true) →
                exec ld s = .next { s1.ask b (.access false b 64 0) with last := .waits }) ∧
              ∀ x, s1.mu.remote = .answered (s1.pcOf .control) x none →
                let s2 : State := { s1 with mu := { s1.mu with remote := .idle } }
                ∀ s3, (claims = false ∧ s3 = s2 ∨ claims = true ∧ s2.takeClaim .control (s1.granuleOf b) false = .ok s3) →
                  fills (s3.drawBytes 56).2 (x.toNat + 2 ^ 64 * (s3.drawBytes 56).1))))) ∧
    ∀ tab i, (tab, i) ∈ [(Table.engine (if s.engineSeq = .store then .store else .load), Instr.patch sl f v h q g c), (.matrix, .patchM sl f v h q g c)] →
      let w32 : BitVec 32 := 1#1 ++ sl ++ f ++ v ++ h ++ q ++ g ++ c
      let seq : Seq := if tab = .matrix then .compute else s.engineSeq
      let word : Word64 := if tab = .matrix then w64 (2 * 2 ^ 32 + w32.toNat) else w32.setWidth 64
      let past (u : State) : State := if tab = .matrix then u else u.advance s.engineSeq
      (mget s.eng.tmpl none (tab.key sl.toNat) = none → Raises i seq s .templateEmpty word 0) ∧
      ∀ img, mget s.eng.tmpl none (tab.key sl.toNat) = some img →
        (tab.fields img ≤ f.toNat → Raises i seq s .fieldRange word 0) ∧
        (f.toNat < tab.fields img →
          let place := tab.place img f.toNat
          let old := fld img place.1 place.2
          let entries := s.valueQueue (v.setWidth 1)
          (q = 1 → entries = [] → (v.getLsbD 1 = true → Waits i s) ∧ (v.getLsbD 1 = false → Raises i seq s .queueUnderflow word 0)) ∧
          ∀ x, (q = 0 ∧ x = (if h = 1 then old % 65536 + 65536 * v.toNat else old / 65536 * 65536 + v.toNat)) ∨
              (q = 1 ∧ ∃ e r, entries = e :: r ∧ x = fld e (if h = 1 then 32 else 0) 32) →
            (x / 2 ^ place.2 ≠ 0 → Raises i seq s .fieldRange word 0) ∧
            (x / 2 ^ place.2 = 0 → f = 0 → tab.assigned (x % 64) = false → Raises i seq s .illegal word 0) ∧
            (x / 2 ^ place.2 = 0 → f = 0 → tab.assigned (x % 64) = true → x / 64 ≠ 0 → Raises i seq s .reservedBits word 0) ∧
            (x / 2 ^ place.2 = 0 → (f = 0 → tab.assigned (x % 64) = true ∧ x / 64 = 0) →
              let img1 := put img place.1 place.2 x
              let s1 := { s with eng := { s.eng with tmpl := mset s.eng.tmpl none (tab.key sl.toNat) (some img1) } }
              let s2 := if q = 1 ∧ v.getLsbD 1 = false then s1.setValueQueue (v.setWidth 1) entries.tail else s1
              (g = 0 → Completes i s (past s2)) ∧
              (g = 1 → ∀ side, tab = .engine side → kindCopy (opKind img1) = true → reservedSet img1 = false → copyRange img1 = false →
                s.tagPending (opTag img1) = false → ∀ s3 ten,
                (if opKind img1 = 1 ∨ opKind img1 = 2 then
                  ∃ x, ten = some x ∧ s2.bindTensor s2.die s2.asid s2.taskSecure (cpHandle img1) (copyNamed img1) = .ok (s3, x)
                 else ten = none ∧ s3 = s2) →
                s3.copySource img1 ten = none → (s2.unstarted side).length < 8 → s2.cqRoom img1 = true →
                (s2.copyRanges img1 = [] ∨ s2.engineRangesFull = false) → (s2.copyRanges img1).any (fun r => s2.rangeHeld r.lo r.hi false) = false →
                (cpBanks img1).any s2.formatHeld = false →
                ∀ s4 units, s3.claimBlocks (sideSeq side) (cpHandle img1) ((ten.map (s3.copyBlocks img1)).getD []) = .ok (s4, units) →
                ∃ u o, exec i s = .next u ∧ u.last = .done ∧ u.tagPending (opTag img1) = true ∧ u.eng.ops.getLast? = some o ∧ u.eng.ops.length = s4.eng.ops.length + 1 ∧ o.img = img1 ∧ o.side = side ∧
                  o.started = false ∧ o.sent = 0 ∧ o.total = cpCount img1 ∧ o.chained = (c == 1) ∧ u.sc = s.sc) ∧
              (g = 1 → tab = .matrix → s2.mmaFault img1 = none →
                let s3 := s2.selfTo (s2.goTime img1)
                let da := s3.ringDesc (mmaRingA img1)
                let db := s3.ringDesc (mmaRingB img1)
                (s3.mat.ops.filter (fun o => !o.running)).length < 2 → s3.popsDue (mmaRingA img1) + mmaNk img1 ≤ ringTc da →
                s3.popsDue (mmaRingB img1) + mmaNk img1 ≤ ringTc db → s3.slotReady (mmaRingA img1) (ringHead da) = true →
                s3.slotReady (mmaRingB img1) (ringHead db) = true → (ringBanks da ++ ringBanks db).any s3.formatHeld = false →
                ∃ u o, exec i s = .next u ∧ u.last = .done ∧ u.mat.ops = s3.mat.ops ++ [o] ∧ o.img = img1 ∧ o.running = false ∧ o.done = 0 ∧
                  u.vec.file = s.vec.file ∧ u.sc = s.sc)))

/-- Accumulator words wait for the operations on their accumulators, then write elements, flags, lanes, bytes or mq
(16_matrix_instructions.md R296, R298, R299, R300, R301, R302). A word on an accumulator that an operation not yet retired writes
waits. Else it completes: acc.clr zeroes elements and flags; acc.mov copies both; acc.tov puts sixteen rows into vD, poison with
its side bit; acc.fromv takes sixteen rows from a register or from the image at an input port, for which it waits, a poison lane
giving poison and PSN; acc.ld, whose banks no format write holds, takes every element as FP32, with PSN alone or no flag; acc.st
writes every element to its banks and sets OVF where one overflows; mpush appends an element with the flags to mq, or raises
QUEUE_OVERFLOW; mwait and mwait.all wait alone. Other accumulators, the vector file and memory stay. Choices of the model that
this rests on: log entries 12 and 22. -/
def Obligations.AccumulatorWords : Prop :=
    ∀ (s : State) (d : BitVec 6) (a b q : BitVec 2) (r c src : BitVec 6) (l : BitVec 1) (f : BitVec 6) (n : BitVec 3) (o : BitVec 8),
    let on (l : List Nat) : State := s.selfTo (s.accTime l)
    let free (l : List Nat) : Prop := s.mat.ops.any (fun x => l.contains (mmaAcc x.img)) = false
    let runs (i : Instr) (l : List Nat) (post : State → State → Prop) : Prop :=
      (free l → ∃ t, exec i s = .next t ∧ t.last = .done ∧ post (on l) t ∧ t.sc = s.sc ∧ t.seqs = s.seqs ∧ KeepsMemory s t) ∧
      (¬ free l → exec i s = .next { on l with last := .waits })
    let keeps (l : List Nat) (s1 t : State) : Prop := ∀ m, m ∉ l → (∀ i, t.accElem m i = s1.accElem m i) ∧ t.accFlags m = s1.accFlags m
    let x := a.toNat
    let y := b.toNat
    runs (.accClr a) [x] (fun s1 t => (∀ i, t.accElem x i = 0) ∧ t.accFlags x = 0 ∧ keeps [x] s1 t ∧ t.vec.file = s1.vec.file ∧ t.scr = s1.scr) ∧
    runs (.accMov b a) [y, x] (fun s1 t => (∀ i, t.accElem y i = s1.accElem x i) ∧ t.accFlags y = s1.accFlags x ∧ keeps [y] s1 t ∧ t.vec.file = s1.vec.file ∧
      t.scr = s1.scr) ∧
    (d.toNat < 48 → runs (.accTov d a q) [x] (fun s1 t => FillsV s1 t d (fun i =>
        ⟨s1.accElem x (1024 * q.toNat + i), s1.accElem x (1024 * q.toNat + i) == 0x7FFFFFFF⟩) ∧ keeps [] s1 t ∧ t.scr = s1.scr)) ∧
    (let source := if src.toNat < 48 then Source.got ((on [x]).vReg src.toNat) (on [x]) else (on [x]).takeImage (src.toNat - 48) true
     (free [x] → source = .waits → exec (.accFromv a q src) s = .next { on [x] with last := .waits }) ∧
     ∀ v u, source = .got v u → runs (.accFromv a q src) [x] (fun s1 t =>
      (∀ i, i < 4096 → t.accElem x i = (if 1024 * q.toNat ≤ i ∧ i < 1024 * q.toNat + 1024 then
        (let l := vlane v (i - 1024 * q.toNat); if l.fpPoison then 0x7FFFFFFF else l.bits) else s1.accElem x i)) ∧
      t.accFlags x = (if (List.range 1024).any (fun i => (vlane v i).fpPoison) then s1.accFlags x ||| 1 else s1.accFlags x) ∧
      keeps [x] s1 t ∧ t.vec.file = s1.vec.file ∧ t.scr = s1.scr)) ∧
    (∀ bs w, (on [x]).accBanks f.toNat n.toNat o.toNat = .ok (bs, w) → bs.any (on [x]).formatHeld = true → free [x] →
      ∀ i ∈ [Instr.accLd a f n o, .accSt a f n o], exec i s = .next { on [x] with last := .waits }) ∧
    (∀ bs w, (on [x]).accBanks f.toNat n.toNat o.toNat = .ok (bs, w) → bs.any (on [x]).formatHeld = false →
      let nb := 2 ^ n.toNat
      let at_ (k : Nat) : Nat := 8 * (256 * o.toNat + 8 * w * (k / nb)) / w
      runs (.accLd a f n o) [x] (fun s1 t => (∀ i, i < 4096 → t.accElem x i =
          BitVec.ofNat 32 (encodeFloat fp32 0 false (s1.elemVal (f.toNat + i / 64 % nb) (at_ (i / 64) + i % 64))).code) ∧
        ((∃ i, i < 4096 ∧ s1.elemVal (f.toNat + i / 64 % nb) (at_ (i / 64) + i % 64) = .poison) → t.accFlags x = 1) ∧
        ((∀ i, i < 4096 → s1.elemVal (f.toNat + i / 64 % nb) (at_ (i / 64) + i % 64) ≠ .poison) → t.accFlags x = 0) ∧ keeps [x] s1 t ∧ t.vec.file = s1.vec.file ∧ t.scr = s1.scr) ∧
      runs (.accSt a f n o) [x] (fun s1 t =>
        let z := (List.range nb).foldl (fun (acc : State × List BlockEvent) k =>
          let r := acc.1.storeVals (f.toNat + k) 0 false ((List.range (64 / nb)).flatMap (fun j => (List.range 64).map (fun m =>
            (at_ (k + nb * j) + m, decodeFloat fp32 (s1.accElem x (64 * (k + nb * j) + m)).toNat))))
          (r.1, acc.2 ++ r.2)) (s1, [])
        t.scr = z.1.scr ∧ (∀ i, t.accElem x i = s1.accElem x i) ∧ t.accFlags x = (if z.2.isEmpty then s1.accFlags x else s1.accFlags x ||| 4) ∧
        keeps [x] s1 t ∧ t.vec.file = s1.vec.file)) ∧
    (free [x] → ∀ e tv, (on [x]).accBanks f.toNat n.toNat o.toNat = .error (e, tv) → Raises (.accLd a f n o) .compute s e tv 0 ∧ Raises (.accSt a f n o) .compute s e tv 0) ∧
    (free [x] → 8 ≤ s.mat.mq.length → Raises (.mpush a r c l) .compute s .queueOverflow 0 0) ∧
    (s.mat.mq.length < 8 → runs (.mpush a r c l) [x] (fun s1 t =>
      t.mat.mq = s1.mat.mq ++ [((s1.accElem x (64 * r.toNat + c.toNat)).setWidth 64, (s1.accFlags x).setWidth 6, s1.vec.now + 4)] ∧
      (∀ i, t.accElem x i = s1.accElem x i) ∧ t.accFlags x = (if l = 1 then 0 else s1.accFlags x) ∧ keeps [x] s1 t ∧ t.vec.file = s1.vec.file ∧ t.scr = s1.scr)) ∧
    runs (.mwait a) [x] (fun s1 t => t = s1.completed) ∧ runs .mwaitAll [0, 1, 2, 3] (fun s1 t => t = s1.completed)

/-- Copies start in their order, send their packets, take answers and complete; A matrix operation starts, takes its K steps on
ready tiles, and retires (17_engine_commands.md R310, R311, R313, R325, 18_program_landing_swap.md R327, 10_instruction_words.md
R201, 16_matrix_instructions.md R289, R293, R295, R303). The event of a copy kind completes: a copy that runs sends its next
packet, one that may start starts and sends its first, one that may not stays, and a packet whose home does not admit it yet is
taken up again later; a relay sends when those before it in go order have sent theirs. A packet that is read and sent is counted
with those unanswered. An answer completes: it takes one packet off, records a DISCARDED, and makes the completion due with the
last; a refusal ends the operation, frees its tag and holds the cause for its boundary. A packet that reads tiles outside the
package asks for them first and waits for them. An answer from outside goes by the number of its request, and one that is not
awaited is discarded. A copy with every packet sent and answered completes: its tag is complete, its record is in cq where it
pushes one, and it is gone. With no operation in the engine its three events complete and change nothing. Else mma completes and
starts the operation at the head; a K step whose tiles are ready, and that no save stops, completes: the accumulator takes KStep
of R295 and no other changes; after its last step mma.retire completes and the operation is gone. A matrix event changes neither
memory nor the scalar registers. Choices of the model that this rests on: log entries 27, 45, 49 and 50. -/
def Obligations.CopyAndMatrixEvents : Prop :=
    (∀ (s : State) (o : EngOp), s.engOp s.input.n = some o →
    (∀ e k, (e, k) ∈ [(Instr.arrive, 1), (.gather, 2), (.depart, 3), (.mcast, 4), (.relay, 5), (.fill, 6)] → opKind o.img = k →
      o.ended = false → o.sent < o.total → s.stopsEngines = false →
      let first := k ≠ 5 ∨ s.relays.head?.map (fun x => x.id) = some o.id
      let o1 : EngOp := { o with started := true }
      (o.started = true → (first → Completes e s (s.sendPacket o)) ∧ (¬ first → Completes e s s)) ∧
      (o.started = false → s.startable o = true →
        (first → Completes e s (((s.setOp o1).sendPacket o1).kickSide o.side)) ∧ (¬ first → Completes e s ((s.setOp o1).kickSide o.side))) ∧
      (o.started = false → s.startable o = false → Completes e s s) ∧
      (s.packetBarred o.img o.tensors.head? o.sent = true →
        s.sendPacket o = s.postOnce e { n := o.id, side := o.side }) ∧
      (s.packetBarred o.img o.tensors.head? o.sent = false → 
        s.packetOutside o.img o.tensors.head? o.sent ≠ [] → o.asked = false →
        s.sendPacket o = s.askTiles o (s.packetOutside o.img o.tensors.head? o.sent)) ∧
      (s.packetBarred o.img o.tensors.head? o.sent = false → s.packetOutside o.img o.tensors.head? o.sent ≠ [] → o.asked = true → o.asks ≠ [] →
        s.sendPacket o = s) ∧
      (s.packetBarred o.img o.tensors.head? o.sent = false →
        (s.packetOutside o.img o.tensors.head? o.sent = [] ∨ (o.asked = true ∧ o.asks = [])) → ∀ s1 p evs,
        s.packetOf o.img o.tensors.head? o.id o.sent = .ok (s1, p, evs) →
        let t := s.sendPacket o
        ∃ x, t.engOp o.id = some x ∧ x.img = o.img ∧ x.sent = o.sent + 1 ∧ x.open_ = o.open_ + (s.destinations o.img).length ∧
          t.sc = s.sc ∧ t.seqs = s.seqs)) ∧
    (s.input.req ≠ 0 → s.request s.input.req = none → s.pkg.moveAsks.any (fun x => x.2.1 == s.input.req) = false → Completes .packetAnswer s s) ∧
    (∀ f, s.input.req ≠ 0 → s.request s.input.req = some f →
      (∀ n, f.what = .packet n →
        Completes .packetAnswer s ((s.settle f).packetAnswered n s.input.w.toNat s.input.flag s.input.cause)) ∧
      (∀ land, f.what = .element land → Completes .packetAnswer s ((s.settle f).elementAnswered land s.input.cause)) ∧
      (f.what = .image → Completes .packetAnswer s ((s.settle f).imageAnswered f.id s.input.image s.input.cause))) ∧
    (s.input.req = 0 → o.coll = none → o.ended = false → 0 < o.open_ →
      let bit := if opKind o.img = 4 then s.input.w.toNat % 64 else 0
      let kept := if s.input.flag then putBit o.discarded bit true else o.discarded
      (s.input.cause = none → (1 < o.open_ ∨ o.sent = o.total) → ∃ t x, exec .packetAnswer s = .next t ∧ t.last = .done ∧
        t.engOp o.id = some x ∧ x.open_ = o.open_ - 1 ∧ x.discarded = kept ∧ x.sent = o.sent ∧ t.sc = s.sc ∧ t.seqs = s.seqs ∧
        (o.open_ = 1 → Pending.mk .copyComplete { n := o.id } ∈ t.agenda)) ∧
      (∀ c, s.input.cause = some c → 1 < o.open_ → ∃ t x, exec .packetAnswer s = .next t ∧ t.last = .done ∧ t.engOp o.id = some x ∧
        x.ended = true ∧ x.open_ = o.open_ - 1 ∧ t.tagPending (opTag o.img) = false ∧
        (⟨c, sideSeq o.side, 0, 0, some o.pc⟩ : Async) ∈ t.trap.pend ∧ t.sc = s.sc ∧ t.seqs = s.seqs)) ∧
    (kindCopy (opKind o.img) = true → o.ended = false → o.started = true → o.sent = o.total → o.open_ = 0 →
      ∃ t, exec .copyComplete s = .next t ∧ t.last = .done ∧ t.engOp o.id = none ∧ t.tags.getLsbD (opTag o.img) = true ∧
        t.tagPending (opTag o.img) = false ∧
        t.eng.cq = (if opPushes o.img then s.eng.cq ++ [(o.discarded, BitVec.ofNat 6 (opTag o.img))] else s.eng.cq) ∧ t.sc = s.sc ∧ t.seqs = s.seqs)) ∧
    (∀ s : State,
    (s.mat.ops = [] → Completes .mma s s ∧ Completes .mmaKStep s s ∧ Completes .mmaRetire s s) ∧
    ∀ m r, s.mat.ops = m :: r →
      (m.running = false → ∃ t, exec .mma s = .next t ∧ t.last = .done ∧ t.mat.ops = { m with running := true } :: r ∧ t.mat.acc = s.mat.acc ∧ t.sc = s.sc ∧ t.mem = s.mem) ∧
      (m.running = true → m.done < mmaNk m.img → s.tilesReady m = true → s.stopsEngines = false → ∃ t, exec .mmaKStep s = .next t ∧ t.last = .done ∧
        t.mat.ops = { m with done := m.done + 1 } :: r ∧ t.mat.acc = (s.kStepAll m (tileSlot m.da m.sa m.done) (tileSlot m.db m.sb m.done)).mat.acc ∧
        (∀ n, n ≠ mmaAcc m.img → ∀ i, t.accElem n i = s.accElem n i) ∧ t.sc = s.sc ∧ t.mem = s.mem) ∧
      (s.stopsEngines = true → Completes .mmaKStep s s) ∧
      (m.done = mmaNk m.img → ∃ t, exec .mmaRetire s = .next t ∧ t.last = .done ∧ t.mat.ops = r ∧ t.mat.acc = s.mat.acc ∧ t.sc = s.sc ∧ t.mem = s.mem))

/-- The event of a map kind queues its operation, a boundary makes map operations take effect, and ring.init empties a ring
(17_engine_commands.md R314, R315, R316, 05_landing_maps.md R106). The event of map.install, map.swap, map.retire or map.query,
where nothing of its queue has still to start, the record finds room, its checks pass and its slots fit, completes: its tag is
pending and its operation waits at its wharf for the boundary. At the boundary a lone operation takes effect: an install makes its
slot LIVE with its record, a retire or a swap makes its slot FREE, or RETIRING while a packet is bound there, a swap also
installs, and a query changes no slot. ring.init, its checks passed, completes: the ring is empty and its tag complete. Choices of
the model that this rests on: log entry 46. -/
def Obligations.MapAndRingEvents : Prop :=
    ∀ s : State,
    (∀ e k t, (e, k) ∈ [(Instr.mapInstall, 8), (.mapSwap, 9), (.mapRetire, 10), (.mapQuery, 11)] →
      mget s.eng.tmpl none (tmplKey s.input.side (s.input.n % 64)) = some t → opKind t = k → s.unstarted s.input.side = [] → s.cqRoom t = true →
      reservedSet t = false → s.tagPending (opTag t) = false →
      let w := if mpMem t then WharfId.mem s.die else .core
      mpSlot t < wharfSlots w → (k = 9 → mpSlot2 t < wharfSlots w) → s.slotsFit w t = true → ∀ s1 m x,
      ((10 ≤ k ∧ s1 = s ∧ m = 0 ∧ x = none) ∨ (k < 10 ∧ s.mapRecord t (w == .core) 0 = .ok (s1, m, x) ∧ s.scrHeld (mpRaddr t) 64 false = false)) →
      ∃ u, exec e s = .next u ∧ u.last = .done ∧ u.tagPending (opTag t) = true ∧
        (u.wharf w).ops = (s1.wharf w).ops ++ [⟨k, mpSlot t, mpSlot2 t, m, s.taskSecure, s.asid, true, s.task.id, s.input.side,
          some ⟨opTag t, opPushes t, true, s.task.id⟩, x⟩] ∧
        Pending.mk .mapBoundary { wharf := w } ∈ u.agenda ∧ u.sc = s.sc) ∧
    (let w := s.input.wharf
     Completes .mapBoundary s (((s.mapBoundary w).kickSide .load).kickSide .store) ∧
     ∀ o, (s.wharf w).ops = [o] → (s.wharf w).transit = [] → o.slot ≠ o.slot2 → ∃ t, exec .mapBoundary s = .next t ∧ t.last = .done ∧
       (t.wharf w).ops = [] ∧ t.sc = s.sc ∧ t.seqs = s.seqs ∧
       (o.kind = 8 → (t.mapSlot w o.slot).st = 1 ∧ (t.mapSlot w o.slot).map = o.map) ∧
       ((o.kind = 9 ∨ o.kind = 10) → (t.mapSlot w o.slot).st = (if (s.mapSlot w o.slot).bound = 0 then 0 else 2)) ∧
       (o.kind = 9 → (t.mapSlot w o.slot2).st = 1 ∧ (t.mapSlot w o.slot2).map = o.map) ∧
       (o.kind = 11 → ∀ n, t.mapSlot w n = s.mapSlot w n)) ∧
    (∀ t s1, mget s.eng.tmpl none (tmplKey s.input.side (s.input.n % 64)) = some t → opKind t = 12 → s.unstarted s.input.side = [] → s.cqRoom t = true →
      reservedSet t = false → s.tagPending (opTag t) = false → s.initRing (fld t 64 4) (fld t 96 28) (fld t 128 5) = .ok s1 →
      ∃ u, exec .ringInit s = .next u ∧ u.last = .done ∧ u.tags.getLsbD (opTag t) = true ∧ u.tagPending (opTag t) = false ∧
        u.csrOf (0x80 + fld t 64 4) = s1.csrOf (0x80 + fld t 64 4) ∧ ringCnt (u.ringDesc (fld t 64 4)) = 0 ∧ u.sc = s.sc)

/-- The event of a collective kind registers its party and enters its engine, or registers another party; a collective goes on and
completes (17_engine_commands.md R317, R318, R319, R320, R322, R325, 20_traps_faults_and_preemption.md R365). The event of a
collective kind, whose template passes the checks of its go at a local record and finds room, completes: the arrival is written to
the record, its tag is pending and it stands among the operations. Given another party, the event registers and counts it, or
sends its refusal, as a stopped package does. A collective whose parties are known and that has started sends its buffer first,
unless an earlier one holds it or its tiles are asked for; its packets to others are counted, and the shards of the other parties
come again until then. Then it lands them. It completes once what it landed is performed, its packets are answered and every party
has landed; one that is aborted completes its tag, with a record of all ones where it pushes one. Both are gone then. Choices of
the model that this rests on: log entries 17, 46, 49 and 61. -/
def Obligations.CollectiveEvents : Prop :=
    ∀ s : State,
    (∀ e k, (e, k) ∈ [(Instr.allgather, 16), (.redscat, 17), (.allred, 18), (.bcast, 19), (.permute, 20)] →
      (∀ r, s.input.reg = some r →
        (s.pkg.stopped = true → Completes e s (s.emit (.unregistered r .containedStop))) ∧
        (s.pkg.stopped = false →
          (∀ c, s.readTable r.pa 32 = .error c → Completes e s (s.emit (.unregistered r c))) ∧
          ∀ v, s.readTable r.pa 32 = .ok v → let g := BitVec.ofNat 256 v
            (∀ c, s.partyFault g r s.input.flag = some c → Completes e s (s.emit (.unregistered r c))) ∧
            (s.partyFault g r s.input.flag = none →
              Completes e s (((s.register r).writeTable r.pa 32 (countArrival g).toNat).gather r.pa r.epoch)))) ∧
      (s.input.reg = none → ∀ t, mget s.eng.tmpl none (tmplKey s.input.side (s.input.n % 64)) = some t → opKind t = k → reservedSet t = false →
        fmtKnown (clWfmt t) = true → ctlOp (opCtl t) ≤ 5 → s.tagPending (opTag t) = false → ∀ s1 sb s2 rb s3 b lv v,
        s.bindTensor s.die s.asid s.taskSecure (clSbuf t) [] = .ok (s1, sb) → s1.bindTensor s1.die s1.asid s1.taskSecure (clRbuf t) [] = .ok (s2, rb) →
        (clGva t).toNat % 32 = 0 → s2.bindAs s.sup s.taskSecure (clGva t) .both = .ok (s3, b, lv) → leafChk b.leaf = false → s3.target b.leaf = 0 →
        s3.homeRefusal b b.pa true = none → s3.readHome b b.pa 32 = .ok v →
        let g := BitVec.ofNat 256 v
        let p := grpExpect g
        grpOpen g = true → ∀ m g1 m1, s3.member (clGva t) = some m → m.arrived ≠ some (grpEpoch g) → arriveGroup g m = some (g1, m1) →
        collFault p (s.registration t sb.main.entry rb.main.entry b.pa (grpEpoch g)) (s3.registered b.pa (grpEpoch g)) = none →
        (s.unstarted s.input.side).length < 8 → s.cqRoom t = true → (collRanges t p = [] ∨ s.engineRangesFull = false) →
        (collRanges t p).any (fun r => s.rangeHeld r.lo r.hi r.wr) = false →
        (ctlStat (opCtl t) && s.formatHeld (clSpaddr t / 65536)) = false → ∀ s4 units s5,
        s3.claimBlocks (sideSeq s.input.side) (clSbuf t) (s3.collBlocks t sb) = .ok (s4, units) → s4.writeHome b b.pa 32 g1.toNat = .ok s5 →
        ∃ u, exec e s = .next u ∧ u.last = .done ∧ u.tagPending (opTag t) = true ∧ u.mem = s5.mem ∧
          ∃ o ∈ u.eng.ops, o.img = t ∧ o.side = s.input.side ∧ o.total = p ∧ o.claims = units ∧ o.tensors = [sb, rb])) ∧
    ∀ o c sb rb l, s.engOp s.input.n = some o → o.coll = some c → o.tensors = sb :: rb :: l → o.ended = false →
      let i := s.input
      let gone (t : State) (v : Word64) : Prop := t.last = .done ∧ t.engOp o.id = none ∧ t.tags.getLsbD (opTag o.img) = true ∧
        t.tagPending (opTag o.img) = false ∧ t.sc = s.sc ∧ t.seqs = s.seqs ∧
        t.eng.cq = (if opPushes o.img then s.eng.cq ++ [(v, BitVec.ofNat 6 (opTag o.img))] else s.eng.cq)
      (i.flag = true → ∃ t, exec .collectiveComplete s = .next t ∧ gone t (BitVec.allOnes 64)) ∧
      (i.flag = false → c.parties = [] → (i.flag2 = false ∨ c.pa.isSome = true) → Completes .collectiveComplete s s) ∧
      (i.flag = false → c.parties = [] → i.flag2 = true → c.pa = none →
        Completes .collectiveComplete s ((s.setOp { o with coll := some { c with parties := (List.range o.total).map (fun k =>
          (BitVec.ofNat 10 (i.data / 2 ^ (12 * k)), BitVec.ofNat 2 (i.data / 2 ^ (12 * k + 10)))) } }).postOnce .collectiveComplete { n := o.id })) ∧
      (i.flag = false → c.parties ≠ [] → o.started = false →
        Completes .collectiveComplete s (if i.others = [] then s else s.post .collectiveComplete i)) ∧
      (i.flag = false → c.parties ≠ [] → o.started = true → c.sent = false →
        let u := s.sendColl o c sb
        Completes .collectiveComplete s (if i.others = [] then u else u.post .collectiveComplete i) ∧
        (s.collHeld o (fun x => x.sent) = true → u = s.postOnce .collectiveComplete { n := o.id }) ∧
        (s.collHeld o (fun x => x.sent) = false → s.changing = false →
          let outside := if clSends o.img then s.outsideTiles sb (wholeTensor sb) else []
          (outside ≠ [] → o.asked = false → u = s.askTiles o outside) ∧ (outside ≠ [] → o.asked = true → o.asks ≠ [] → u = s) ∧
          ((outside = [] ∨ (o.asked = true ∧ o.asks = [])) → ∀ s1 own n, s.sendShards o sb c.parties (clPackets o sb.main.entry) = (s1, own, n, none) →
            n = ((clPackets o sb.main.entry).map (fun x => ((clDestinations o x.1).filter (fun r => r != clRank o.img)).length)).sum ∧
            ∃ x d, u.engOp o.id = some x ∧ x.open_ = n ∧ x.img = o.img ∧ x.coll = some d ∧ d.sent = true ∧ d.parties = c.parties ∧ d.landed = c.landed ∧
              u.sc = s.sc ∧ u.seqs = s.seqs))) ∧
      (i.flag = false → c.parties ≠ [] → o.started = true → c.sent = true →
        (∀ v, c.landed = some v → i.flag2 = true → s.landingOpen c.land = false → o.open_ = 0 →
          ∃ t, exec .collectiveComplete s = .next t ∧ gone t v) ∧
        (∀ v, c.landed = some v → i.flag2 = true → (s.landingOpen c.land = true ∨ o.open_ ≠ 0) →
          ∃ t x d, exec .collectiveComplete s = .next t ∧ t.last = .done ∧ t.engOp o.id = some x ∧ x.coll = some d ∧ d.agreed = true ∧ d.landed = some v) ∧
        ((c.landed.isSome = true ∧ i.flag2 = false) ∨ (c.landed = none ∧ i.others = [] ∧ o.total ≠ 1) → Completes .collectiveComplete s s) ∧
        (c.landed = none → (i.others ≠ [] ∨ o.total = 1) →
          let u := s.landColl o c sb rb i.others
          Completes .collectiveComplete s u ∧
          (s.collHeld o (fun x => x.landed.isSome) = true → u = s.post .collectiveComplete i) ∧
          (s.collHeld o (fun x => x.landed.isSome) = false → s.changing = false →
            let e0 := clE0 o.img (extOf sb.main.entry 0) o.total
            (collLandings o e0 c.own i.others = none → u = s) ∧
            ∀ ps parts s1, collLandings o e0 c.own i.others = some (ps, parts) →
              (s.shardsThroughWindow i.others = (s1, false) → u = s1.endColl o (BitVec.allOnes 64)) ∧
              (s.shardsThroughWindow i.others = (s1, true) → ctlVchk (opCtl o.img) = false → ∀ s2 es,
                s1.newLanding.landShards o rb ps = (s2, none, es) →
                u.engOp o.id = none ∨ ∃ x d, u.engOp o.id = some x ∧ x.coll = some d ∧ d.landed = some 0))))

/-- A header is matched or held, a beat lands a packet, and a hold time that ends discards one (05_landing_maps.md R92, R97, R98,
R99, R101, R102). A header completes: one that no LIVE map matches, and whose world is the core's, is held unbound until its hold
time ends where the hold has room; one of another world is dropped at the core. A beat completes: with no change of a region or of
a key waiting it lands one bound packet that waits for nothing at one of its maps, after which a packet that bound no other is
gone, but for one whose elements wait for the answers of homes outside the package; with no packet at the wharf nothing changes.
At the end of the hold time of an unbound packet it is dropped; before that it stays. Choices of the model that this rests on: log
entries 2, 27 and 72. -/
def Obligations.WharfEvents : Prop :=
    ∀ (s : State) (p : Packet),
    let w := s.input.wharf
    (s.input.packet = none → Completes .packetHeader s s) ∧
    (s.input.packet = some p → Completes .packetHeader s (s.takeHeader w p) ∧
      ((w = .core → p.world = s.taskSecure) → (∀ n, n < wharfSlots w → (s.mapSlot w n).st ≠ 1 ∨ mapMatches (s.mapSlot w n).map p = false) →
        p.heldBytes ≤ s.holdFree w → ∃ t x, exec .packetHeader s = .next t ∧ t.last = .done ∧ (t.wharf w).transit = (s.wharf w).transit ++ [x] ∧
          x.packet = p ∧ x.unbound = true ∧ x.held = true ∧ x.expiry = s.clk.toNat + s.holdTime w ∧ t.sc = s.sc ∧ t.seqs = s.seqs) ∧
      (w = .core → p.world ≠ s.taskSecure → ∃ t, exec .packetHeader s = .next t ∧ t.last = .done ∧
        (t.wharf w).transit.map (fun x => x.packet) = (s.wharf w).transit.map (fun x => x.packet) ∧ t.sc = s.sc ∧ t.seqs = s.seqs ∧ t.scr = s.scr)) ∧
    Completes .packetBeat s (s.landNext w) ∧ ((s.wharf w).transit = [] → Completes .packetBeat s s) ∧
    (∀ x b, (s.wharf w).transit = [x] → x.binds = [b] → b.waits = .no → s.changing = false → x.unbound = false → ∃ t, exec .packetBeat s = .next t ∧ t.last = .done ∧
      ((t.wharf w).transit = [] ∨ ((s.mapSlot w b.slot).tensor.isSome = true ∧
        ∃ y n, (t.wharf w).transit = [y] ∧ y.packet = x.packet ∧ y.binds = [⟨b.slot, .home, n⟩])) ∧ t.sc = s.sc ∧ t.seqs = s.seqs) ∧
    Completes .holdTimeout s (s.expireHold w) ∧
    (∀ x, (s.wharf w).transit = [x] → x.held = true → x.unbound = true →
      (x.expiry ≤ s.clk.toNat → ∃ t, exec .holdTimeout s = .next t ∧ t.last = .done ∧ (t.wharf w).transit = [] ∧ t.sc = s.sc ∧ t.seqs = s.seqs) ∧
      (s.clk.toNat < x.expiry → ∃ t, exec .holdTimeout s = .next t ∧ t.last = .done ∧ (t.wharf w).transit = [x] ∧ t.sc = s.sc ∧ t.seqs = s.seqs))

/-- Ports read and write their next rows, and log queues drain their oldest records (13_vector_instructions.md R255, R258, R259,
03_number_formats.md R64, R69, 05_landing_maps.md R105). A port row read completes: with a row to read that is good, the image
takes its 64 lanes as row; a bad row leaves its cause in the image; one whose format is pending, or a port with nothing to read,
changes nothing. A port row write completes: the next row of the oldest image is stored, and after the sixteenth the image is
gone. A drain completes: the oldest record is written to its page and leaves its queue, the unlanded queue before the overflow
queue, once what it reads or writes outside the package is answered; where the page cannot be written, EN is clear, LOST set and
the queue empty. Choices of the model that this rests on: log entries 49 and 51. -/
def Obligations.PortAndLogEvents : Prop :=
    ∀ s : State,
    let n := s.input.n
    let port := s.inPort n
    ((port.bound = none ∨ port.reads = false) → Completes .portRowRead s s) ∧
    (∀ b, port.bound = some b → port.reads = true →
      let img := port.current.2
      let good := s.goodRow b ((port.popped + port.current.1.length) * 16 + img.rows)
      let reads (i : InImage) : Prop := ∃ t, exec .portRowRead s = .next t ∧ t.last = .done ∧ (t.inPort n).bound = some b ∧ (t.inPort n).popped = port.popped ∧
          (∃ j, (t.inPort n).images = port.current.1 ++ [j] ∧ j.rows = i.rows ∧ j.fault = i.fault ∧
            ((∀ x ∈ img.lanes, x.1 < 64 * img.rows) → ∀ k, vlane j.lanes k = vlane i.lanes k)) ∧ t.sc = s.sc ∧ t.mem = s.mem ∧ t.scr = s.scr
      (good = .error .held → Completes .portRowRead s s) ∧ (good = .error .ended → reads { img with fault := some (.queueUnderflow, 0) }) ∧
      (∀ c a, good = .error (.bad c a) → reads { img with fault := some (c, a) }) ∧
      ∀ x, good = .ok x → reads { img with rows := img.rows + 1, lanes := mtab (64 * (img.rows + 1)) .zero (fun k =>
        if k < 64 * img.rows then vlane img.lanes k else (s.laneOf b (x / 65536) (s.rowElem x + k % 64)).1) }) ∧
    ((s.outPort n).images = [] → Completes .portRowWrite s s) ∧
    (∀ i r, (s.outPort n).images = i :: r →
      let x := i.addrs.getD i.done 0
      let bank := x / 65536
      let f := s.bankFmt bank
      let lane (j : Nat) : Lane := vlane i.lanes (64 * i.done + j)
      ∃ t, exec .portRowWrite s = .next t ∧ t.last = .done ∧ t.sc = s.sc ∧ t.seqs = s.seqs ∧ t.mem = s.mem ∧
        (i.done = 15 → (t.outPort n).images = r) ∧ (i.done ≠ 15 → ∃ j, (t.outPort n).images = j :: r ∧ j.done = i.done + 1 ∧ j.lanes = i.lanes ∧ j.addrs = i.addrs) ∧
        (fmtRaw f = false → t.scr = (s.storeVals bank i.rm.toNat i.satd ((List.range 64).map (fun j => (s.rowElem x + j,
          if (lane j).side then Val.poison else if fmtInt f then Val.ofInt (lane j).bits.toInt else decodeFloat fp32 (lane j).bits.toNat)))).1.scr) ∧
        (fmtRaw f = true → t.scr = (s.storePlaces ((List.range 64).map (fun j => ⟨s.elemBit bank (s.rowElem x + j), s.bankWidth bank,
          if (lane j).side then rawPoison f else (lane j).bits.toNat % 2 ^ s.bankWidth bank, (lane j).side⟩))).scr)) ∧
    (s.logs.overflow = [] → Completes .overflowLogDrain s s) ∧ (s.logs.unlanded = [] → Completes .unlandedLogDrain s s) ∧
    (s.logs.overflow ≠ [] → s.logs.unlanded ≠ [] → Completes .overflowLogDrain s (s.post .overflowLogDrain)) ∧
    (∀ r rest c, s.logs.overflow = r :: rest → s.logs.unlanded = [] → s.logGate 5 (logPage (s.csrOf 0x17)) 16 8191 r.toNat = some c →
      Completes .overflowLogDrain s (c.postOnce .overflowLogDrain)) ∧
    (∀ r rest c, s.logs.unlanded = r :: rest → s.logGate 6 (logPage (s.csrOf 0x18)) 32 2047 r.toNat = some c →
      Completes .unlandedLogDrain s (c.postOnce .unlandedLogDrain)) ∧
    (∀ r rest, s.logs.overflow = r :: rest → s.logs.unlanded = [] → s.logGate 5 (logPage (s.csrOf 0x17)) 16 8191 r.toNat = none →
      (∀ u, s.appendLog (logPage (s.csrOf 0x17)) 16 8191 r.toNat = .ok u → ∃ t, exec .overflowLogDrain s = .next t ∧ t.last = .done ∧
        t.logs.overflow = rest ∧ t.mem = u.mem ∧ t.sc = u.sc) ∧
      (∀ e, s.appendLog (logPage (s.csrOf 0x17)) 16 8191 r.toNat = .error e → ∃ t, exec .overflowLogDrain s = .next t ∧ t.last = .done ∧ t.logs.overflow = [] ∧
        (t.csrOf 0x17).getLsbD 62 = false ∧ (t.csrOf 0x17).getLsbD 63 = true ∧ t.mem = s.mem ∧ t.sc = s.sc)) ∧
    (∀ r rest, s.logs.unlanded = r :: rest → s.logGate 6 (logPage (s.csrOf 0x18)) 32 2047 r.toNat = none →
      (∀ u, s.appendLog (logPage (s.csrOf 0x18)) 32 2047 r.toNat = .ok u → ∃ t, exec .unlandedLogDrain s = .next t ∧ t.last = .done ∧
        t.logs.unlanded = rest ∧ t.mem = u.mem ∧ t.sc = u.sc) ∧
      (∀ e, s.appendLog (logPage (s.csrOf 0x18)) 32 2047 r.toNat = .error e → ∃ t, exec .unlandedLogDrain s = .next t ∧ t.last = .done ∧ t.logs.unlanded = [] ∧
        (t.csrOf 0x18).getLsbD 62 = false ∧ (t.csrOf 0x18).getLsbD 63 = true ∧ t.mem = s.mem ∧ t.sc = s.sc)) ∧
    (let d := s.input.die.toNat
     let a := dieCfg s.input.die 0x10
     let page := fld (s.cfgOf a) 0 43 * 2 ^ 17
     (mget s.logs.memUnlanded [] d = [] → Completes .mwulogDrain s s) ∧
     ∀ r rest, mget s.logs.memUnlanded [] d = r :: rest →
      (∀ u, s.appendRecord true page 32 2047 r.toNat = some u → ∃ t, exec .mwulogDrain s = .next t ∧ t.last = .done ∧
        mget t.logs.memUnlanded [] d = rest ∧ t.mem = u.mem ∧ t.sc = s.sc) ∧
      (s.appendRecord true page 32 2047 r.toNat = none → ∃ t, exec .mwulogDrain s = .next t ∧ t.last = .done ∧
        mget t.logs.memUnlanded [] d = [] ∧ (t.cfgOf a).getLsbD 62 = false ∧ (t.cfgOf a).getLsbD 63 = true ∧ t.mem = s.mem))

/-- Tasks are selected, bound, started, committed, saved and named by registers (19_tasks_and_scheduling.md R333, R336, R337,
R338, R340, 09_execution_model.md R162, R171, R178, R183, 20_traps_faults_and_preemption.md R364, R367). A selection round
completes; it takes note whether the other cores of the die hold tasks, puts the priorities that were waiting into effect, leaves
the bound task alone, and makes a binding due where it chooses. A chosen stage without queues is bound with its sequencers at
their addresses, in user mode and its world; they begin, those with code running, once a record that lies outside the package has
come. When every sequencer has reached its swap the phase commits, once the next record has come, or, where its record finds a
mismatch, is rerun. A save that is ready takes the lowest free frame and unbinds the task; one that is not waits. RESUME marks the
parked task it names, PREQ and DHALT set bits, DHALT not for a secure task unless the secure supervisor writes. Choices of the
model that this rests on: log entries 6, 26, 35 and 49. -/
def Obligations.TaskEvents : Prop :=
    ∀ s : State,
    (s.pkg.stopped = true → Completes .selectionRound s { s with disp := { s.disp with others := s.input.flag } }) ∧
    (s.pkg.stopped = false → ∃ t, exec .selectionRound s = .next t ∧ t.last = .done ∧ t.disp.others = s.input.flag ∧ t.task.bound = s.task.bound ∧ t.seqs = s.seqs ∧ t.sc = s.sc ∧
      (s.disp.submitted = [] → ∀ l ∈ t.disp.launches, l.newPrio = none) ∧
      (s.disp.chosen = none → t.disp.chosen ≠ none → s.task.bound = false ∧ Pending.mk .bindTask {} ∈ t.agenda)) ∧
    (s.disp.chosen = none → Completes .bindTask s s) ∧
    (∀ c l, s.disp.chosen = some c → s.task.bound = false → s.pkg.stopped = false → c.parked = none → s.launchOf c.launch = some l →
      let e := l.stage c.stage
      stInq e = 15 → stOutq e = 15 → ∃ t, exec .bindTask s = .next t ∧ t.last = .done ∧ t.task.bound = true ∧ t.task.starting = true ∧ t.disp.chosen = none ∧
        t.pcOf .load = stLoad e ∧ t.pcOf .compute = stCompute e ∧ t.pcOf .store = stStore e ∧ t.pcOf .control = stCtrl e ∧ t.secure = l.secure ∧
        t.taskSecure = l.secure ∧ t.sup = false ∧
        t.taskLaunch = l.number % 65536 ∧ t.taskStage = c.stage % 8 ∧ t.asid = l.asid ∧ Pending.mk .taskStart {} ∈ t.agenda) ∧
    (∀ c i p, s.disp.chosen = some c → s.task.bound = false → s.pkg.stopped = false → c.parked = some i → s.disp.parked[i]? = some p →
      Completes .bindTask s (({ s with disp := { s.disp with chosen := none } }).bindParked i p c.prio c.round)) ∧
    (s.task.starting = false → Completes .taskStart s s) ∧
    (let g := if s.pcOf .compute = 0 ∧ s.compat = false then s.gate 4 s.asid s.taskSecure false .read s.phtBase 32 0 else none
     (∀ u, s.task.starting = true → g = some u → Completes .taskStart s (u.postOnce .taskStart)) ∧
     (s.task.starting = true → g = none → ∃ t, exec .taskStart s = .next t ∧ t.last = .done ∧ t.task.starting = false ∧ (t.seqOf .control).run = true ∧
      (∀ q, q ≠ .control → (t.seqOf q).run = decide (s.pcOf q ≠ 0)) ∧ (∀ q, t.pcOf q = s.pcOf q) ∧ t.phase.first = true ∧ t.phase.reached = 0 ∧ t.sc = s.sc)) ∧
    ((s.task.bound = false ∨ s.allReached = false ∨ s.phase.reached = 0 ∨ s.inh = true ∨ s.disp.saving.isSome = true) → Completes .swapRendezvous s s) ∧
    (s.task.bound = true → s.allReached = true → s.phase.reached ≠ 0 → s.inh = false → s.disp.saving = none →
      (∀ c, s.phaseCheck = some c → Completes .swapRendezvous s (s.rerun c .compute (s.pcOf .compute) 0 0)) ∧
      let g := if s.compat then none else s.recordGate (if s.phase.reached.getLsbD 1 then s.nextPc .compute else s.pcOf .compute)
      (∀ u, s.phaseCheck = none → g = some u → Completes .swapRendezvous s (u.postOnce .swapRendezvous)) ∧
      (s.phaseCheck = none → g = none → ∃ t, exec .swapRendezvous s = .next t ∧ t.last = .done ∧ t.phase.reached = 0 ∧ t.phase.first = true ∧ t.sc = s.sc ∧ t.csrOf 0xD = 0)) ∧
    (s.disp.saving = none → Completes .taskSave s s) ∧
    (∀ why full, s.disp.saving = some (why, full) →
      ((s.saveReady = false ∨ s.freeFrame s.taskSecure = none) → Completes .taskSave s s) ∧
      ∀ n, s.saveReady = true → s.freeFrame s.taskSecure = some n → ∃ t p, exec .taskSave s = .next t ∧ t.last = .done ∧ t.task.bound = false ∧
        (∀ q, (t.seqOf q).run = false) ∧ t.disp.parked = s.disp.parked ++ [p] ∧ p.launch = s.taskLaunch ∧ p.stage = s.taskStage ∧ p.act = s.taskAct ∧
        p.why = why ∧ p.frame = n ∧ p.full = full) ∧
    (∃ t, exec .resumeWrite s = .next t ∧ t.last = .done ∧ t.mem = s.mem ∧ t.sc = s.sc ∧
      t.disp.parked = s.disp.parked.map (fun p => if p.launch = fld s.input.v 40 16 ∧ p.stage = fld s.input.v 37 3 ∧ p.act = fld s.input.v 0 32 ∧
        (p.why = .fault ∨ p.why = .halt) then { p with resumed := true } else p)) ∧
    Completes .preqWrite s (s.setCfg (dieCfg s.input.die 0x18) (s.cfgOf (dieCfg s.input.die 0x18) ||| s.input.v)) ∧
    (∃ t, exec .dhaltWrite s = .next t ∧ t.last = .done ∧ ∀ c : BitVec 6, (t.cfgOf (dieCfg s.input.die 0x30)).getLsbD c.toNat =
      ((s.cfgOf (dieCfg s.input.die 0x30)).getLsbD c.toNat || (s.input.v.getLsbD c.toNat &&
        !(s.input.die == s.die && c == s.core && s.task.bound && s.taskSecure && !s.input.flag))))

/-- Asynchronous causes, the watchdog, freezes and uncorrectable errors: what their events do (20_traps_faults_and_preemption.md
R350, R359, R360, R361, 04_scratchpad_and_rings.md R87, R88, 09_execution_model.md R182). Outside a handler, of the held causes
the one of the lowest code is raised at its boundary. WATCHDOG is held when WDCNT stands above 1,048,576. A corrected error
completes: 24 frozen cycles follow and it is counted. When a freeze ends, CORRECTABLE_STORM is held where more than 64 began
within 4,000,000 ticks. An uncorrectable error completes: a cache entry is dropped; poison is set where data is damaged, and the
phase is rerun where it may be, else the error recorded; templates and wharf state contain the task; metadata stops the package.
Choices of the model that this rests on: log entries 41, 42, 73 and 77. -/
def Obligations.ErrorEvents : Prop :=
    ∀ s : State,
    ((s.inh = true ∨ s.task.bound = false ∨ s.trap.pend = []) → Completes .asyncCause s s) ∧
    (∀ a, s.inh = false → s.task.bound = true → a ∈ s.trap.pend → (∀ b ∈ s.trap.pend, b ≠ a → a.cause.code.toNat < b.cause.code.toNat) →
      let u : State := { s with trap := { s.trap with pend := s.trap.pend.erase a } }
      Completes .asyncCause s (u.arise ⟨a.cause, a.seq, a.pc.getD (s.pcOf a.seq), true, a.tvalue, a.addr,
        if a.cause = .poison then some (fld a.addr 0 22) else none⟩)) ∧
    (s.task.bound = true → s.compat = false → 1048576 < fld (s.csrOf 0xD) 0 21 → Completes .watchdogExpiry s (s.async ⟨.watchdog, .control, 0, 0, none⟩)) ∧
    ((s.task.bound = false ∨ s.compat = true ∨ fld (s.csrOf 0xD) 0 21 ≤ 1048576) → Completes .watchdogExpiry s s) ∧
    (∃ t, exec .correctableFreeze s = .next t ∧ t.last = .done ∧ t.trap.frozen = s.trap.frozen + 24 ∧
      t.trap.freezes = (w64 (s.clk.toNat + s.trap.frozen), if s.task.bound then some s.task.id else none) :: s.trap.freezes ∧
      fld (t.csrOf 0xE) 32 32 = min (fld (s.csrOf 0xE) 32 32 + 1) (2 ^ 32 - 1) ∧ fld (t.csrOf 0xE) 20 4 = s.input.n % 16 ∧ t.sc = s.sc ∧ t.mem = s.mem) ∧
    (s.trap.frozen % 24 ≠ 1 → Completes .freezeEnd s s) ∧
    (s.trap.frozen % 24 = 1 →
      let storm := 64 < (s.trap.freezes.filter (fun x => beganWithin s.input.v.toNat x.1)).length ∧ s.task.bound = true
      ∃ t, exec .freezeEnd s = .next t ∧ t.last = .done ∧ t.trap.frozen = s.trap.frozen - 1 ∧ t.sc = s.sc ∧ t.mem = s.mem ∧
        (storm → t.trap.pend = s.trap.pend ++ [⟨.correctableStorm, .control, 0, 0, none⟩]) ∧ (¬ storm → t.trap.pend = s.trap.pend)) ∧
    (s.input.site = .cache → s.input.flag = false → Completes .uncorrectableError s (s.setTlb (s.mu.tlb.eraseIdx s.input.n))) ∧
    (s.input.site = .cache → s.input.flag = true → ∃ t, exec .uncorrectableError s = .next t ∧ t.last = .done ∧ mget t.mu.lines [] s.input.n = [] ∧
      t.sc = s.sc ∧ t.mem = s.mem) ∧
    (∀ c, s.input.site = .memory c → let u := s.setGranule c { s.granule c with poison := true }
      ((s.input.flag && s.task.bound) = true → Completes .uncorrectableError s u.recordError) ∧
      ((s.input.flag && s.task.bound) = false → Completes .uncorrectableError s (u.faultRecord true .recorded .uncorrectable 0 0 0 .control 0 0))) ∧
    (∀ g, s.input.site = .scratch g → let u : State := { s with scr := { s.scr with poison := mset s.scr.poison false g.toNat true } }
      (∀ n, s.frontHalf (s.bankOf (g.toNat / 1024)) = some n → u.mayRerun = true → (u.refetchList n).complete = true →
        Completes .uncorrectableError s ((u.rerun .uncorrectable .compute (u.pcOf .compute) 0 0).refetch n)) ∧
      ((∀ n, s.frontHalf (s.bankOf (g.toNat / 1024)) = some n → u.mayRerun = false ∨ (u.refetchList n).complete = false) →
        Completes .uncorrectableError s u.recordError)) ∧
    (∀ d, s.input.site = .metadata d → Completes .uncorrectableError s (s.containedStop .uncorrectable d)) ∧
    ((s.input.site = .template ∨ s.input.site = .wharf) → (s.task.bound = false → Completes .uncorrectableError s s) ∧
      (s.task.bound = true → Completes .uncorrectableError s (s.containTask .uncorrectable 0 0 (s.pcOf .control) .control))) ∧
    ∀ x, s.input.site = x → (∃ r l, x = .vreg r l) ∨ (∃ r, x = .mask r) ∨ (∃ r l, x = .dreg r l) ∨ (∃ r i, x = .acc r i) ∨ (∃ k, x = .ringdesc k) ∨
        x = .queue ∨ (∃ q, x = .portImage q) →
      let u := s.damage x
      (u.mayRerun = true → Completes .uncorrectableError s (u.rerun .uncorrectable .compute (u.pcOf .compute) 0 0)) ∧
      (u.mayRerun = false → Completes .uncorrectableError s u.recordError) ∧
      (∀ r l, x = .vreg r l → vlane (mget u.vec.file.v [] r.toNat) l.toNat = .poisonFp) ∧
      (∀ r l, x = .dreg r l → (mget u.vec.file.d .zero r.toNat).norm l.toNat = normPoison) ∧ (∀ r i, x = .acc r i → u.accElem r.toNat i.toNat = 0x7FFFFFFF)

/-- Lost dies and links, exhausted replays and heat stop the package; leave is granted or times out, and the arithmetic clock
moves by a step (20_traps_faults_and_preemption.md R365, 27_power_and_bring_up.md R404, R405, R406). A contained stop, a lost die
or link, an exhausted replay, and a die that has stood too hot at its lowest clock for 4,000,000 ticks complete: the package is
stopped, no task is bound, nothing is due but what the host or another chip asks, and CSTOP names the cause and the die. The
governor grants the first request that fits beside the grants held, and none when the first does not fit; where the own one has
waited 40,000,000 ticks LEAVE_TIMEOUT is raised. A throttle step completes: the arithmetic clock moves by one step between 10 and
33. Choices of the model that this rests on: log entries 6 and 9. -/
def Obligations.StopAndLeaveEvents : Prop :=
    ∀ s : State,
    let stops (e : Instr) (c : Cause) : Prop := ∃ t, exec e s = .next t ∧ t.last = .done ∧ t.pkg.stopped = true ∧ t.task.bound = false ∧
      (∀ p, p ∈ t.agenda ↔ p ∈ s.agenda ∧ p.asked = true) ∧ t.pkg.fabric = [] ∧
      t.cfgOf 0x20 = put (put (put (0 : Word64) 63 1 1) 8 2 s.input.die.toNat) 0 6 c.code.toNat
    (∀ e c, (e, c) ∈ [(Instr.linkLost, Cause.linkLost), (.dieLost, .dieLost), (.replayExhausted, .replayExhausted), (.containedStop, s.input.cause.getD .machineCheck)] →
      stops e c) ∧
    (let d := s.input.die
     let a := dieCfg d 0x28
     let f := fld (s.cfgOf a) 0 6
     let heat (b : Bool) : State := ({ s with pkg := { s.pkg with hot := mset s.pkg.hot false d.toNat b } } : State).noteHeat d
     let u := if s.input.flag then heat true else if s.input.flag2 then heat false else s
     (u.heatLate d = true → stops .thermalStop .thermalStop) ∧ (u.heatLate d = false → Completes .thermalStop s u) ∧
     (10 ≤ f → f ≤ 33 → ∃ t, exec .throttleStep s = .next t ∧ t.last = .done ∧
      fld (t.cfgOf a) 0 6 = (if s.input.flag then max 10 (f - 1) else min 33 (f + 1)) ∧ t.sc = s.sc ∧ t.mem = s.mem)) ∧
    (let n := s.input.n % 64
     let gone : State := { s with pkg := { s.pkg with leaves := mset s.pkg.leaves 0 n 0, leaveQueue := s.pkg.leaveQueue.filter (fun x => x.core != n) } }
     let u : State := if n = s.core.toNat then s
       else if s.input.flag then { gone with pkg := { gone.pkg with leaveQueue := placeAsk ⟨s.clk.toNat, n, s.input.v.toNat⟩ gone.pkg.leaveQueue } }
       else if s.input.flag2 then gone
       else s
     Completes .leaveGrant s (u.grantLeaves u.leaveAsks) ∧ (u.leaveAsks = [] → Completes .leaveGrant s u) ∧
     (∀ x l, u.leaveAsks = x :: l → u.leaveFits x = false → Completes .leaveGrant s u) ∧
     ∀ x l, u.leaveAsks = x :: l → u.leaveFits x = true → (∀ y ∈ l, y.core ≠ x.core) → ∃ t, exec .leaveGrant s = .next t ∧ t.last = .done ∧
       mget t.pkg.leaves 0 x.core = x.watts ∧ (∀ y ∈ t.pkg.leaveQueue, y.core ≠ x.core) ∧ (x.core = s.core.toNat → t.phase.granted = true)) ∧
    (s.leaveLate = false → Completes .leaveTimeout s s) ∧
    (s.leaveLate = true → let s1 := { s with phase := { s.phase with asked := none } }
      exec .leaveTimeout s = .next { s1.take .leaveTimeout .compute (s.pcOf .compute) false 0 0 with last := .raised .leaveTimeout 0 0 })

/-- Ticks, synchronisation and resets: what their events do (07_architected_clock.md R124, R126, 06_rings_dies_and_interleave.md
R111, 19_tasks_and_scheduling.md R336, 27_power_and_bring_up.md R400, R402, R403, R407, 26_security_and_host.md R397). A tick
completes: every die's counter is one more once CLKINIT is written, the rings turn by a cycle, and every sixteenth tick makes a
selection round due. With the clock running, a synchronisation message within 78 ticks sixteen times in a row locks the clock, one
beyond unlocks it and is counted, as is a loss. A reset leaves the reset state with the fuses and judges the image that it is
given, and PKGRST, with its bit and its code, the image that is held; without power nothing else remains. The first write of
CLKINIT starts every counter at its value. Choices of the model that this rests on: log entries 7, 8, 39 and 40. -/
def Obligations.ClockAndResetEvents : Prop :=
    ∀ s : State,
    (∃ t, exec .clockTick s = .next t ∧ t.last = .done ∧ (∀ d : BitVec 2, t.clkOf d = if s.pkg.clkRuns then s.clkOf d + 1 else s.clkOf d) ∧
      t.pkg.cycles = s.pkg.cycles + 1 ∧ (t.clk.toNat % 16 = 0 → Pending.mk .selectionRound { flag := s.disp.others } ∈ t.agenda) ∧
      t.sc = s.sc ∧ t.seqs = s.seqs ∧ (s.mu.storeQ = [] → t.mem = s.mem ∧ t.csr = s.csr)) ∧
    (s.pkg.clkRuns = false → Completes .syncMessage s s) ∧
    (s.pkg.clkRuns = true → ∃ t, exec .syncMessage s = .next t ∧ t.last = .done ∧ t.sc = s.sc ∧ t.mem = s.mem ∧
      (78 < s.input.v.toNat → t.locked = false ∧ t.pkg.ptpGood = 0 ∧
        fld (t.cfgOf 0x10) 0 32 = (if s.locked then min (fld (s.cfgOf 0x10) 0 32 + 1) (2 ^ 32 - 1) else fld (s.cfgOf 0x10) 0 32)) ∧
      (s.input.v.toNat ≤ 78 → fld (t.cfgOf 0x10) 0 32 = fld (s.cfgOf 0x10) 0 32 ∧ t.pkg.ptpGood = min (s.pkg.ptpGood + 1) 16 ∧ t.locked = (s.locked || decide (15 ≤ s.pkg.ptpGood)))) ∧
    (∃ t, exec .lockLoss s = .next t ∧ t.last = .done ∧ t.locked = false ∧
      fld (t.cfgOf 0x10) 0 32 = (if s.locked then min (fld (s.cfgOf 0x10) 0 32 + 1) (2 ^ 32 - 1) else fld (s.cfgOf 0x10) 0 32)) ∧
    (let fresh (t : State) : Prop := t.mem = State.reset.mem ∧ t.sc = State.reset.sc ∧ t.csr = [] ∧ t.seqs = State.reset.seqs ∧ t.task.bound = false ∧
        t.pkg.cfg = [] ∧ t.pkg.clk = [] ∧ t.pkg.clkRuns = false ∧ t.pkg.stopped = false ∧ t.pkg.regions = [] ∧ t.pkg.fused = s.pkg.fused ∧ t.pkg.upper = s.pkg.upper
     (∃ t, exec .reset s = .next t ∧ t.last = .done ∧ fresh t ∧ t.pkg.powered = true ∧
       t.pkg.image = ⟨BitVec.ofNat 512 s.input.data, s.input.v, !s.input.flag⟩ ∧
       t.pkg.firmware = (!s.input.flag && decide (s.pkg.secVersion.toNat ≤ s.input.v.toNat)) ∧ s.pkg.secVersion.toNat ≤ t.pkg.secVersion.toNat) ∧
     (s.input.v.getLsbD 63 = true → fld s.input.v 0 8 = 0xA5 → s.pkg.powered = true → ∃ t, exec .pkgrstWrite s = .next t ∧ t.last = .done ∧ fresh t ∧
       t.pkg.image = s.pkg.image ∧ t.pkg.firmware = (s.pkg.image.signed && decide (s.pkg.secVersion.toNat ≤ s.pkg.image.version.toNat))) ∧
     ((s.input.v.getLsbD 63 = false ∨ fld s.input.v 0 8 ≠ 0xA5 ∨ s.pkg.powered = false) → Completes .pkgrstWrite s s) ∧
     ∃ t, exec .powerRemoved s = .next t ∧ t.last = .done ∧ fresh t ∧ t.pkg.powered = false ∧ t.pkg.firmware = false) ∧
    (s.pkg.clkRuns = true → Completes .clkinitWrite s s) ∧
    (s.pkg.clkRuns = false → ∃ t, exec .clkinitWrite s = .next t ∧ t.last = .done ∧ t.pkg.clkRuns = true ∧ ∀ d : BitVec 2, t.clkOf d = s.input.v)

/-- A register write that is performed writes its fields or raises its cause; a waiting bank format takes effect when its bank is
free (00_scope.md R10, 01_address_spaces.md R13, 03_number_formats.md R61, R64, 04_scratchpad_and_rings.md R77, R81, R82,
05_landing_maps.md R108, 09_execution_model.md R172). The event of a register write completes with the state that the write gives,
or raises the cause that refuses it; the event of a CFGDATA read writes its register. A valid BANKFMT write to a bank that nothing
references, a DBUF write with V = 0, a BOEXP write whose tag is not pending, and a ring descriptor with V = 0 written in
supervisor mode leave their fields in the register, and the BOEXP write arms its object. TAGS clears the tags written 1, but for
those that complete in its cycle. A waiting BANKFMT write takes effect once nothing references its bank. Choices of the model that
this rests on: log entry 40. -/
def Obligations.RegisterWriteEvents : Prop :=
    ∀ s : State,
    let n := s.input.n
    let v := s.input.v
    let writes (e : Instr) (r : Except Cause State) : Prop := (∀ c, r = .error c → Raises e .control s c 0 0) ∧ ∀ t, r = .ok t → Completes e s t
    writes .bankfmtWrite (s.writeBankfmt (n % 64) v) ∧ writes .dbufWrite (s.writeDbuf (n % 8) v) ∧ writes .boexpWrite (s.writeBoexp (n % 16) v) ∧
    writes .registerWrite (s.csrWrite (n % 4096) v) ∧ writes .cfgdataWrite (s.csrWrite 0x1E v) ∧
    writes .ringdescWrite (if s.sup then s.writeRing (n % 16) v else .error .privilege) ∧
    writes .cfgdataRead (match s.csrRead 0x1E with
      | .error c => .error c
      | .ok x => .ok (s.setG (BitVec.ofNat 5 n) x)) ∧
    (let set (e : Instr) (a : Nat) (x : Word64) : Prop := ∃ t, exec e s = .next t ∧ t.last = .done ∧ t.csrOf a = x ∧ t.sc = s.sc ∧ t.mem = s.mem
     (n % 64 < s.nbank → fmtKnown (fld v 0 5) = true → fld v 8 2 ≠ 3 → s.formatBusy (n % 64) = false →
       set .bankfmtWrite (0x40 + n % 64) (v &&& fieldMask [(16, 3), (10, 6), (8, 2), (0, 5)])) ∧
     (v.getLsbD 0 = false → set .dbufWrite (0x90 + n % 8) (putBit (v &&& fieldMask [(10, 6), (7, 3), (0, 1)]) 16 ((s.dbuf (n % 8)).getLsbD 16))) ∧
     (s.tagPending (fld v 48 6) = false → set .boexpWrite (0xA0 + n % 16) (v &&& fieldMask [(48, 6), (0, 48)]) ∧
       (fld v 0 48 ≠ 0 → set .boexpWrite (0xB0 + n % 16) (putBit 0 63 true))) ∧
     (v.getLsbD 0 = false → s.sup = true → set .ringdescWrite (0x80 + n % 16) (putBit (put v 2 5 0) 1 false)) ∧
     (n % 4096 = 0x14 → set .registerWrite 0x14 (v &&& 7))) ∧
    (s.scr.fmtPend = [] → Completes .bankfmtEffect s s) ∧
    (∀ w, s.scr.fmtPend = [w] → (s.formatBusy w.bank = true → Completes .bankfmtEffect s s) ∧
      (s.formatBusy w.bank = false → ∃ t, exec .bankfmtEffect s = .next t ∧ t.last = .done ∧ t.csrOf (0x40 + w.bank) = w.value ∧ t.scr.fmtPend = [] ∧
        t.sc = s.sc ∧ t.mem = s.mem)) ∧
    ∃ t, exec .tagsWrite s = .next t ∧ t.last = .done ∧ t.tags = s.tags &&& ~~~(s.input.v &&& ~~~s.cycle.tags) ∧ (∀ k, k ≠ 0x19 → t.csrOf k = s.csrOf k) ∧ t.sc = s.sc ∧ t.mem = s.mem

/-- Interleave flips, table switches, page moves and checkpoints: what their events do (06_rings_dies_and_interleave.md R113,
R119, R120, 25_large_models_across_devices.md R380, R381, R382, R384). FLIP makes the other interleave version current and BUSY
until old requests are drained; a staged table that is due takes effect. A move ends with its result where its leaf cannot be
read, is not a present leaf, is checked or sealed, or is pinned in place; the granules of a frame outside the package are asked
for first. Then the frame is copied, and the move ends where another agent changed its leaf meanwhile; else it completes: its leaf
names the new frame, no cached leaf names the old one, and the move retires when nothing bound to the frame is unperformed. A
checkpoint sends its regions and ends once they are answered, marked where no group carries it or a write of it was refused, each
command clearing GO. Choices of the model that this rests on: log entries 49 and 50. -/
def Obligations.TableAndPageEvents : Prop :=
    ∀ s : State,
    ((s.cfgOf 0x38).getLsbD 2 = true → Completes .ilvFlip s s) ∧
    ((s.cfgOf 0x38).getLsbD 2 = false → ∃ t, exec .ilvFlip s = .next t ∧ t.last = .done ∧ t.ilvCur = !s.ilvCur ∧ (t.cfgOf 0x38).getLsbD 2 = true ∧
      t.pkg.oldRequests = s.input.n ∧ t.mem = s.mem) ∧
    (∃ t, exec .ilvDrained s = .next t ∧ t.last = .done ∧ t.ilvCur = s.ilvCur ∧ t.pkg.oldRequests = 0 ∧
      ({ s with pkg := { s.pkg with oldRequests := 0 } }.oldOwn = 0 → (t.cfgOf 0x38).getLsbD 2 = false)) ∧
    (s.tableDue s.input.die = false → Completes .tdmSwitch s s) ∧
    (s.tableDue s.input.die = true → ∀ a v, s.stagedOf s.input.die = [(a, some v)] → ∃ t, exec .tdmSwitch s = .next t ∧ t.last = .done ∧ t.cfgOf a = v ∧
      (∀ b, b ≠ a → t.cfgOf b = s.cfgOf b) ∧ t.stagedOf s.input.die = []) ∧
    (let asked := if s.input.flag2 then s.pkg.moveAsks else none
     let cmd := (asked.map (fun x => x.1)).getD s.input.v
     let pa := fld cmd 0 35 * 16
     let dst := if asked = none then s.cfgOf 0x90 else s.running 0x90
     let u : State := { s with pkg := { s.pkg with moveAsks := none } }
     (∀ c, u.readTable pa 16 = .error c → Completes .migcmdGo s (u.moveEnds 3 (some c))) ∧
     ∀ x, u.readTable pa 16 = .ok x →
      let e := (asked.map (fun y => y.2.2)).getD (BitVec.ofNat 128 x)
      let now := fld s.clk 24 24
      let old := decide (fld e 13 3 = 0 ∨ 3 ≤ (now + 2 ^ 24 - fld e 38 24) % 2 ^ 24)
      let n := if old then 0 else fld e 13 3
      let new := movedLeaf e dst (n + 1) (if old then now else fld e 38 24)
      let lost := s.input.flag = true ∨ x ≠ e.toNat
      let leaf := e.getLsbD 0 = true ∧ e.getLsbD 1 = true ∧ e.getLsbD 2 = true
      let barred := fld dst 40 2 = 2 ∨ leafChk e = true ∨ leafSeal e = true
      let placed (l : BitVec 128) : Prop := s.target l ≠ 0 ∨ (s.cellOf s.ilvCur (leafFrame l * 2 ^ 17)).isSome = true
      (leafFrame new = fld dst 0 40 ∧ leafTarget new = fld dst 40 2 ∧ (leafChip new).toNat = fld dst 42 10 ∧ leafKey new = fld dst 52 10) ∧
      (¬ leaf → Completes .migcmdGo s (u.moveEnds 3 (some .notMapped))) ∧
      (leaf → barred → Completes .migcmdGo s (u.moveEnds 3 (some .fieldRange))) ∧
      (leaf → ¬ barred → e.getLsbD 10 = true → Completes .migcmdGo s (u.moveEnds 2 none)) ∧
      (leaf → ¬ barred → e.getLsbD 10 = false →
        (n = 4 → lost → Completes .migcmdGo s (u.moveEnds 4 none)) ∧
        (n = 4 → ¬ lost → Completes .migcmdGo s ((u.writeTable pa 16 (putBit e 10 true).toNat).moveEnds 1 none)) ∧
        (n ≠ 4 → ¬ (placed e ∧ placed new) → Completes .migcmdGo s (u.moveEnds 3 (some .notMapped))) ∧
        (n ≠ 4 → placed e → placed new → s.target e ≠ 0 → asked = none → Completes .migcmdGo s (u.askFrame cmd e)) ∧
        (n ≠ 4 → placed e → placed new → (s.target e = 0 ∨ asked ≠ none) → let c := u.copyFrame e new s.input.image
          (lost → Completes .migcmdGo s (c.moveEnds 4 none)) ∧
          (¬ lost → ∃ t, exec .migcmdGo s = .next t ∧ t.last = .done ∧ t.pkg.moving = some new ∧ t.mem = (c.writeTable pa 16 new.toNat).mem ∧
            (∀ r ∈ t.mu.tlb, sameFrame r.leaf e = false) ∧ (∀ y ∈ t.layout, ∀ l ∈ y.2.leaves, sameFrame l.leaf e = false) ∧
            Pending.mk .migrationRetire {} ∈ t.agenda ∧ t.sc = s.sc)))) ∧
    (s.pkg.moving = none → Completes .migrationRetire s s) ∧
    (∀ l, s.pkg.moving = some l → (s.moveBusy l = true → Completes .migrationRetire s s) ∧
      (s.moveBusy l = false → ∃ t, exec .migrationRetire s = .next t ∧ t.last = .done ∧ t.pkg.moving = none ∧ (t.cfgOf 0x88).getLsbD 63 = false ∧
        fld (t.cfgOf 0x88) 60 3 = 0 ∧ t.mem = s.mem)) ∧
    (∃ t, exec .ckctlGo s = .next t ∧ t.last = .done ∧ t.mem = s.mem ∧ t.sc = s.sc ∧ Pending.mk .checkpointEnd {} ∈ t.agenda ∧ t.pkg.ckRefused = none ∧
      (s.checkpointGroups ≠ [] → t.pkg.fabric.length = s.pkg.fabric.length + s.markedRegions.length)) ∧
    (let busy := s.checkpointGroups ≠ [] ∧ s.pkg.fabric.any (fun f => f.what == .image) = true
     (busy → Completes .checkpointEnd s (s.post .checkpointEnd)) ∧
     (¬ busy → ∃ t, exec .checkpointEnd s = .next t ∧ t.last = .done ∧ (t.cfgOf 0x98).getLsbD 63 = false ∧
       (let c := if s.checkpointGroups = [] then some Cause.windowClosed else s.pkg.ckRefused
        (t.cfgOf 0x98).getLsbD 62 = c.isSome ∧ fld (t.cfgOf 0x98) 56 6 = ((c.map (fun x => x.code.toNat)).getD 0)) ∧ t.mem = s.mem))

/-- A SerDes group drains, retrains, takes its keys and is up, falls to half rate on replays, and switches its link key on
schedule (23_fabric_and_personalities.md R370, R371, R372, R373, R383). GO of SGCTL completes: a group that is down or up drains
with the fields of the write, full width and no replays; in another step nothing changes. A drain that may end, nothing bound,
completes: the group trains, or stays down with PERS off. The end of a training without a failed lane keeps its lanes and goes to
the keys; their end brings the group up with its next key, or down. Replays are counted; above 1,024 within 4,000,000 ticks the
group retrains at half rate. A key switch is scheduled once and far enough ahead; at its time the sender changes phase, and the
old key goes when its window ends or the first flit under the new set comes. Choices of the model that this rests on: log entry
48. -/
def Obligations.LinkEvents : Prop :=
    ∀ s : State,
    let n := s.input.n % 16
    let g := s.serdes n
    ((s.sgStep n = 0 ∨ s.sgStep n = 6) → ∃ t, exec .sgctlGo s = .next t ∧ t.last = .done ∧ t.sgStep n = 2 ∧ (t.serdes n).ctl = s.input.v ∧
      (t.serdes n).drainEnd = some (s.clk.toNat + 400000) ∧ (t.serdes n).lanes = 0xFF ∧ fld (t.sgstat n) 48 16 = 0) ∧
    (s.sgStep n ≠ 0 → s.sgStep n ≠ 6 → Completes .sgctlGo s s) ∧
    (s.drainDue n = false → Completes .groupDrainEnd s s) ∧
    (s.drainDue n = true → s.boundTo n = [] → ∃ t, exec .groupDrainEnd s = .next t ∧ t.last = .done ∧
      t.sgStep n = (if fld g.ctl 0 2 = 0 then 0 else 4) ∧ t.sgCur n = fld g.ctl 0 2) ∧
    (s.sgStep n ≠ 4 → Completes .groupRetrainEnd s s) ∧
    (s.sgStep n = 4 → fld s.input.w 0 8 = 0 → 0 < g.lanes → g.lanes < 256 → ∃ t, exec .groupRetrainEnd s = .next t ∧ t.last = .done ∧ t.sgStep n = 5 ∧
      fld (t.sgstat n) 40 8 = g.lanes ∧ (t.sgstat n).getLsbD 32 = ((s.sgstat n).getLsbD 32 || decide (fld s.input.v 0 8 ≠ 0))) ∧
    (s.sgStep n = 4 → ∃ t, exec .groupRetrainEnd s = .next t ∧ t.last = .done ∧ (t.sgStep n = 0 ∨ t.sgStep n = 5)) ∧
    (s.sgStep n ≠ 5 → Completes .groupRekeyEnd s s) ∧
    (s.sgStep n = 5 → ∃ t, exec .groupRekeyEnd s = .next t ∧ t.last = .done ∧ t.sgStep n = (if s.input.flag then 0 else 6) ∧
      (s.input.flag = false → (t.serdes n).key = s.nextKey n)) ∧
    (s.sgStep n ≠ 6 → Completes .groupRateFall s s) ∧
    (s.sgStep n = 6 →
      let recent := s.input.v.toNat + ((g.replays.filter (fun x => s.clk.toNat < x.1 + 4000000)).map (fun x => x.2)).sum
      ∃ t, exec .groupRateFall s = .next t ∧ t.last = .done ∧ fld (t.sgstat n) 48 16 = min (fld (s.sgstat n) 48 16 + s.input.v.toNat) 65535 ∧
        (recent ≤ 1024 → t.sgStep n = 6) ∧ (1024 < recent → t.sgStep n = 4 ∧ (t.sgstat n).getLsbD 32 = true ∧ fld (t.sgstat n) 40 8 = 0)) ∧
    ((s.keyPend n = true ∨ s.input.v.toNat < s.clk.toNat + 2 * s.keyWindow n) → Completes .keySwitchSchedule s s) ∧
    (s.keyPend n = false → s.clk.toNat + 2 * s.keyWindow n ≤ s.input.v.toNat → ∃ t, exec .keySwitchSchedule s = .next t ∧ t.last = .done ∧
      t.keyPend n = true ∧ t.keyTime n = s.input.v.toNat) ∧
    (s.phaseDue n = false → Completes .keyPhaseSwitch s s) ∧
    (s.phaseDue n = true → ∃ t, exec .keyPhaseSwitch s = .next t ∧ t.last = .done ∧ (t.serdes n).txPhase = !g.txPhase ∧ (t.serdes n).oldSet = (s.sgCur n == 1)) ∧
    (s.eraseDue n = false → Completes .oldKeyErase s s) ∧
    (s.eraseDue n = true → ∃ t, exec .oldKeyErase s = .next t ∧ t.last = .done ∧ (t.serdes n).key = s.nextKey n ∧ t.keyPhase n = !s.keyPhase n ∧ t.keyPend n = false) ∧
    (g.oldSet = false → Completes .firstFlitUnderNewSet s s) ∧
    (g.oldSet = true → ∃ t, exec .firstFlitUnderNewSet s = .next t ∧ t.last = .done ∧ (t.serdes n).oldSet = false ∧ t.keyPhase n = !s.keyPhase n ∧
      t.keyPend n = false)

/-- Requests that stall or go unanswered are refused, and a packet of a peer is refused, discarded or handed to its wharf
(23_fabric_and_personalities.md R374, R378, R379, 20_traps_faults_and_preemption.md R365). Without requests the two timeouts
complete and change nothing. One that has had its FABTO ticks is refused with FABRIC_TIMEOUT, a pool access that has stalled
400,000 ticks with WINDOW_CLOSED. A packet of a peer completes: with the package stopped or the window closed it is refused; a
chip or a world that is not admitted is answered as discarded; else it is handed to the wharf it names. Choices of the model that
this rests on: log entries 48 and 49. -/
def Obligations.WindowEvents : Prop :=
    ∀ s : State,
    (s.pkg.fabric = [] → Completes .windowStallTimeout s s ∧ Completes .fabricTimeout s s) ∧
    (∀ f, s.pkg.fabric.find? s.fabricDue = some f → Completes .fabricTimeout s (s.refuseFabric f .fabricTimeout)) ∧
    (∀ f, s.pkg.fabric = [f] → s.fabricDue f = true → f.what = .image → ∃ t, exec .fabricTimeout s = .next t ∧ t.last = .done ∧ t.pkg.fabric = []) ∧
    (∀ f, ∀ x ∈ (s.settle f).pkg.fabric, x.id ≠ f.id) ∧
    (∀ f, s.rebindStalled.pkg.fabric.find? (fun f => f.pool && f.group.isNone && f.sent + 400000 ≤ s.rebindStalled.clk.toNat) = some f →
      Completes .windowStallTimeout s (s.rebindStalled.refuseFabric f .windowClosed)) ∧
    (s.input.packet = none → Completes .peerWindowPacket s s) ∧
    ∀ p, s.input.packet = some p →
      let admitted := (s.cfgOf (0x100 + 8 * (p.chip.toNat / 64))).getLsbD (p.chip.toNat % 64) && (s.cfgOf 0x80).getLsbD (if p.world then 2 else 1)
      (s.pkg.stopped = true → Completes .peerWindowPacket s (s.emit (.refusal p.chip p.die p.stn p.opid .containedStop))) ∧
      (s.pkg.stopped = false → (s.cfgOf 0x80).getLsbD 0 = false → Completes .peerWindowPacket s (s.emit (.refusal p.chip p.die p.stn p.opid .windowClosed))) ∧
      (s.pkg.stopped = false → (s.cfgOf 0x80).getLsbD 0 = true →
        (admitted = false → ∃ t, exec .peerWindowPacket s = .next t ∧ t.last = .done ∧ t.outbox = .answer p.chip p.die p.stn p.opid true :: s.outbox ∧
          t.mem = s.mem ∧ t.sc = s.sc) ∧
        (admitted = true → Completes .peerWindowPacket s (s.deliver { p with skind := 2 } s.chip s.input.die s.input.flag (BitVec.ofNat 6 s.input.n)) ∧
          (s.input.flag = true → Pending.mk .packetHeader { wharf := .mem s.input.die, packet := some { p with skind := 2 } } ∈
            (s.deliver { p with skind := 2 } s.chip s.input.die true (BitVec.ofNat 6 s.input.n)).agenda)))

/-- Worlds of regions, key slots, measurement, assignment and the host port: what their events do (26_security_and_host.md R388,
R389, R391, R392, R393, R394, R397, R398, R399, 19_tasks_and_scheduling.md R333). A region changes its world once nothing admitted
to it is unperformed, and a change to the non-secure world leaves every byte of it zero. A key slot takes its key with the next
epoch, or is erased. An SPDM request for a measurement is answered with the digest of the block, a challenge with that of the
certificates, each with a signature; sessions are opened and established, and a secured message gives a stream its key. An
interface is locked, started and stopped in its order. A host request is ignored without accepted firmware, refused in ERROR,
sends a running interface to ERROR from outside its stream, else reaches its configuration or its register. A write of LQCMD takes
its fields; with GO while its queue is open and not busy, the descriptor is read, checked and submitted, or its cause stands in
LQSTAT. Choices of the model that this rests on: log entries 19, 31, 47, 50 and 79. -/
def Obligations.SecurityAndHostEvents : Prop :=
    ∀ s : State,
    Completes .rwcmdGo s (s.post .regionWorldApply) ∧
    (s.regionDue = false → Completes .regionWorldApply s s) ∧
    (s.regionDue = true → ∃ t, exec .regionWorldApply s = .next t ∧ t.last = .done ∧
      mget t.pkg.regions true s.changingRegion = (s.running 0xB0).getLsbD 62 ∧ (∀ r, r ≠ s.changingRegion → mget t.pkg.regions true r = mget s.pkg.regions true r) ∧
      (t.cfgOf 0xB0).getLsbD 63 = false ∧ t.sc = s.sc ∧
      (((s.running 0xB0).getLsbD 62 = false ∨ (s.running 0xB0).getLsbD 61 = true) → ∀ c, s.cellOf s.ilvCur (s.changingRegion * 2 ^ 21) = some c →
        ∀ x, (x / 2 ^ 21 = c / 2 ^ 21 → t.cell x = 0) ∧ (x / 2 ^ 21 ≠ c / 2 ^ 21 → t.cell x = s.cell x))) ∧
    (∀ e erase, (e, erase) ∈ [(Instr.keyLoad, false), (.keyErase, true)] →
      ((s.slotDue = false ∨ (s.running 0xB8).getLsbD 62 ≠ erase) → Completes e s s) ∧
      (s.slotDue = true → (s.running 0xB8).getLsbD 62 = erase → ∃ t, exec e s = .next t ∧ t.last = .done ∧
        mget t.pkg.slotKeys 0 s.changingSlot = (if erase then 0 else s.stagedKey) ∧ (t.ksctl s.changingSlot).getLsbD 63 = !erase ∧
        fld (t.ksctl s.changingSlot) 56 6 = (if erase then fld (s.ksctl s.changingSlot) 56 6 else (fld (s.ksctl s.changingSlot) 56 6 + 1) % 64) ∧
        t.stagedKey = 0 ∧ (t.cfgOf 0xB8).getLsbD 63 = false ∧ t.mem = s.mem)) ∧
    (let kind := s.input.w.toNat
     let certs := s.pkg.attest.identityCert ++ s.pkg.attest.aliasCert
     let signs (body : List Word64) : Prop := ∃ t l, exec .spdmMessage s = .next t ∧ t.last = .done ∧ t.outbox = .doe (body ++ l) :: s.outbox ∧
       t.mem = s.mem ∧ t.pkg = s.pkg
     (kind = 0 → signs (words512 (digest (s.measured s.input.n)))) ∧ (kind = 1 → signs (words512 (digest certs))) ∧
     (kind = 2 → Completes .spdmMessage s (s.emit (.doe certs))) ∧
     (kind = 3 → ∃ t x, exec .spdmMessage s = .next t ∧ t.last = .done ∧ t.pkg = { s.pkg with session := some ⟨x, false⟩ }) ∧
     (kind = 4 → ∃ t, exec .spdmMessage s = .next t ∧ t.last = .done ∧
       t.pkg = { s.pkg with session := s.pkg.session.map (fun x => { x with finished := true }) }) ∧
     (4 < kind → s.inSession = false → Completes .spdmMessage s (s.emit (.doe []))) ∧
     (kind = 6 → s.inSession = true → ∃ t, exec .spdmMessage s = .next t ∧ t.last = .done ∧
       mget t.pkg.ideKeys none (s.input.n % 4) = some (BitVec.ofNat 512 s.input.data) ∧ t.pkg.session = s.pkg.session)) ∧
    (let f := s.input.n % 16
     (((s.tdi f).state = 0 → Completes .lockInterface s (s.setTdi f ⟨1, s.input.v.toNat % 4, false⟩)) ∧ ((s.tdi f).state ≠ 0 → Completes .lockInterface s s)) ∧
     (((s.tdi f).state = 1 → Completes .startInterface s (s.setTdi f { s.tdi f with state := 2 })) ∧ ((s.tdi f).state ≠ 1 → Completes .startInterface s s)) ∧
     (∃ t, exec .stopInterface s = .next t ∧ t.last = .done ∧ (t.tdi f).state = 0 ∧ ∀ g, g ≠ f → t.tdi g = s.tdi g) ∧
     (s.pkg.firmware = false → Completes .hostRequest s s) ∧
     (s.pkg.firmware = true →
       ((s.tdi f).state = 3 → Completes .hostRequest s (s.emit (.hostRefused .assignmentLock))) ∧
       ((s.tdi f).state = 2 → s.inStream f s.input.w = false → Completes .hostRequest s (s.tdiError f)) ∧
       (((s.tdi f).state < 2 ∨ ((s.tdi f).state = 2 ∧ s.inStream f s.input.w = true)) →
         Completes .hostRequest s (if s.input.flag2 then s.pciAccess f s.input.addr.toNat s.input.flag s.input.v
           else s.hostAccess f s.input.addr.toNat s.input.flag s.input.v)))) ∧
    (let q := s.input.n % 64
     let f := s.input.w.toNat % 16
     let v := s.input.v
     let a := 0x1000 + 32 * q
     let kept := if f = 0 then fld v 32 11 else fld (s.cfgOf (a + 8)) 32 11
     let u := s.setCfg (a + 8) (put (put (0 : Word64) 0 8 (fld v 0 8)) 32 11 kept)
     let asid := BitVec.ofNat 11 (if f = 0 then kept else s.vfAsid f)
     let va : Addr := ((u.cfgOf (a + 8)).setWidth 8 : BitVec 8) ++ u.cfgOf a
     (s.input.flag = true → s.submitting q = false → Completes .lqcmdGo s s) ∧
     (s.input.flag = true → s.submitting q = true → Completes .lqcmdGo s (s.submitHost q s.input.asid)) ∧
     (s.input.flag = false → (v.getLsbD 63 = false ∨ s.submitting q = true ∨ s.queuesOpen = false) → Completes .lqcmdGo s u) ∧
     (s.input.flag = false → v.getLsbD 63 = true → s.submitting q = false → s.queuesOpen = true →
       (∀ c tv, u.descriptor asid = .error (c, tv) → Completes .lqcmdGo s (u.setLqstat q false false (some c) none)) ∧
       ∀ d, u.descriptor asid = .ok d →
         (∀ t, u.launchGate (8 + q) asid (d.getLsbD 1) true va = some t →
           Completes .lqcmdGo s ((t.setLqstat q true false none none).postOnce .lqcmdGo { n := q, flag := true, asid := asid })) ∧
         (u.launchGate (8 + q) asid (d.getLsbD 1) true va = none →
           (∀ c tv fa, u.checkLaunch asid (d.getLsbD 1) true true (d.getLsbD 1) va q = .error (c, tv, fa) →
             Completes .lqcmdGo s ((u.doneHw (8 + q)).setLqstat q false false (some c) none)) ∧
           ∀ u1 l, u.checkLaunch asid (d.getLsbD 1) true true (d.getLsbD 1) va q = .ok (u1, l) →
             Completes .lqcmdGo s ((u1.enterSubmitted q l).doneHw (8 + q)))))
end

