-- ==== Sys2Proof/Laws/Decode.lean ====
section
/-! SUPPORT. Bit fields of concatenations, with which decoding an encoded word computes. -/
namespace Sys2Proof

/-- A field that lies in the upper part of a concatenation. -/
theorem bits_append_hi {v w : Nat} (x : BitVec v) (y : BitVec w) (lo n : Nat) (h : w ≤ lo) :
    bits (v := no_index (v + w)) (x ++ y) lo n = bits x (lo - w) n := by
  ext i hi
  simp only [bits, BitVec.getElem_extractLsb', BitVec.getLsbD_append]
  have h1 : ¬ (lo + i < w) := by omega
  simp only [h1, ↓reduceIte]
  congr 1; omega

/-- A field that lies in the lower part of a concatenation. -/
theorem bits_append_lo {v w : Nat} (x : BitVec v) (y : BitVec w) (lo n : Nat) (h : lo + n ≤ w) :
    bits (v := no_index (v + w)) (x ++ y) lo n = bits y lo n := by
  ext i hi
  simp only [bits, BitVec.getElem_extractLsb', BitVec.getLsbD_append]
  have h1 : lo + i < w := by omega
  simp only [h1, ↓reduceIte]

/-- The field that is the whole word. -/
theorem bits_self {w : Nat} (x : BitVec w) : bits x 0 w = x := by
  ext i hi; simp [bits]

end Sys2Proof
end

