-- ==== Sys2Proof/Laws/Map.lean ====
section
/-! SUPPORT. Sparse maps: reading after writing, and the canonical form. -/
namespace Sys2Proof

theorem mget_minsert {α : Type} (m : SMap α) (d v : α) (k j : Nat) :
    mget (minsert m k v) d j = if j = k then v else mget m d j := by
  induction m with
  | nil => simp only [minsert, mget]; by_cases h : k = j <;> simp [h, eq_comm]
  | cons x r ih =>
    obtain ⟨a, y⟩ := x
    simp only [minsert]
    split
    · rename_i h
      simp only [mget]
      by_cases hk : k = j
      · simp [hk]
      · simp [hk, eq_comm (a := j)]
    · split
      · rename_i h1 h2
        subst h2
        simp only [mget]
        by_cases hk : k = j
        · simp [hk]
        · simp [hk, eq_comm (a := j)]
      · rename_i h1 h2
        simp only [mget, ih]
        by_cases ha : a = j
        · subst ha
          have : ¬ a = k := fun h => h2 h.symm
          simp [this]
        · simp [ha]

theorem mget_merase {α : Type} (m : SMap α) (d : α) (k j : Nat) :
    mget (merase m k) d j = if j = k then d else mget m d j := by
  induction m with
  | nil => simp [merase, mget]
  | cons x r ih =>
    obtain ⟨a, y⟩ := x
    simp only [merase]
    split
    · rename_i h
      subst h
      simp only [mget, ih]
      by_cases hj : j = a
      · simp [hj]
      · simp [hj, eq_comm (a := a)]
    · rename_i h
      simp only [mget, ih]
      by_cases ha : a = j
      · subst ha; simp [h]
      · simp [ha]

/-- Reading a map after one key was written. -/
theorem mget_mset {α : Type} [DecidableEq α] (m : SMap α) (d v : α) (k j : Nat) :
    mget (mset m d k v) d j = if j = k then v else mget m d j := by
  unfold mset
  split
  · rename_i h; rw [mget_merase, h]
  · exact mget_minsert m d v k j

@[simp] theorem mget_mset_same {α : Type} [DecidableEq α] (m : SMap α) (d v : α) (k : Nat) :
    mget (mset m d k v) d k = v := by simp [mget_mset]

theorem mget_mset_other {α : Type} [DecidableEq α] (m : SMap α) (d v : α) {k j : Nat} (h : j ≠ k) :
    mget (mset m d k v) d j = mget m d j := by simp [mget_mset, h]

/-- Reading another key than the one written, whatever stands for an unlisted key. -/
theorem mget_mset_ne {α : Type} [DecidableEq α] (m : SMap α) (d e v : α) {k j : Nat} (h : j ≠ k) :
    mget (mset m d k v) e j = mget m e j := by
  unfold mset
  split
  · simp [mget_merase, h]
  · simp [mget_minsert, h]

theorem mwfFrom_weaken {α : Type} [DecidableEq α] {d : α} {lo lo' : Nat} {m : SMap α} (h : lo' ≤ lo)
    (hm : mwfFrom d lo m = true) : mwfFrom d lo' m = true := by
  cases m with
  | nil => rfl
  | cons x r =>
    obtain ⟨a, y⟩ := x
    simp only [mwfFrom, Bool.and_eq_true, decide_eq_true_eq] at hm ⊢
    exact ⟨⟨by omega, hm.1.2⟩, hm.2⟩

theorem mwfFrom_minsert {α : Type} [DecidableEq α] {d v : α} (hv : v ≠ d) (m : SMap α) (lo k : Nat) (hk : lo ≤ k)
    (hm : mwfFrom d lo m = true) : mwfFrom d lo (minsert m k v) = true := by
  induction m generalizing lo with
  | nil => simp [minsert, mwfFrom, hk, hv]
  | cons x r ih =>
    obtain ⟨a, y⟩ := x
    simp only [mwfFrom, Bool.and_eq_true, decide_eq_true_eq] at hm
    simp only [minsert]
    split
    · simp only [mwfFrom, Bool.and_eq_true, decide_eq_true_eq]
      exact ⟨⟨hk, hv⟩, ⟨by omega, hm.1.2⟩, hm.2⟩
    · split
      · rename_i h1 h2
        subst h2
        simp only [mwfFrom, Bool.and_eq_true, decide_eq_true_eq]
        exact ⟨⟨hk, hv⟩, hm.2⟩
      · simp only [mwfFrom, Bool.and_eq_true, decide_eq_true_eq]
        exact ⟨hm.1, ih (a + 1) (by omega) hm.2⟩

theorem mwfFrom_merase {α : Type} [DecidableEq α] {d : α} (m : SMap α) (lo k : Nat) (hm : mwfFrom d lo m = true) :
    mwfFrom d lo (merase m k) = true := by
  induction m generalizing lo with
  | nil => rfl
  | cons x r ih =>
    obtain ⟨a, y⟩ := x
    simp only [mwfFrom, Bool.and_eq_true, decide_eq_true_eq] at hm
    simp only [merase]
    split
    · exact mwfFrom_weaken (by omega) (ih (a + 1) hm.2)
    · simp only [mwfFrom, Bool.and_eq_true, decide_eq_true_eq]
      exact ⟨hm.1, ih (a + 1) hm.2⟩

/-- Writing a key keeps the canonical form. -/
theorem mwf_mset {α : Type} [DecidableEq α] {d : α} {m : SMap α} (k : Nat) (v : α) (hm : mwf d m = true) :
    mwf d (mset m d k v) = true := by
  unfold mset mwf at *
  split
  · exact mwfFrom_merase m 0 k hm
  · rename_i h; exact mwfFrom_minsert h m 0 k (by omega) hm

/-- Leaving entries out keeps the canonical form. -/
theorem mwfFrom_filter {α : Type} [DecidableEq α] {d : α} (f : Nat × α → Bool) (m : SMap α) (lo : Nat)
    (hm : mwfFrom d lo m = true) : mwfFrom d lo (m.filter f) = true := by
  induction m generalizing lo with
  | nil => rfl
  | cons x r ih =>
    obtain ⟨a, y⟩ := x
    simp only [mwfFrom, Bool.and_eq_true, decide_eq_true_eq] at hm
    simp only [List.filter]
    split
    · simp only [mwfFrom, Bool.and_eq_true, decide_eq_true_eq]
      exact ⟨hm.1, ih (a + 1) hm.2⟩
    · exact mwfFrom_weaken (by omega) (ih (a + 1) hm.2)

/-- Two maps in canonical form that read alike are equal. -/
theorem mget_of_lt {α : Type} [DecidableEq α] {d : α} {m : SMap α} {lo k : Nat} (hm : mwfFrom d lo m = true) (h : k < lo) :
    mget m d k = d := by
  induction m generalizing lo with
  | nil => rfl
  | cons x r ih =>
    obtain ⟨a, y⟩ := x
    simp only [mwfFrom, Bool.and_eq_true, decide_eq_true_eq] at hm
    have : ¬ a = k := by omega
    simp only [mget, this, ↓reduceIte]
    exact ih hm.2 (by omega)

end Sys2Proof
end

