-- ==== Sys2Proof/Laws/Memory.lean ====
section
/-! SUPPORT. Memory: reading after writing, and that every operation on memory keeps its canonical form. -/
namespace Sys2Proof.Machine

theorem mwf_putBytes {m : SMap Byte} (hm : mwf 0 m = true) (a n v : Nat) : mwf 0 (putBytes m a n v) = true := by
  induction n generalizing m a v with
  | zero => exact hm
  | succ n ih => exact ih (mwf_mset a _ hm) (a + 1) (v / 256)

/-- A byte outside the bytes written reads as before. -/
theorem mget_putBytes_other (m : SMap Byte) (a n v c : Nat) (h : c < a ∨ a + n ≤ c) :
    mget (putBytes m a n v) 0 c = mget m 0 c := by
  induction n generalizing m a v with
  | zero => rfl
  | succ n ih =>
    rw [putBytes, ih _ _ _ (by omega), mget_mset_other]
    omega

/-- Byte `i` of the bytes written. -/
theorem mget_putBytes_same (m : SMap Byte) (a n v i : Nat) (h : i < n) :
    mget (putBytes m a n v) 0 (a + i) = BitVec.ofNat 8 (v / 256 ^ i) := by
  induction n generalizing m a v i with
  | zero => omega
  | succ n ih =>
    rw [putBytes]
    cases i with
    | zero => rw [mget_putBytes_other _ _ _ _ _ (by omega)]; simp
    | succ i =>
      have : a + (i + 1) = a + 1 + i := by omega
      rw [this, ih _ _ _ _ (by omega), Nat.div_div_eq_div_mul, Nat.pow_succ, Nat.mul_comm 256]

theorem reset_mem_wf : State.reset.mem.wf = true := by decide

theorem setGranule_wf (s : State) (c : Nat) (g : Granule) : (s.setGranule c g).mem.wf = s.mem.wf := rfl

theorem foldl_wf {β : Type} (f : State → β → State) (hf : ∀ s x, s.mem.wf = true → (f s x).mem.wf = true) (l : List β)
    (s : State) (h : s.mem.wf = true) : (l.foldl f s).mem.wf = true := by
  induction l generalizing s with
  | nil => exact h
  | cons x r ih => exact ih _ (hf s x h)

theorem takeGranule_wf {s : State} (h : s.mem.wf = true) (c : Nat) (o : BitVec 10 × BitVec 6) :
    (s.takeGranule c o).mem.wf = true := by
  have hz := mwf_putBytes (m := s.mem.bytes) h (c / 64 * 64) 64 0
  generalize hb : putBytes s.mem.bytes (c / 64 * 64) 64 0 = b at hz
  unfold State.takeGranule
  dsimp only
  rw [setGranule_wf, hb]
  split
  · exact hz
  · split
    · exact h
    · refine foldl_wf _ ?_ _ _ h
      intro s i hs
      exact mwf_mset (m := s.mem.bytes) _ _ hs

theorem dropLine_wf {s : State} (h : s.mem.wf = true) (n : Nat) : (s.dropLine n).mem.wf = true := h

theorem writeCell_wf {s : State} (h : s.mem.wf = true) (c n v : Nat) (o : BitVec 10 × BitVec 6) :
    (s.writeCell c n v o).mem.wf = true := by
  unfold State.writeCell
  dsimp only
  split
  · exact mwf_putBytes (takeGranule_wf (dropLine_wf h _) c o) _ _ _
  · exact mwf_putBytes (takeGranule_wf (dropLine_wf h _) c o) _ _ _

theorem writeHome_wf {s t : State} {b : Bound} {pa n v : Nat} (h : s.mem.wf = true) (e : s.writeHome b pa n v = .ok t) :
    t.mem.wf = true := by
  unfold State.writeHome at e
  split at e
  · cases e
  · split at e
    · cases e
    · cases e; exact writeCell_wf h _ _ _ _

theorem writeTable_wf {s : State} (h : s.mem.wf = true) (pa n v : Nat) : (s.writeTable pa n v).mem.wf = true := by
  unfold State.writeTable State.writeTableAt
  split
  · exact h
  · exact mwf_putBytes h _ _ _

theorem setClaims_wf (s : State) (l : List Claim) : (s.setClaims l).mem.wf = s.mem.wf := rfl

theorem framePut_wf {s : State} (h : s.mem.wf = true) (key pa n v : Nat) : (s.framePut key pa n v).mem.wf = true := by
  unfold State.framePut
  split
  · exact h
  · exact writeCell_wf h _ _ _ _

theorem putGranule_wf {s : State} (h : s.mem.wf = true) (c v : Nat) (g : Granule) : (s.putGranule c v g).mem.wf = true :=
  mwf_putBytes (m := s.mem.bytes) h c 64 v

theorem scrubRegion_wf {s : State} (h : s.mem.wf = true) (n : Nat) : (s.scrubRegion n).mem.wf = true := by
  unfold State.scrubRegion
  split
  · exact h
  · exact mwfFrom_filter _ s.mem.bytes 0 h

theorem appendRecord_wf {s t : State} {secure : Bool} {page size cap r : Nat} (h : s.mem.wf = true)
    (e : s.appendRecord secure page size cap r = some t) : t.mem.wf = true := by
  unfold State.appendRecord at e
  split at e
  · cases e
  · dsimp only at e
    split at e
    · cases e
    · cases e; exact writeTable_wf (writeTable_wf h _ _ _) _ _ _

/-- A byte of a cell that a write of other cells of its granule, or of another granule, leaves: its granule has the writer's owner. -/
theorem cell_writeCell_other {s : State} {c n v x : Nat} {o : BitVec 10 × BitVec 6} (ho : (s.granule c).owner = some o)
    (h : x < c ∨ c + n ≤ x) : (s.writeCell c n v o).cell x = s.cell x := by
  have ht : ((s.dropLine (c / 64)).takeGranule c o).mem.bytes = s.mem.bytes := by
    have ho' : ((s.dropLine (c / 64)).granule c).owner = some o := ho
    unfold State.takeGranule; simp only [ho']; rfl
  unfold State.writeCell State.cell
  dsimp only
  split
  · show mget (putBytes ((s.dropLine (c / 64)).takeGranule c o).mem.bytes c n v) 0 x = _
    rw [mget_putBytes_other _ _ _ _ _ h, ht]
  · show mget (putBytes ((s.dropLine (c / 64)).takeGranule c o).mem.bytes c n v) 0 x = _
    rw [mget_putBytes_other _ _ _ _ _ h, ht]

/-- A byte that a write writes. -/
theorem cell_writeCell_same (s : State) (c n v i : Nat) (o : BitVec 10 × BitVec 6) (h : i < n) :
    (s.writeCell c n v o).cell (c + i) = BitVec.ofNat 8 (v / 256 ^ i) := by
  unfold State.writeCell State.cell
  dsimp only
  split
  · exact mget_putBytes_same _ _ _ _ _ h
  · exact mget_putBytes_same _ _ _ _ _ h

end Sys2Proof.Machine
end

