-- ==== Sys2Proof/Laws/State.lean ====
section
/-! SUPPORT. What each update of the state leaves as it was: one lemma for each field. -/
namespace Sys2Proof.Machine

@[simp] theorem setSeq_turn (s : State) (q : Seq) (r : SeqRegs) : (s.setSeq q r).turn = s.turn := rfl
@[simp] theorem setSeq_last (s : State) (q : Seq) (r : SeqRegs) : (s.setSeq q r).last = s.last := rfl
@[simp] theorem setSeq_input (s : State) (q : Seq) (r : SeqRegs) : (s.setSeq q r).input = s.input := rfl
@[simp] theorem setSeq_agenda (s : State) (q : Seq) (r : SeqRegs) : (s.setSeq q r).agenda = s.agenda := rfl
@[simp] theorem setSeq_outbox (s : State) (q : Seq) (r : SeqRegs) : (s.setSeq q r).outbox = s.outbox := rfl
@[simp] theorem setSeq_draws (s : State) (q : Seq) (r : SeqRegs) : (s.setSeq q r).draws = s.draws := rfl
@[simp] theorem setSeq_die (s : State) (q : Seq) (r : SeqRegs) : (s.setSeq q r).die = s.die := rfl
@[simp] theorem setSeq_core (s : State) (q : Seq) (r : SeqRegs) : (s.setSeq q r).core = s.core := rfl
@[simp] theorem setSeq_sc (s : State) (q : Seq) (r : SeqRegs) : (s.setSeq q r).sc = s.sc := rfl
@[simp] theorem setSeq_csr (s : State) (q : Seq) (r : SeqRegs) : (s.setSeq q r).csr = s.csr := rfl
@[simp] theorem setSeq_q (s : State) (q : Seq) (r : SeqRegs) : (s.setSeq q r).q = s.q := rfl
@[simp] theorem setSeq_cycle (s : State) (q : Seq) (r : SeqRegs) : (s.setSeq q r).cycle = s.cycle := rfl
@[simp] theorem setSeq_mu (s : State) (q : Seq) (r : SeqRegs) : (s.setSeq q r).mu = s.mu := rfl
@[simp] theorem setSeq_mem (s : State) (q : Seq) (r : SeqRegs) : (s.setSeq q r).mem = s.mem := rfl
@[simp] theorem setSeq_layout (s : State) (q : Seq) (r : SeqRegs) : (s.setSeq q r).layout = s.layout := rfl
@[simp] theorem setSeq_scr (s : State) (q : Seq) (r : SeqRegs) : (s.setSeq q r).scr = s.scr := rfl
@[simp] theorem setSeq_vec (s : State) (q : Seq) (r : SeqRegs) : (s.setSeq q r).vec = s.vec := rfl
@[simp] theorem setSeq_mat (s : State) (q : Seq) (r : SeqRegs) : (s.setSeq q r).mat = s.mat := rfl
@[simp] theorem setSeq_eng (s : State) (q : Seq) (r : SeqRegs) : (s.setSeq q r).eng = s.eng := rfl
@[simp] theorem setSeq_logs (s : State) (q : Seq) (r : SeqRegs) : (s.setSeq q r).logs = s.logs := rfl
@[simp] theorem setSeq_trap (s : State) (q : Seq) (r : SeqRegs) : (s.setSeq q r).trap = s.trap := rfl
@[simp] theorem setSeq_phase (s : State) (q : Seq) (r : SeqRegs) : (s.setSeq q r).phase = s.phase := rfl
@[simp] theorem setSeq_task (s : State) (q : Seq) (r : SeqRegs) : (s.setSeq q r).task = s.task := rfl
@[simp] theorem setSeq_wharves (s : State) (q : Seq) (r : SeqRegs) : (s.setSeq q r).wharves = s.wharves := rfl
@[simp] theorem setSeq_disp (s : State) (q : Seq) (r : SeqRegs) : (s.setSeq q r).disp = s.disp := rfl
@[simp] theorem setSeq_pkg (s : State) (q : Seq) (r : SeqRegs) : (s.setSeq q r).pkg = s.pkg := rfl

@[simp] theorem setPc_turn (s : State) (q : Seq) (a : Addr) : (s.setPc q a).turn = s.turn := rfl
@[simp] theorem setPc_last (s : State) (q : Seq) (a : Addr) : (s.setPc q a).last = s.last := rfl
@[simp] theorem setPc_input (s : State) (q : Seq) (a : Addr) : (s.setPc q a).input = s.input := rfl
@[simp] theorem setPc_agenda (s : State) (q : Seq) (a : Addr) : (s.setPc q a).agenda = s.agenda := rfl
@[simp] theorem setPc_outbox (s : State) (q : Seq) (a : Addr) : (s.setPc q a).outbox = s.outbox := rfl
@[simp] theorem setPc_draws (s : State) (q : Seq) (a : Addr) : (s.setPc q a).draws = s.draws := rfl
@[simp] theorem setPc_die (s : State) (q : Seq) (a : Addr) : (s.setPc q a).die = s.die := rfl
@[simp] theorem setPc_core (s : State) (q : Seq) (a : Addr) : (s.setPc q a).core = s.core := rfl
@[simp] theorem setPc_sc (s : State) (q : Seq) (a : Addr) : (s.setPc q a).sc = s.sc := rfl
@[simp] theorem setPc_csr (s : State) (q : Seq) (a : Addr) : (s.setPc q a).csr = s.csr := rfl
@[simp] theorem setPc_q (s : State) (q : Seq) (a : Addr) : (s.setPc q a).q = s.q := rfl
@[simp] theorem setPc_cycle (s : State) (q : Seq) (a : Addr) : (s.setPc q a).cycle = s.cycle := rfl
@[simp] theorem setPc_mu (s : State) (q : Seq) (a : Addr) : (s.setPc q a).mu = s.mu := rfl
@[simp] theorem setPc_mem (s : State) (q : Seq) (a : Addr) : (s.setPc q a).mem = s.mem := rfl
@[simp] theorem setPc_layout (s : State) (q : Seq) (a : Addr) : (s.setPc q a).layout = s.layout := rfl
@[simp] theorem setPc_scr (s : State) (q : Seq) (a : Addr) : (s.setPc q a).scr = s.scr := rfl
@[simp] theorem setPc_vec (s : State) (q : Seq) (a : Addr) : (s.setPc q a).vec = s.vec := rfl
@[simp] theorem setPc_mat (s : State) (q : Seq) (a : Addr) : (s.setPc q a).mat = s.mat := rfl
@[simp] theorem setPc_eng (s : State) (q : Seq) (a : Addr) : (s.setPc q a).eng = s.eng := rfl
@[simp] theorem setPc_logs (s : State) (q : Seq) (a : Addr) : (s.setPc q a).logs = s.logs := rfl
@[simp] theorem setPc_trap (s : State) (q : Seq) (a : Addr) : (s.setPc q a).trap = s.trap := rfl
@[simp] theorem setPc_phase (s : State) (q : Seq) (a : Addr) : (s.setPc q a).phase = s.phase := rfl
@[simp] theorem setPc_task (s : State) (q : Seq) (a : Addr) : (s.setPc q a).task = s.task := rfl
@[simp] theorem setPc_wharves (s : State) (q : Seq) (a : Addr) : (s.setPc q a).wharves = s.wharves := rfl
@[simp] theorem setPc_disp (s : State) (q : Seq) (a : Addr) : (s.setPc q a).disp = s.disp := rfl
@[simp] theorem setPc_pkg (s : State) (q : Seq) (a : Addr) : (s.setPc q a).pkg = s.pkg := rfl

@[simp] theorem advance_turn (s : State) (q : Seq) : (s.advance q).turn = s.turn := rfl
@[simp] theorem advance_last (s : State) (q : Seq) : (s.advance q).last = s.last := rfl
@[simp] theorem advance_input (s : State) (q : Seq) : (s.advance q).input = s.input := rfl
@[simp] theorem advance_agenda (s : State) (q : Seq) : (s.advance q).agenda = s.agenda := rfl
@[simp] theorem advance_outbox (s : State) (q : Seq) : (s.advance q).outbox = s.outbox := rfl
@[simp] theorem advance_draws (s : State) (q : Seq) : (s.advance q).draws = s.draws := rfl
@[simp] theorem advance_die (s : State) (q : Seq) : (s.advance q).die = s.die := rfl
@[simp] theorem advance_core (s : State) (q : Seq) : (s.advance q).core = s.core := rfl
@[simp] theorem advance_sc (s : State) (q : Seq) : (s.advance q).sc = s.sc := rfl
@[simp] theorem advance_csr (s : State) (q : Seq) : (s.advance q).csr = s.csr := rfl
@[simp] theorem advance_q (s : State) (q : Seq) : (s.advance q).q = s.q := rfl
@[simp] theorem advance_cycle (s : State) (q : Seq) : (s.advance q).cycle = s.cycle := rfl
@[simp] theorem advance_mu (s : State) (q : Seq) : (s.advance q).mu = s.mu := rfl
@[simp] theorem advance_mem (s : State) (q : Seq) : (s.advance q).mem = s.mem := rfl
@[simp] theorem advance_layout (s : State) (q : Seq) : (s.advance q).layout = s.layout := rfl
@[simp] theorem advance_scr (s : State) (q : Seq) : (s.advance q).scr = s.scr := rfl
@[simp] theorem advance_vec (s : State) (q : Seq) : (s.advance q).vec = s.vec := rfl
@[simp] theorem advance_mat (s : State) (q : Seq) : (s.advance q).mat = s.mat := rfl
@[simp] theorem advance_eng (s : State) (q : Seq) : (s.advance q).eng = s.eng := rfl
@[simp] theorem advance_logs (s : State) (q : Seq) : (s.advance q).logs = s.logs := rfl
@[simp] theorem advance_trap (s : State) (q : Seq) : (s.advance q).trap = s.trap := rfl
@[simp] theorem advance_phase (s : State) (q : Seq) : (s.advance q).phase = s.phase := rfl
@[simp] theorem advance_task (s : State) (q : Seq) : (s.advance q).task = s.task := rfl
@[simp] theorem advance_wharves (s : State) (q : Seq) : (s.advance q).wharves = s.wharves := rfl
@[simp] theorem advance_disp (s : State) (q : Seq) : (s.advance q).disp = s.disp := rfl
@[simp] theorem advance_pkg (s : State) (q : Seq) : (s.advance q).pkg = s.pkg := rfl

@[simp] theorem setPred_turn (s : State) (q : Seq) (i : BitVec 4) (b : Bool) : (s.setPred q i b).turn = s.turn := by unfold State.setPred; split <;> rfl
@[simp] theorem setPred_last (s : State) (q : Seq) (i : BitVec 4) (b : Bool) : (s.setPred q i b).last = s.last := by unfold State.setPred; split <;> rfl
@[simp] theorem setPred_input (s : State) (q : Seq) (i : BitVec 4) (b : Bool) : (s.setPred q i b).input = s.input := by unfold State.setPred; split <;> rfl
@[simp] theorem setPred_agenda (s : State) (q : Seq) (i : BitVec 4) (b : Bool) : (s.setPred q i b).agenda = s.agenda := by unfold State.setPred; split <;> rfl
@[simp] theorem setPred_outbox (s : State) (q : Seq) (i : BitVec 4) (b : Bool) : (s.setPred q i b).outbox = s.outbox := by unfold State.setPred; split <;> rfl
@[simp] theorem setPred_draws (s : State) (q : Seq) (i : BitVec 4) (b : Bool) : (s.setPred q i b).draws = s.draws := by unfold State.setPred; split <;> rfl
@[simp] theorem setPred_die (s : State) (q : Seq) (i : BitVec 4) (b : Bool) : (s.setPred q i b).die = s.die := by unfold State.setPred; split <;> rfl
@[simp] theorem setPred_core (s : State) (q : Seq) (i : BitVec 4) (b : Bool) : (s.setPred q i b).core = s.core := by unfold State.setPred; split <;> rfl
@[simp] theorem setPred_sc (s : State) (q : Seq) (i : BitVec 4) (b : Bool) : (s.setPred q i b).sc = s.sc := by unfold State.setPred; split <;> rfl
@[simp] theorem setPred_csr (s : State) (q : Seq) (i : BitVec 4) (b : Bool) : (s.setPred q i b).csr = s.csr := by unfold State.setPred; split <;> rfl
@[simp] theorem setPred_q (s : State) (q : Seq) (i : BitVec 4) (b : Bool) : (s.setPred q i b).q = s.q := by unfold State.setPred; split <;> rfl
@[simp] theorem setPred_cycle (s : State) (q : Seq) (i : BitVec 4) (b : Bool) : (s.setPred q i b).cycle = s.cycle := by unfold State.setPred; split <;> rfl
@[simp] theorem setPred_mu (s : State) (q : Seq) (i : BitVec 4) (b : Bool) : (s.setPred q i b).mu = s.mu := by unfold State.setPred; split <;> rfl
@[simp] theorem setPred_mem (s : State) (q : Seq) (i : BitVec 4) (b : Bool) : (s.setPred q i b).mem = s.mem := by unfold State.setPred; split <;> rfl
@[simp] theorem setPred_layout (s : State) (q : Seq) (i : BitVec 4) (b : Bool) : (s.setPred q i b).layout = s.layout := by unfold State.setPred; split <;> rfl
@[simp] theorem setPred_scr (s : State) (q : Seq) (i : BitVec 4) (b : Bool) : (s.setPred q i b).scr = s.scr := by unfold State.setPred; split <;> rfl
@[simp] theorem setPred_vec (s : State) (q : Seq) (i : BitVec 4) (b : Bool) : (s.setPred q i b).vec = s.vec := by unfold State.setPred; split <;> rfl
@[simp] theorem setPred_mat (s : State) (q : Seq) (i : BitVec 4) (b : Bool) : (s.setPred q i b).mat = s.mat := by unfold State.setPred; split <;> rfl
@[simp] theorem setPred_eng (s : State) (q : Seq) (i : BitVec 4) (b : Bool) : (s.setPred q i b).eng = s.eng := by unfold State.setPred; split <;> rfl
@[simp] theorem setPred_logs (s : State) (q : Seq) (i : BitVec 4) (b : Bool) : (s.setPred q i b).logs = s.logs := by unfold State.setPred; split <;> rfl
@[simp] theorem setPred_trap (s : State) (q : Seq) (i : BitVec 4) (b : Bool) : (s.setPred q i b).trap = s.trap := by unfold State.setPred; split <;> rfl
@[simp] theorem setPred_phase (s : State) (q : Seq) (i : BitVec 4) (b : Bool) : (s.setPred q i b).phase = s.phase := by unfold State.setPred; split <;> rfl
@[simp] theorem setPred_task (s : State) (q : Seq) (i : BitVec 4) (b : Bool) : (s.setPred q i b).task = s.task := by unfold State.setPred; split <;> rfl
@[simp] theorem setPred_wharves (s : State) (q : Seq) (i : BitVec 4) (b : Bool) : (s.setPred q i b).wharves = s.wharves := by unfold State.setPred; split <;> rfl
@[simp] theorem setPred_disp (s : State) (q : Seq) (i : BitVec 4) (b : Bool) : (s.setPred q i b).disp = s.disp := by unfold State.setPred; split <;> rfl
@[simp] theorem setPred_pkg (s : State) (q : Seq) (i : BitVec 4) (b : Bool) : (s.setPred q i b).pkg = s.pkg := by unfold State.setPred; split <;> rfl

@[simp] theorem setLc_turn (s : State) (q : Seq) (i : BitVec 2) (c : LoopCounter) : (s.setLc q i c).turn = s.turn := rfl
@[simp] theorem setLc_last (s : State) (q : Seq) (i : BitVec 2) (c : LoopCounter) : (s.setLc q i c).last = s.last := rfl
@[simp] theorem setLc_input (s : State) (q : Seq) (i : BitVec 2) (c : LoopCounter) : (s.setLc q i c).input = s.input := rfl
@[simp] theorem setLc_agenda (s : State) (q : Seq) (i : BitVec 2) (c : LoopCounter) : (s.setLc q i c).agenda = s.agenda := rfl
@[simp] theorem setLc_outbox (s : State) (q : Seq) (i : BitVec 2) (c : LoopCounter) : (s.setLc q i c).outbox = s.outbox := rfl
@[simp] theorem setLc_draws (s : State) (q : Seq) (i : BitVec 2) (c : LoopCounter) : (s.setLc q i c).draws = s.draws := rfl
@[simp] theorem setLc_die (s : State) (q : Seq) (i : BitVec 2) (c : LoopCounter) : (s.setLc q i c).die = s.die := rfl
@[simp] theorem setLc_core (s : State) (q : Seq) (i : BitVec 2) (c : LoopCounter) : (s.setLc q i c).core = s.core := rfl
@[simp] theorem setLc_sc (s : State) (q : Seq) (i : BitVec 2) (c : LoopCounter) : (s.setLc q i c).sc = s.sc := rfl
@[simp] theorem setLc_csr (s : State) (q : Seq) (i : BitVec 2) (c : LoopCounter) : (s.setLc q i c).csr = s.csr := rfl
@[simp] theorem setLc_q (s : State) (q : Seq) (i : BitVec 2) (c : LoopCounter) : (s.setLc q i c).q = s.q := rfl
@[simp] theorem setLc_cycle (s : State) (q : Seq) (i : BitVec 2) (c : LoopCounter) : (s.setLc q i c).cycle = s.cycle := rfl
@[simp] theorem setLc_mu (s : State) (q : Seq) (i : BitVec 2) (c : LoopCounter) : (s.setLc q i c).mu = s.mu := rfl
@[simp] theorem setLc_mem (s : State) (q : Seq) (i : BitVec 2) (c : LoopCounter) : (s.setLc q i c).mem = s.mem := rfl
@[simp] theorem setLc_layout (s : State) (q : Seq) (i : BitVec 2) (c : LoopCounter) : (s.setLc q i c).layout = s.layout := rfl
@[simp] theorem setLc_scr (s : State) (q : Seq) (i : BitVec 2) (c : LoopCounter) : (s.setLc q i c).scr = s.scr := rfl
@[simp] theorem setLc_vec (s : State) (q : Seq) (i : BitVec 2) (c : LoopCounter) : (s.setLc q i c).vec = s.vec := rfl
@[simp] theorem setLc_mat (s : State) (q : Seq) (i : BitVec 2) (c : LoopCounter) : (s.setLc q i c).mat = s.mat := rfl
@[simp] theorem setLc_eng (s : State) (q : Seq) (i : BitVec 2) (c : LoopCounter) : (s.setLc q i c).eng = s.eng := rfl
@[simp] theorem setLc_logs (s : State) (q : Seq) (i : BitVec 2) (c : LoopCounter) : (s.setLc q i c).logs = s.logs := rfl
@[simp] theorem setLc_trap (s : State) (q : Seq) (i : BitVec 2) (c : LoopCounter) : (s.setLc q i c).trap = s.trap := rfl
@[simp] theorem setLc_phase (s : State) (q : Seq) (i : BitVec 2) (c : LoopCounter) : (s.setLc q i c).phase = s.phase := rfl
@[simp] theorem setLc_task (s : State) (q : Seq) (i : BitVec 2) (c : LoopCounter) : (s.setLc q i c).task = s.task := rfl
@[simp] theorem setLc_wharves (s : State) (q : Seq) (i : BitVec 2) (c : LoopCounter) : (s.setLc q i c).wharves = s.wharves := rfl
@[simp] theorem setLc_disp (s : State) (q : Seq) (i : BitVec 2) (c : LoopCounter) : (s.setLc q i c).disp = s.disp := rfl
@[simp] theorem setLc_pkg (s : State) (q : Seq) (i : BitVec 2) (c : LoopCounter) : (s.setLc q i c).pkg = s.pkg := rfl

@[simp] theorem loopSet_turn (s : State) (q : Seq) (i : BitVec 1) (c : BitVec 2) (n : Nat) (d : BitVec 3) : (s.loopSet q i c n d).turn = s.turn := by unfold State.loopSet; dsimp only; split <;> rfl
@[simp] theorem loopSet_last (s : State) (q : Seq) (i : BitVec 1) (c : BitVec 2) (n : Nat) (d : BitVec 3) : (s.loopSet q i c n d).last = s.last := by unfold State.loopSet; dsimp only; split <;> rfl
@[simp] theorem loopSet_input (s : State) (q : Seq) (i : BitVec 1) (c : BitVec 2) (n : Nat) (d : BitVec 3) : (s.loopSet q i c n d).input = s.input := by unfold State.loopSet; dsimp only; split <;> rfl
@[simp] theorem loopSet_agenda (s : State) (q : Seq) (i : BitVec 1) (c : BitVec 2) (n : Nat) (d : BitVec 3) : (s.loopSet q i c n d).agenda = s.agenda := by unfold State.loopSet; dsimp only; split <;> rfl
@[simp] theorem loopSet_outbox (s : State) (q : Seq) (i : BitVec 1) (c : BitVec 2) (n : Nat) (d : BitVec 3) : (s.loopSet q i c n d).outbox = s.outbox := by unfold State.loopSet; dsimp only; split <;> rfl
@[simp] theorem loopSet_draws (s : State) (q : Seq) (i : BitVec 1) (c : BitVec 2) (n : Nat) (d : BitVec 3) : (s.loopSet q i c n d).draws = s.draws := by unfold State.loopSet; dsimp only; split <;> rfl
@[simp] theorem loopSet_die (s : State) (q : Seq) (i : BitVec 1) (c : BitVec 2) (n : Nat) (d : BitVec 3) : (s.loopSet q i c n d).die = s.die := by unfold State.loopSet; dsimp only; split <;> rfl
@[simp] theorem loopSet_core (s : State) (q : Seq) (i : BitVec 1) (c : BitVec 2) (n : Nat) (d : BitVec 3) : (s.loopSet q i c n d).core = s.core := by unfold State.loopSet; dsimp only; split <;> rfl
@[simp] theorem loopSet_sc (s : State) (q : Seq) (i : BitVec 1) (c : BitVec 2) (n : Nat) (d : BitVec 3) : (s.loopSet q i c n d).sc = s.sc := by unfold State.loopSet; dsimp only; split <;> rfl
@[simp] theorem loopSet_csr (s : State) (q : Seq) (i : BitVec 1) (c : BitVec 2) (n : Nat) (d : BitVec 3) : (s.loopSet q i c n d).csr = s.csr := by unfold State.loopSet; dsimp only; split <;> rfl
@[simp] theorem loopSet_q (s : State) (q : Seq) (i : BitVec 1) (c : BitVec 2) (n : Nat) (d : BitVec 3) : (s.loopSet q i c n d).q = s.q := by unfold State.loopSet; dsimp only; split <;> rfl
@[simp] theorem loopSet_cycle (s : State) (q : Seq) (i : BitVec 1) (c : BitVec 2) (n : Nat) (d : BitVec 3) : (s.loopSet q i c n d).cycle = s.cycle := by unfold State.loopSet; dsimp only; split <;> rfl
@[simp] theorem loopSet_mu (s : State) (q : Seq) (i : BitVec 1) (c : BitVec 2) (n : Nat) (d : BitVec 3) : (s.loopSet q i c n d).mu = s.mu := by unfold State.loopSet; dsimp only; split <;> rfl
@[simp] theorem loopSet_mem (s : State) (q : Seq) (i : BitVec 1) (c : BitVec 2) (n : Nat) (d : BitVec 3) : (s.loopSet q i c n d).mem = s.mem := by unfold State.loopSet; dsimp only; split <;> rfl
@[simp] theorem loopSet_layout (s : State) (q : Seq) (i : BitVec 1) (c : BitVec 2) (n : Nat) (d : BitVec 3) : (s.loopSet q i c n d).layout = s.layout := by unfold State.loopSet; dsimp only; split <;> rfl
@[simp] theorem loopSet_scr (s : State) (q : Seq) (i : BitVec 1) (c : BitVec 2) (n : Nat) (d : BitVec 3) : (s.loopSet q i c n d).scr = s.scr := by unfold State.loopSet; dsimp only; split <;> rfl
@[simp] theorem loopSet_vec (s : State) (q : Seq) (i : BitVec 1) (c : BitVec 2) (n : Nat) (d : BitVec 3) : (s.loopSet q i c n d).vec = s.vec := by unfold State.loopSet; dsimp only; split <;> rfl
@[simp] theorem loopSet_mat (s : State) (q : Seq) (i : BitVec 1) (c : BitVec 2) (n : Nat) (d : BitVec 3) : (s.loopSet q i c n d).mat = s.mat := by unfold State.loopSet; dsimp only; split <;> rfl
@[simp] theorem loopSet_eng (s : State) (q : Seq) (i : BitVec 1) (c : BitVec 2) (n : Nat) (d : BitVec 3) : (s.loopSet q i c n d).eng = s.eng := by unfold State.loopSet; dsimp only; split <;> rfl
@[simp] theorem loopSet_logs (s : State) (q : Seq) (i : BitVec 1) (c : BitVec 2) (n : Nat) (d : BitVec 3) : (s.loopSet q i c n d).logs = s.logs := by unfold State.loopSet; dsimp only; split <;> rfl
@[simp] theorem loopSet_trap (s : State) (q : Seq) (i : BitVec 1) (c : BitVec 2) (n : Nat) (d : BitVec 3) : (s.loopSet q i c n d).trap = s.trap := by unfold State.loopSet; dsimp only; split <;> rfl
@[simp] theorem loopSet_phase (s : State) (q : Seq) (i : BitVec 1) (c : BitVec 2) (n : Nat) (d : BitVec 3) : (s.loopSet q i c n d).phase = s.phase := by unfold State.loopSet; dsimp only; split <;> rfl
@[simp] theorem loopSet_task (s : State) (q : Seq) (i : BitVec 1) (c : BitVec 2) (n : Nat) (d : BitVec 3) : (s.loopSet q i c n d).task = s.task := by unfold State.loopSet; dsimp only; split <;> rfl
@[simp] theorem loopSet_wharves (s : State) (q : Seq) (i : BitVec 1) (c : BitVec 2) (n : Nat) (d : BitVec 3) : (s.loopSet q i c n d).wharves = s.wharves := by unfold State.loopSet; dsimp only; split <;> rfl
@[simp] theorem loopSet_disp (s : State) (q : Seq) (i : BitVec 1) (c : BitVec 2) (n : Nat) (d : BitVec 3) : (s.loopSet q i c n d).disp = s.disp := by unfold State.loopSet; dsimp only; split <;> rfl
@[simp] theorem loopSet_pkg (s : State) (q : Seq) (i : BitVec 1) (c : BitVec 2) (n : Nat) (d : BitVec 3) : (s.loopSet q i c n d).pkg = s.pkg := by unfold State.loopSet; dsimp only; split <;> rfl

@[simp] theorem branch_turn (s : State) (q : Seq) (n : BitVec 1) (p : BitVec 4) (o : BitVec 21) : (s.branch q n p o).turn = s.turn := by unfold State.branch; split <;> rfl
@[simp] theorem branch_last (s : State) (q : Seq) (n : BitVec 1) (p : BitVec 4) (o : BitVec 21) : (s.branch q n p o).last = s.last := by unfold State.branch; split <;> rfl
@[simp] theorem branch_input (s : State) (q : Seq) (n : BitVec 1) (p : BitVec 4) (o : BitVec 21) : (s.branch q n p o).input = s.input := by unfold State.branch; split <;> rfl
@[simp] theorem branch_agenda (s : State) (q : Seq) (n : BitVec 1) (p : BitVec 4) (o : BitVec 21) : (s.branch q n p o).agenda = s.agenda := by unfold State.branch; split <;> rfl
@[simp] theorem branch_outbox (s : State) (q : Seq) (n : BitVec 1) (p : BitVec 4) (o : BitVec 21) : (s.branch q n p o).outbox = s.outbox := by unfold State.branch; split <;> rfl
@[simp] theorem branch_draws (s : State) (q : Seq) (n : BitVec 1) (p : BitVec 4) (o : BitVec 21) : (s.branch q n p o).draws = s.draws := by unfold State.branch; split <;> rfl
@[simp] theorem branch_die (s : State) (q : Seq) (n : BitVec 1) (p : BitVec 4) (o : BitVec 21) : (s.branch q n p o).die = s.die := by unfold State.branch; split <;> rfl
@[simp] theorem branch_core (s : State) (q : Seq) (n : BitVec 1) (p : BitVec 4) (o : BitVec 21) : (s.branch q n p o).core = s.core := by unfold State.branch; split <;> rfl
@[simp] theorem branch_sc (s : State) (q : Seq) (n : BitVec 1) (p : BitVec 4) (o : BitVec 21) : (s.branch q n p o).sc = s.sc := by unfold State.branch; split <;> rfl
@[simp] theorem branch_csr (s : State) (q : Seq) (n : BitVec 1) (p : BitVec 4) (o : BitVec 21) : (s.branch q n p o).csr = s.csr := by unfold State.branch; split <;> rfl
@[simp] theorem branch_q (s : State) (q : Seq) (n : BitVec 1) (p : BitVec 4) (o : BitVec 21) : (s.branch q n p o).q = s.q := by unfold State.branch; split <;> rfl
@[simp] theorem branch_cycle (s : State) (q : Seq) (n : BitVec 1) (p : BitVec 4) (o : BitVec 21) : (s.branch q n p o).cycle = s.cycle := by unfold State.branch; split <;> rfl
@[simp] theorem branch_mu (s : State) (q : Seq) (n : BitVec 1) (p : BitVec 4) (o : BitVec 21) : (s.branch q n p o).mu = s.mu := by unfold State.branch; split <;> rfl
@[simp] theorem branch_mem (s : State) (q : Seq) (n : BitVec 1) (p : BitVec 4) (o : BitVec 21) : (s.branch q n p o).mem = s.mem := by unfold State.branch; split <;> rfl
@[simp] theorem branch_layout (s : State) (q : Seq) (n : BitVec 1) (p : BitVec 4) (o : BitVec 21) : (s.branch q n p o).layout = s.layout := by unfold State.branch; split <;> rfl
@[simp] theorem branch_scr (s : State) (q : Seq) (n : BitVec 1) (p : BitVec 4) (o : BitVec 21) : (s.branch q n p o).scr = s.scr := by unfold State.branch; split <;> rfl
@[simp] theorem branch_vec (s : State) (q : Seq) (n : BitVec 1) (p : BitVec 4) (o : BitVec 21) : (s.branch q n p o).vec = s.vec := by unfold State.branch; split <;> rfl
@[simp] theorem branch_mat (s : State) (q : Seq) (n : BitVec 1) (p : BitVec 4) (o : BitVec 21) : (s.branch q n p o).mat = s.mat := by unfold State.branch; split <;> rfl
@[simp] theorem branch_eng (s : State) (q : Seq) (n : BitVec 1) (p : BitVec 4) (o : BitVec 21) : (s.branch q n p o).eng = s.eng := by unfold State.branch; split <;> rfl
@[simp] theorem branch_logs (s : State) (q : Seq) (n : BitVec 1) (p : BitVec 4) (o : BitVec 21) : (s.branch q n p o).logs = s.logs := by unfold State.branch; split <;> rfl
@[simp] theorem branch_trap (s : State) (q : Seq) (n : BitVec 1) (p : BitVec 4) (o : BitVec 21) : (s.branch q n p o).trap = s.trap := by unfold State.branch; split <;> rfl
@[simp] theorem branch_phase (s : State) (q : Seq) (n : BitVec 1) (p : BitVec 4) (o : BitVec 21) : (s.branch q n p o).phase = s.phase := by unfold State.branch; split <;> rfl
@[simp] theorem branch_task (s : State) (q : Seq) (n : BitVec 1) (p : BitVec 4) (o : BitVec 21) : (s.branch q n p o).task = s.task := by unfold State.branch; split <;> rfl
@[simp] theorem branch_wharves (s : State) (q : Seq) (n : BitVec 1) (p : BitVec 4) (o : BitVec 21) : (s.branch q n p o).wharves = s.wharves := by unfold State.branch; split <;> rfl
@[simp] theorem branch_disp (s : State) (q : Seq) (n : BitVec 1) (p : BitVec 4) (o : BitVec 21) : (s.branch q n p o).disp = s.disp := by unfold State.branch; split <;> rfl
@[simp] theorem branch_pkg (s : State) (q : Seq) (n : BitVec 1) (p : BitVec 4) (o : BitVec 21) : (s.branch q n p o).pkg = s.pkg := by unfold State.branch; split <;> rfl

@[simp] theorem setG_turn (s : State) (i : BitVec 5) (v : Word64) : (s.setG i v).turn = s.turn := by unfold State.setG; split <;> rfl
@[simp] theorem setG_last (s : State) (i : BitVec 5) (v : Word64) : (s.setG i v).last = s.last := by unfold State.setG; split <;> rfl
@[simp] theorem setG_input (s : State) (i : BitVec 5) (v : Word64) : (s.setG i v).input = s.input := by unfold State.setG; split <;> rfl
@[simp] theorem setG_agenda (s : State) (i : BitVec 5) (v : Word64) : (s.setG i v).agenda = s.agenda := by unfold State.setG; split <;> rfl
@[simp] theorem setG_outbox (s : State) (i : BitVec 5) (v : Word64) : (s.setG i v).outbox = s.outbox := by unfold State.setG; split <;> rfl
@[simp] theorem setG_draws (s : State) (i : BitVec 5) (v : Word64) : (s.setG i v).draws = s.draws := by unfold State.setG; split <;> rfl
@[simp] theorem setG_die (s : State) (i : BitVec 5) (v : Word64) : (s.setG i v).die = s.die := by unfold State.setG; split <;> rfl
@[simp] theorem setG_core (s : State) (i : BitVec 5) (v : Word64) : (s.setG i v).core = s.core := by unfold State.setG; split <;> rfl
@[simp] theorem setG_seqs (s : State) (i : BitVec 5) (v : Word64) : (s.setG i v).seqs = s.seqs := by unfold State.setG; split <;> rfl
@[simp] theorem setG_csr (s : State) (i : BitVec 5) (v : Word64) : (s.setG i v).csr = s.csr := by unfold State.setG; split <;> rfl
@[simp] theorem setG_q (s : State) (i : BitVec 5) (v : Word64) : (s.setG i v).q = s.q := by unfold State.setG; split <;> rfl
@[simp] theorem setG_cycle (s : State) (i : BitVec 5) (v : Word64) : (s.setG i v).cycle = s.cycle := by unfold State.setG; split <;> rfl
@[simp] theorem setG_mu (s : State) (i : BitVec 5) (v : Word64) : (s.setG i v).mu = s.mu := by unfold State.setG; split <;> rfl
@[simp] theorem setG_mem (s : State) (i : BitVec 5) (v : Word64) : (s.setG i v).mem = s.mem := by unfold State.setG; split <;> rfl
@[simp] theorem setG_layout (s : State) (i : BitVec 5) (v : Word64) : (s.setG i v).layout = s.layout := by unfold State.setG; split <;> rfl
@[simp] theorem setG_scr (s : State) (i : BitVec 5) (v : Word64) : (s.setG i v).scr = s.scr := by unfold State.setG; split <;> rfl
@[simp] theorem setG_vec (s : State) (i : BitVec 5) (v : Word64) : (s.setG i v).vec = s.vec := by unfold State.setG; split <;> rfl
@[simp] theorem setG_mat (s : State) (i : BitVec 5) (v : Word64) : (s.setG i v).mat = s.mat := by unfold State.setG; split <;> rfl
@[simp] theorem setG_eng (s : State) (i : BitVec 5) (v : Word64) : (s.setG i v).eng = s.eng := by unfold State.setG; split <;> rfl
@[simp] theorem setG_logs (s : State) (i : BitVec 5) (v : Word64) : (s.setG i v).logs = s.logs := by unfold State.setG; split <;> rfl
@[simp] theorem setG_trap (s : State) (i : BitVec 5) (v : Word64) : (s.setG i v).trap = s.trap := by unfold State.setG; split <;> rfl
@[simp] theorem setG_phase (s : State) (i : BitVec 5) (v : Word64) : (s.setG i v).phase = s.phase := by unfold State.setG; split <;> rfl
@[simp] theorem setG_task (s : State) (i : BitVec 5) (v : Word64) : (s.setG i v).task = s.task := by unfold State.setG; split <;> rfl
@[simp] theorem setG_wharves (s : State) (i : BitVec 5) (v : Word64) : (s.setG i v).wharves = s.wharves := by unfold State.setG; split <;> rfl
@[simp] theorem setG_disp (s : State) (i : BitVec 5) (v : Word64) : (s.setG i v).disp = s.disp := by unfold State.setG; split <;> rfl
@[simp] theorem setG_pkg (s : State) (i : BitVec 5) (v : Word64) : (s.setG i v).pkg = s.pkg := by unfold State.setG; split <;> rfl

@[simp] theorem setA_turn (s : State) (i : BitVec 5) (v : Addr) : (s.setA i v).turn = s.turn := rfl
@[simp] theorem setA_last (s : State) (i : BitVec 5) (v : Addr) : (s.setA i v).last = s.last := rfl
@[simp] theorem setA_input (s : State) (i : BitVec 5) (v : Addr) : (s.setA i v).input = s.input := rfl
@[simp] theorem setA_agenda (s : State) (i : BitVec 5) (v : Addr) : (s.setA i v).agenda = s.agenda := rfl
@[simp] theorem setA_outbox (s : State) (i : BitVec 5) (v : Addr) : (s.setA i v).outbox = s.outbox := rfl
@[simp] theorem setA_draws (s : State) (i : BitVec 5) (v : Addr) : (s.setA i v).draws = s.draws := rfl
@[simp] theorem setA_die (s : State) (i : BitVec 5) (v : Addr) : (s.setA i v).die = s.die := rfl
@[simp] theorem setA_core (s : State) (i : BitVec 5) (v : Addr) : (s.setA i v).core = s.core := rfl
@[simp] theorem setA_seqs (s : State) (i : BitVec 5) (v : Addr) : (s.setA i v).seqs = s.seqs := rfl
@[simp] theorem setA_csr (s : State) (i : BitVec 5) (v : Addr) : (s.setA i v).csr = s.csr := rfl
@[simp] theorem setA_q (s : State) (i : BitVec 5) (v : Addr) : (s.setA i v).q = s.q := rfl
@[simp] theorem setA_cycle (s : State) (i : BitVec 5) (v : Addr) : (s.setA i v).cycle = s.cycle := rfl
@[simp] theorem setA_mu (s : State) (i : BitVec 5) (v : Addr) : (s.setA i v).mu = s.mu := rfl
@[simp] theorem setA_mem (s : State) (i : BitVec 5) (v : Addr) : (s.setA i v).mem = s.mem := rfl
@[simp] theorem setA_layout (s : State) (i : BitVec 5) (v : Addr) : (s.setA i v).layout = s.layout := rfl
@[simp] theorem setA_scr (s : State) (i : BitVec 5) (v : Addr) : (s.setA i v).scr = s.scr := rfl
@[simp] theorem setA_vec (s : State) (i : BitVec 5) (v : Addr) : (s.setA i v).vec = s.vec := rfl
@[simp] theorem setA_mat (s : State) (i : BitVec 5) (v : Addr) : (s.setA i v).mat = s.mat := rfl
@[simp] theorem setA_eng (s : State) (i : BitVec 5) (v : Addr) : (s.setA i v).eng = s.eng := rfl
@[simp] theorem setA_logs (s : State) (i : BitVec 5) (v : Addr) : (s.setA i v).logs = s.logs := rfl
@[simp] theorem setA_trap (s : State) (i : BitVec 5) (v : Addr) : (s.setA i v).trap = s.trap := rfl
@[simp] theorem setA_phase (s : State) (i : BitVec 5) (v : Addr) : (s.setA i v).phase = s.phase := rfl
@[simp] theorem setA_task (s : State) (i : BitVec 5) (v : Addr) : (s.setA i v).task = s.task := rfl
@[simp] theorem setA_wharves (s : State) (i : BitVec 5) (v : Addr) : (s.setA i v).wharves = s.wharves := rfl
@[simp] theorem setA_disp (s : State) (i : BitVec 5) (v : Addr) : (s.setA i v).disp = s.disp := rfl
@[simp] theorem setA_pkg (s : State) (i : BitVec 5) (v : Addr) : (s.setA i v).pkg = s.pkg := rfl

@[simp] theorem setM_turn (s : State) (i : BitVec 3) (v : Word64) : (s.setM i v).turn = s.turn := rfl
@[simp] theorem setM_last (s : State) (i : BitVec 3) (v : Word64) : (s.setM i v).last = s.last := rfl
@[simp] theorem setM_input (s : State) (i : BitVec 3) (v : Word64) : (s.setM i v).input = s.input := rfl
@[simp] theorem setM_agenda (s : State) (i : BitVec 3) (v : Word64) : (s.setM i v).agenda = s.agenda := rfl
@[simp] theorem setM_outbox (s : State) (i : BitVec 3) (v : Word64) : (s.setM i v).outbox = s.outbox := rfl
@[simp] theorem setM_draws (s : State) (i : BitVec 3) (v : Word64) : (s.setM i v).draws = s.draws := rfl
@[simp] theorem setM_die (s : State) (i : BitVec 3) (v : Word64) : (s.setM i v).die = s.die := rfl
@[simp] theorem setM_core (s : State) (i : BitVec 3) (v : Word64) : (s.setM i v).core = s.core := rfl
@[simp] theorem setM_seqs (s : State) (i : BitVec 3) (v : Word64) : (s.setM i v).seqs = s.seqs := rfl
@[simp] theorem setM_csr (s : State) (i : BitVec 3) (v : Word64) : (s.setM i v).csr = s.csr := rfl
@[simp] theorem setM_q (s : State) (i : BitVec 3) (v : Word64) : (s.setM i v).q = s.q := rfl
@[simp] theorem setM_cycle (s : State) (i : BitVec 3) (v : Word64) : (s.setM i v).cycle = s.cycle := rfl
@[simp] theorem setM_mu (s : State) (i : BitVec 3) (v : Word64) : (s.setM i v).mu = s.mu := rfl
@[simp] theorem setM_mem (s : State) (i : BitVec 3) (v : Word64) : (s.setM i v).mem = s.mem := rfl
@[simp] theorem setM_layout (s : State) (i : BitVec 3) (v : Word64) : (s.setM i v).layout = s.layout := rfl
@[simp] theorem setM_scr (s : State) (i : BitVec 3) (v : Word64) : (s.setM i v).scr = s.scr := rfl
@[simp] theorem setM_vec (s : State) (i : BitVec 3) (v : Word64) : (s.setM i v).vec = s.vec := rfl
@[simp] theorem setM_mat (s : State) (i : BitVec 3) (v : Word64) : (s.setM i v).mat = s.mat := rfl
@[simp] theorem setM_eng (s : State) (i : BitVec 3) (v : Word64) : (s.setM i v).eng = s.eng := rfl
@[simp] theorem setM_logs (s : State) (i : BitVec 3) (v : Word64) : (s.setM i v).logs = s.logs := rfl
@[simp] theorem setM_trap (s : State) (i : BitVec 3) (v : Word64) : (s.setM i v).trap = s.trap := rfl
@[simp] theorem setM_phase (s : State) (i : BitVec 3) (v : Word64) : (s.setM i v).phase = s.phase := rfl
@[simp] theorem setM_task (s : State) (i : BitVec 3) (v : Word64) : (s.setM i v).task = s.task := rfl
@[simp] theorem setM_wharves (s : State) (i : BitVec 3) (v : Word64) : (s.setM i v).wharves = s.wharves := rfl
@[simp] theorem setM_disp (s : State) (i : BitVec 3) (v : Word64) : (s.setM i v).disp = s.disp := rfl
@[simp] theorem setM_pkg (s : State) (i : BitVec 3) (v : Word64) : (s.setM i v).pkg = s.pkg := rfl

@[simp] theorem exchangeBank_turn (s : State) (w : Bool) : (s.exchangeBank w).turn = s.turn := rfl
@[simp] theorem exchangeBank_last (s : State) (w : Bool) : (s.exchangeBank w).last = s.last := rfl
@[simp] theorem exchangeBank_input (s : State) (w : Bool) : (s.exchangeBank w).input = s.input := rfl
@[simp] theorem exchangeBank_agenda (s : State) (w : Bool) : (s.exchangeBank w).agenda = s.agenda := rfl
@[simp] theorem exchangeBank_outbox (s : State) (w : Bool) : (s.exchangeBank w).outbox = s.outbox := rfl
@[simp] theorem exchangeBank_draws (s : State) (w : Bool) : (s.exchangeBank w).draws = s.draws := rfl
@[simp] theorem exchangeBank_die (s : State) (w : Bool) : (s.exchangeBank w).die = s.die := rfl
@[simp] theorem exchangeBank_core (s : State) (w : Bool) : (s.exchangeBank w).core = s.core := rfl
@[simp] theorem exchangeBank_seqs (s : State) (w : Bool) : (s.exchangeBank w).seqs = s.seqs := rfl
@[simp] theorem exchangeBank_csr (s : State) (w : Bool) : (s.exchangeBank w).csr = s.csr := rfl
@[simp] theorem exchangeBank_q (s : State) (w : Bool) : (s.exchangeBank w).q = s.q := rfl
@[simp] theorem exchangeBank_cycle (s : State) (w : Bool) : (s.exchangeBank w).cycle = s.cycle := rfl
@[simp] theorem exchangeBank_mu (s : State) (w : Bool) : (s.exchangeBank w).mu = s.mu := rfl
@[simp] theorem exchangeBank_mem (s : State) (w : Bool) : (s.exchangeBank w).mem = s.mem := rfl
@[simp] theorem exchangeBank_layout (s : State) (w : Bool) : (s.exchangeBank w).layout = s.layout := rfl
@[simp] theorem exchangeBank_scr (s : State) (w : Bool) : (s.exchangeBank w).scr = s.scr := rfl
@[simp] theorem exchangeBank_vec (s : State) (w : Bool) : (s.exchangeBank w).vec = s.vec := rfl
@[simp] theorem exchangeBank_mat (s : State) (w : Bool) : (s.exchangeBank w).mat = s.mat := rfl
@[simp] theorem exchangeBank_eng (s : State) (w : Bool) : (s.exchangeBank w).eng = s.eng := rfl
@[simp] theorem exchangeBank_logs (s : State) (w : Bool) : (s.exchangeBank w).logs = s.logs := rfl
@[simp] theorem exchangeBank_trap (s : State) (w : Bool) : (s.exchangeBank w).trap = s.trap := rfl
@[simp] theorem exchangeBank_phase (s : State) (w : Bool) : (s.exchangeBank w).phase = s.phase := rfl
@[simp] theorem exchangeBank_task (s : State) (w : Bool) : (s.exchangeBank w).task = s.task := rfl
@[simp] theorem exchangeBank_wharves (s : State) (w : Bool) : (s.exchangeBank w).wharves = s.wharves := rfl
@[simp] theorem exchangeBank_disp (s : State) (w : Bool) : (s.exchangeBank w).disp = s.disp := rfl
@[simp] theorem exchangeBank_pkg (s : State) (w : Bool) : (s.exchangeBank w).pkg = s.pkg := rfl

@[simp] theorem setCsr_turn (s : State) (n : Nat) (v : Word64) : (s.setCsr n v).turn = s.turn := rfl
@[simp] theorem setCsr_last (s : State) (n : Nat) (v : Word64) : (s.setCsr n v).last = s.last := rfl
@[simp] theorem setCsr_input (s : State) (n : Nat) (v : Word64) : (s.setCsr n v).input = s.input := rfl
@[simp] theorem setCsr_agenda (s : State) (n : Nat) (v : Word64) : (s.setCsr n v).agenda = s.agenda := rfl
@[simp] theorem setCsr_outbox (s : State) (n : Nat) (v : Word64) : (s.setCsr n v).outbox = s.outbox := rfl
@[simp] theorem setCsr_draws (s : State) (n : Nat) (v : Word64) : (s.setCsr n v).draws = s.draws := rfl
@[simp] theorem setCsr_die (s : State) (n : Nat) (v : Word64) : (s.setCsr n v).die = s.die := rfl
@[simp] theorem setCsr_core (s : State) (n : Nat) (v : Word64) : (s.setCsr n v).core = s.core := rfl
@[simp] theorem setCsr_seqs (s : State) (n : Nat) (v : Word64) : (s.setCsr n v).seqs = s.seqs := rfl
@[simp] theorem setCsr_sc (s : State) (n : Nat) (v : Word64) : (s.setCsr n v).sc = s.sc := rfl
@[simp] theorem setCsr_q (s : State) (n : Nat) (v : Word64) : (s.setCsr n v).q = s.q := rfl
@[simp] theorem setCsr_cycle (s : State) (n : Nat) (v : Word64) : (s.setCsr n v).cycle = s.cycle := rfl
@[simp] theorem setCsr_mu (s : State) (n : Nat) (v : Word64) : (s.setCsr n v).mu = s.mu := rfl
@[simp] theorem setCsr_mem (s : State) (n : Nat) (v : Word64) : (s.setCsr n v).mem = s.mem := rfl
@[simp] theorem setCsr_layout (s : State) (n : Nat) (v : Word64) : (s.setCsr n v).layout = s.layout := rfl
@[simp] theorem setCsr_scr (s : State) (n : Nat) (v : Word64) : (s.setCsr n v).scr = s.scr := rfl
@[simp] theorem setCsr_vec (s : State) (n : Nat) (v : Word64) : (s.setCsr n v).vec = s.vec := rfl
@[simp] theorem setCsr_mat (s : State) (n : Nat) (v : Word64) : (s.setCsr n v).mat = s.mat := rfl
@[simp] theorem setCsr_eng (s : State) (n : Nat) (v : Word64) : (s.setCsr n v).eng = s.eng := rfl
@[simp] theorem setCsr_logs (s : State) (n : Nat) (v : Word64) : (s.setCsr n v).logs = s.logs := rfl
@[simp] theorem setCsr_trap (s : State) (n : Nat) (v : Word64) : (s.setCsr n v).trap = s.trap := rfl
@[simp] theorem setCsr_phase (s : State) (n : Nat) (v : Word64) : (s.setCsr n v).phase = s.phase := rfl
@[simp] theorem setCsr_task (s : State) (n : Nat) (v : Word64) : (s.setCsr n v).task = s.task := rfl
@[simp] theorem setCsr_wharves (s : State) (n : Nat) (v : Word64) : (s.setCsr n v).wharves = s.wharves := rfl
@[simp] theorem setCsr_disp (s : State) (n : Nat) (v : Word64) : (s.setCsr n v).disp = s.disp := rfl
@[simp] theorem setCsr_pkg (s : State) (n : Nat) (v : Word64) : (s.setCsr n v).pkg = s.pkg := rfl

@[simp] theorem pin_turn (s : State) : (s.pin).turn = s.turn := by unfold State.pin; split <;> rfl
@[simp] theorem pin_last (s : State) : (s.pin).last = s.last := by unfold State.pin; split <;> rfl
@[simp] theorem pin_input (s : State) : (s.pin).input = s.input := by unfold State.pin; split <;> rfl
@[simp] theorem pin_agenda (s : State) : (s.pin).agenda = s.agenda := by unfold State.pin; split <;> rfl
@[simp] theorem pin_outbox (s : State) : (s.pin).outbox = s.outbox := by unfold State.pin; split <;> rfl
@[simp] theorem pin_draws (s : State) : (s.pin).draws = s.draws := by unfold State.pin; split <;> rfl
@[simp] theorem pin_die (s : State) : (s.pin).die = s.die := by unfold State.pin; split <;> rfl
@[simp] theorem pin_core (s : State) : (s.pin).core = s.core := by unfold State.pin; split <;> rfl
@[simp] theorem pin_seqs (s : State) : (s.pin).seqs = s.seqs := by unfold State.pin; split <;> rfl
@[simp] theorem pin_sc (s : State) : (s.pin).sc = s.sc := by unfold State.pin; split <;> rfl
@[simp] theorem pin_q (s : State) : (s.pin).q = s.q := by unfold State.pin; split <;> rfl
@[simp] theorem pin_cycle (s : State) : (s.pin).cycle = s.cycle := by unfold State.pin; split <;> rfl
@[simp] theorem pin_mu (s : State) : (s.pin).mu = s.mu := by unfold State.pin; split <;> rfl
@[simp] theorem pin_mem (s : State) : (s.pin).mem = s.mem := by unfold State.pin; split <;> rfl
@[simp] theorem pin_layout (s : State) : (s.pin).layout = s.layout := by unfold State.pin; split <;> rfl
@[simp] theorem pin_scr (s : State) : (s.pin).scr = s.scr := by unfold State.pin; split <;> rfl
@[simp] theorem pin_vec (s : State) : (s.pin).vec = s.vec := by unfold State.pin; split <;> rfl
@[simp] theorem pin_mat (s : State) : (s.pin).mat = s.mat := by unfold State.pin; split <;> rfl
@[simp] theorem pin_eng (s : State) : (s.pin).eng = s.eng := by unfold State.pin; split <;> rfl
@[simp] theorem pin_logs (s : State) : (s.pin).logs = s.logs := by unfold State.pin; split <;> rfl
@[simp] theorem pin_trap (s : State) : (s.pin).trap = s.trap := by unfold State.pin; split <;> rfl
@[simp] theorem pin_phase (s : State) : (s.pin).phase = s.phase := by unfold State.pin; split <;> rfl
@[simp] theorem pin_task (s : State) : (s.pin).task = s.task := by unfold State.pin; split <;> rfl
@[simp] theorem pin_wharves (s : State) : (s.pin).wharves = s.wharves := by unfold State.pin; split <;> rfl
@[simp] theorem pin_disp (s : State) : (s.pin).disp = s.disp := by unfold State.pin; split <;> rfl
@[simp] theorem pin_pkg (s : State) : (s.pin).pkg = s.pkg := by unfold State.pin; split <;> rfl

@[simp] theorem setCfg_turn (s : State) (a : Nat) (v : Word64) : (s.setCfg a v).turn = s.turn := rfl
@[simp] theorem setCfg_last (s : State) (a : Nat) (v : Word64) : (s.setCfg a v).last = s.last := rfl
@[simp] theorem setCfg_input (s : State) (a : Nat) (v : Word64) : (s.setCfg a v).input = s.input := rfl
@[simp] theorem setCfg_agenda (s : State) (a : Nat) (v : Word64) : (s.setCfg a v).agenda = s.agenda := rfl
@[simp] theorem setCfg_outbox (s : State) (a : Nat) (v : Word64) : (s.setCfg a v).outbox = s.outbox := rfl
@[simp] theorem setCfg_draws (s : State) (a : Nat) (v : Word64) : (s.setCfg a v).draws = s.draws := rfl
@[simp] theorem setCfg_die (s : State) (a : Nat) (v : Word64) : (s.setCfg a v).die = s.die := rfl
@[simp] theorem setCfg_core (s : State) (a : Nat) (v : Word64) : (s.setCfg a v).core = s.core := rfl
@[simp] theorem setCfg_seqs (s : State) (a : Nat) (v : Word64) : (s.setCfg a v).seqs = s.seqs := rfl
@[simp] theorem setCfg_sc (s : State) (a : Nat) (v : Word64) : (s.setCfg a v).sc = s.sc := rfl
@[simp] theorem setCfg_csr (s : State) (a : Nat) (v : Word64) : (s.setCfg a v).csr = s.csr := rfl
@[simp] theorem setCfg_q (s : State) (a : Nat) (v : Word64) : (s.setCfg a v).q = s.q := rfl
@[simp] theorem setCfg_cycle (s : State) (a : Nat) (v : Word64) : (s.setCfg a v).cycle = s.cycle := rfl
@[simp] theorem setCfg_mu (s : State) (a : Nat) (v : Word64) : (s.setCfg a v).mu = s.mu := rfl
@[simp] theorem setCfg_mem (s : State) (a : Nat) (v : Word64) : (s.setCfg a v).mem = s.mem := rfl
@[simp] theorem setCfg_layout (s : State) (a : Nat) (v : Word64) : (s.setCfg a v).layout = s.layout := rfl
@[simp] theorem setCfg_scr (s : State) (a : Nat) (v : Word64) : (s.setCfg a v).scr = s.scr := rfl
@[simp] theorem setCfg_vec (s : State) (a : Nat) (v : Word64) : (s.setCfg a v).vec = s.vec := rfl
@[simp] theorem setCfg_mat (s : State) (a : Nat) (v : Word64) : (s.setCfg a v).mat = s.mat := rfl
@[simp] theorem setCfg_eng (s : State) (a : Nat) (v : Word64) : (s.setCfg a v).eng = s.eng := rfl
@[simp] theorem setCfg_logs (s : State) (a : Nat) (v : Word64) : (s.setCfg a v).logs = s.logs := rfl
@[simp] theorem setCfg_trap (s : State) (a : Nat) (v : Word64) : (s.setCfg a v).trap = s.trap := rfl
@[simp] theorem setCfg_phase (s : State) (a : Nat) (v : Word64) : (s.setCfg a v).phase = s.phase := rfl
@[simp] theorem setCfg_task (s : State) (a : Nat) (v : Word64) : (s.setCfg a v).task = s.task := rfl
@[simp] theorem setCfg_wharves (s : State) (a : Nat) (v : Word64) : (s.setCfg a v).wharves = s.wharves := rfl
@[simp] theorem setCfg_disp (s : State) (a : Nat) (v : Word64) : (s.setCfg a v).disp = s.disp := rfl

@[simp] theorem post_turn (s : State) (e : Instr) (i : Input) : (s.post e i).turn = s.turn := rfl
@[simp] theorem post_last (s : State) (e : Instr) (i : Input) : (s.post e i).last = s.last := rfl
@[simp] theorem post_input (s : State) (e : Instr) (i : Input) : (s.post e i).input = s.input := rfl
@[simp] theorem post_outbox (s : State) (e : Instr) (i : Input) : (s.post e i).outbox = s.outbox := rfl
@[simp] theorem post_draws (s : State) (e : Instr) (i : Input) : (s.post e i).draws = s.draws := rfl
@[simp] theorem post_die (s : State) (e : Instr) (i : Input) : (s.post e i).die = s.die := rfl
@[simp] theorem post_core (s : State) (e : Instr) (i : Input) : (s.post e i).core = s.core := rfl
@[simp] theorem post_seqs (s : State) (e : Instr) (i : Input) : (s.post e i).seqs = s.seqs := rfl
@[simp] theorem post_sc (s : State) (e : Instr) (i : Input) : (s.post e i).sc = s.sc := rfl
@[simp] theorem post_csr (s : State) (e : Instr) (i : Input) : (s.post e i).csr = s.csr := rfl
@[simp] theorem post_q (s : State) (e : Instr) (i : Input) : (s.post e i).q = s.q := rfl
@[simp] theorem post_cycle (s : State) (e : Instr) (i : Input) : (s.post e i).cycle = s.cycle := rfl
@[simp] theorem post_mu (s : State) (e : Instr) (i : Input) : (s.post e i).mu = s.mu := rfl
@[simp] theorem post_mem (s : State) (e : Instr) (i : Input) : (s.post e i).mem = s.mem := rfl
@[simp] theorem post_layout (s : State) (e : Instr) (i : Input) : (s.post e i).layout = s.layout := rfl
@[simp] theorem post_scr (s : State) (e : Instr) (i : Input) : (s.post e i).scr = s.scr := rfl
@[simp] theorem post_vec (s : State) (e : Instr) (i : Input) : (s.post e i).vec = s.vec := rfl
@[simp] theorem post_mat (s : State) (e : Instr) (i : Input) : (s.post e i).mat = s.mat := rfl
@[simp] theorem post_eng (s : State) (e : Instr) (i : Input) : (s.post e i).eng = s.eng := rfl
@[simp] theorem post_logs (s : State) (e : Instr) (i : Input) : (s.post e i).logs = s.logs := rfl
@[simp] theorem post_trap (s : State) (e : Instr) (i : Input) : (s.post e i).trap = s.trap := rfl
@[simp] theorem post_phase (s : State) (e : Instr) (i : Input) : (s.post e i).phase = s.phase := rfl
@[simp] theorem post_task (s : State) (e : Instr) (i : Input) : (s.post e i).task = s.task := rfl
@[simp] theorem post_wharves (s : State) (e : Instr) (i : Input) : (s.post e i).wharves = s.wharves := rfl
@[simp] theorem post_disp (s : State) (e : Instr) (i : Input) : (s.post e i).disp = s.disp := rfl
@[simp] theorem post_pkg (s : State) (e : Instr) (i : Input) : (s.post e i).pkg = s.pkg := rfl

@[simp] theorem postOnce_turn (s : State) (e : Instr) (i : Input) : (s.postOnce e i).turn = s.turn := by unfold State.postOnce; split <;> rfl
@[simp] theorem postOnce_last (s : State) (e : Instr) (i : Input) : (s.postOnce e i).last = s.last := by unfold State.postOnce; split <;> rfl
@[simp] theorem postOnce_input (s : State) (e : Instr) (i : Input) : (s.postOnce e i).input = s.input := by unfold State.postOnce; split <;> rfl
@[simp] theorem postOnce_outbox (s : State) (e : Instr) (i : Input) : (s.postOnce e i).outbox = s.outbox := by unfold State.postOnce; split <;> rfl
@[simp] theorem postOnce_draws (s : State) (e : Instr) (i : Input) : (s.postOnce e i).draws = s.draws := by unfold State.postOnce; split <;> rfl
@[simp] theorem postOnce_die (s : State) (e : Instr) (i : Input) : (s.postOnce e i).die = s.die := by unfold State.postOnce; split <;> rfl
@[simp] theorem postOnce_core (s : State) (e : Instr) (i : Input) : (s.postOnce e i).core = s.core := by unfold State.postOnce; split <;> rfl
@[simp] theorem postOnce_seqs (s : State) (e : Instr) (i : Input) : (s.postOnce e i).seqs = s.seqs := by unfold State.postOnce; split <;> rfl
@[simp] theorem postOnce_sc (s : State) (e : Instr) (i : Input) : (s.postOnce e i).sc = s.sc := by unfold State.postOnce; split <;> rfl
@[simp] theorem postOnce_csr (s : State) (e : Instr) (i : Input) : (s.postOnce e i).csr = s.csr := by unfold State.postOnce; split <;> rfl
@[simp] theorem postOnce_q (s : State) (e : Instr) (i : Input) : (s.postOnce e i).q = s.q := by unfold State.postOnce; split <;> rfl
@[simp] theorem postOnce_cycle (s : State) (e : Instr) (i : Input) : (s.postOnce e i).cycle = s.cycle := by unfold State.postOnce; split <;> rfl
@[simp] theorem postOnce_mu (s : State) (e : Instr) (i : Input) : (s.postOnce e i).mu = s.mu := by unfold State.postOnce; split <;> rfl
@[simp] theorem postOnce_mem (s : State) (e : Instr) (i : Input) : (s.postOnce e i).mem = s.mem := by unfold State.postOnce; split <;> rfl
@[simp] theorem postOnce_layout (s : State) (e : Instr) (i : Input) : (s.postOnce e i).layout = s.layout := by unfold State.postOnce; split <;> rfl
@[simp] theorem postOnce_scr (s : State) (e : Instr) (i : Input) : (s.postOnce e i).scr = s.scr := by unfold State.postOnce; split <;> rfl
@[simp] theorem postOnce_vec (s : State) (e : Instr) (i : Input) : (s.postOnce e i).vec = s.vec := by unfold State.postOnce; split <;> rfl
@[simp] theorem postOnce_mat (s : State) (e : Instr) (i : Input) : (s.postOnce e i).mat = s.mat := by unfold State.postOnce; split <;> rfl
@[simp] theorem postOnce_eng (s : State) (e : Instr) (i : Input) : (s.postOnce e i).eng = s.eng := by unfold State.postOnce; split <;> rfl
@[simp] theorem postOnce_logs (s : State) (e : Instr) (i : Input) : (s.postOnce e i).logs = s.logs := by unfold State.postOnce; split <;> rfl
@[simp] theorem postOnce_trap (s : State) (e : Instr) (i : Input) : (s.postOnce e i).trap = s.trap := by unfold State.postOnce; split <;> rfl
@[simp] theorem postOnce_phase (s : State) (e : Instr) (i : Input) : (s.postOnce e i).phase = s.phase := by unfold State.postOnce; split <;> rfl
@[simp] theorem postOnce_task (s : State) (e : Instr) (i : Input) : (s.postOnce e i).task = s.task := by unfold State.postOnce; split <;> rfl
@[simp] theorem postOnce_wharves (s : State) (e : Instr) (i : Input) : (s.postOnce e i).wharves = s.wharves := by unfold State.postOnce; split <;> rfl
@[simp] theorem postOnce_disp (s : State) (e : Instr) (i : Input) : (s.postOnce e i).disp = s.disp := by unfold State.postOnce; split <;> rfl
@[simp] theorem postOnce_pkg (s : State) (e : Instr) (i : Input) : (s.postOnce e i).pkg = s.pkg := by unfold State.postOnce; split <;> rfl

@[simp] theorem emit_turn (s : State) (m : Message) : (s.emit m).turn = s.turn := rfl
@[simp] theorem emit_last (s : State) (m : Message) : (s.emit m).last = s.last := rfl
@[simp] theorem emit_input (s : State) (m : Message) : (s.emit m).input = s.input := rfl
@[simp] theorem emit_agenda (s : State) (m : Message) : (s.emit m).agenda = s.agenda := rfl
@[simp] theorem emit_draws (s : State) (m : Message) : (s.emit m).draws = s.draws := rfl
@[simp] theorem emit_die (s : State) (m : Message) : (s.emit m).die = s.die := rfl
@[simp] theorem emit_core (s : State) (m : Message) : (s.emit m).core = s.core := rfl
@[simp] theorem emit_seqs (s : State) (m : Message) : (s.emit m).seqs = s.seqs := rfl
@[simp] theorem emit_sc (s : State) (m : Message) : (s.emit m).sc = s.sc := rfl
@[simp] theorem emit_csr (s : State) (m : Message) : (s.emit m).csr = s.csr := rfl
@[simp] theorem emit_q (s : State) (m : Message) : (s.emit m).q = s.q := rfl
@[simp] theorem emit_cycle (s : State) (m : Message) : (s.emit m).cycle = s.cycle := rfl
@[simp] theorem emit_mu (s : State) (m : Message) : (s.emit m).mu = s.mu := rfl
@[simp] theorem emit_mem (s : State) (m : Message) : (s.emit m).mem = s.mem := rfl
@[simp] theorem emit_layout (s : State) (m : Message) : (s.emit m).layout = s.layout := rfl
@[simp] theorem emit_scr (s : State) (m : Message) : (s.emit m).scr = s.scr := rfl
@[simp] theorem emit_vec (s : State) (m : Message) : (s.emit m).vec = s.vec := rfl
@[simp] theorem emit_mat (s : State) (m : Message) : (s.emit m).mat = s.mat := rfl
@[simp] theorem emit_eng (s : State) (m : Message) : (s.emit m).eng = s.eng := rfl
@[simp] theorem emit_logs (s : State) (m : Message) : (s.emit m).logs = s.logs := rfl
@[simp] theorem emit_trap (s : State) (m : Message) : (s.emit m).trap = s.trap := rfl
@[simp] theorem emit_phase (s : State) (m : Message) : (s.emit m).phase = s.phase := rfl
@[simp] theorem emit_task (s : State) (m : Message) : (s.emit m).task = s.task := rfl
@[simp] theorem emit_wharves (s : State) (m : Message) : (s.emit m).wharves = s.wharves := rfl
@[simp] theorem emit_disp (s : State) (m : Message) : (s.emit m).disp = s.disp := rfl
@[simp] theorem emit_pkg (s : State) (m : Message) : (s.emit m).pkg = s.pkg := rfl

@[simp] theorem async_turn (s : State) (a : Async) : (s.async a).turn = s.turn := rfl
@[simp] theorem async_last (s : State) (a : Async) : (s.async a).last = s.last := rfl
@[simp] theorem async_input (s : State) (a : Async) : (s.async a).input = s.input := rfl
@[simp] theorem async_agenda (s : State) (a : Async) : (s.async a).agenda = s.agenda := rfl
@[simp] theorem async_outbox (s : State) (a : Async) : (s.async a).outbox = s.outbox := rfl
@[simp] theorem async_draws (s : State) (a : Async) : (s.async a).draws = s.draws := rfl
@[simp] theorem async_die (s : State) (a : Async) : (s.async a).die = s.die := rfl
@[simp] theorem async_core (s : State) (a : Async) : (s.async a).core = s.core := rfl
@[simp] theorem async_seqs (s : State) (a : Async) : (s.async a).seqs = s.seqs := rfl
@[simp] theorem async_sc (s : State) (a : Async) : (s.async a).sc = s.sc := rfl
@[simp] theorem async_csr (s : State) (a : Async) : (s.async a).csr = s.csr := rfl
@[simp] theorem async_q (s : State) (a : Async) : (s.async a).q = s.q := rfl
@[simp] theorem async_cycle (s : State) (a : Async) : (s.async a).cycle = s.cycle := rfl
@[simp] theorem async_mu (s : State) (a : Async) : (s.async a).mu = s.mu := rfl
@[simp] theorem async_mem (s : State) (a : Async) : (s.async a).mem = s.mem := rfl
@[simp] theorem async_layout (s : State) (a : Async) : (s.async a).layout = s.layout := rfl
@[simp] theorem async_scr (s : State) (a : Async) : (s.async a).scr = s.scr := rfl
@[simp] theorem async_vec (s : State) (a : Async) : (s.async a).vec = s.vec := rfl
@[simp] theorem async_mat (s : State) (a : Async) : (s.async a).mat = s.mat := rfl
@[simp] theorem async_eng (s : State) (a : Async) : (s.async a).eng = s.eng := rfl
@[simp] theorem async_logs (s : State) (a : Async) : (s.async a).logs = s.logs := rfl
@[simp] theorem async_phase (s : State) (a : Async) : (s.async a).phase = s.phase := rfl
@[simp] theorem async_task (s : State) (a : Async) : (s.async a).task = s.task := rfl
@[simp] theorem async_wharves (s : State) (a : Async) : (s.async a).wharves = s.wharves := rfl
@[simp] theorem async_disp (s : State) (a : Async) : (s.async a).disp = s.disp := rfl
@[simp] theorem async_pkg (s : State) (a : Async) : (s.async a).pkg = s.pkg := rfl

@[simp] theorem completed_turn (s : State) : (s.completed).turn = s.turn := rfl
@[simp] theorem completed_input (s : State) : (s.completed).input = s.input := rfl
@[simp] theorem completed_agenda (s : State) : (s.completed).agenda = s.agenda := rfl
@[simp] theorem completed_outbox (s : State) : (s.completed).outbox = s.outbox := rfl
@[simp] theorem completed_draws (s : State) : (s.completed).draws = s.draws := rfl
@[simp] theorem completed_die (s : State) : (s.completed).die = s.die := rfl
@[simp] theorem completed_core (s : State) : (s.completed).core = s.core := rfl
@[simp] theorem completed_seqs (s : State) : (s.completed).seqs = s.seqs := rfl
@[simp] theorem completed_sc (s : State) : (s.completed).sc = s.sc := rfl
@[simp] theorem completed_csr (s : State) : (s.completed).csr = s.csr := rfl
@[simp] theorem completed_q (s : State) : (s.completed).q = s.q := rfl
@[simp] theorem completed_cycle (s : State) : (s.completed).cycle = s.cycle := rfl
@[simp] theorem completed_mu (s : State) : (s.completed).mu = s.mu := rfl
@[simp] theorem completed_mem (s : State) : (s.completed).mem = s.mem := rfl
@[simp] theorem completed_layout (s : State) : (s.completed).layout = s.layout := rfl
@[simp] theorem completed_scr (s : State) : (s.completed).scr = s.scr := rfl
@[simp] theorem completed_vec (s : State) : (s.completed).vec = s.vec := rfl
@[simp] theorem completed_mat (s : State) : (s.completed).mat = s.mat := rfl
@[simp] theorem completed_eng (s : State) : (s.completed).eng = s.eng := rfl
@[simp] theorem completed_logs (s : State) : (s.completed).logs = s.logs := rfl
@[simp] theorem completed_trap (s : State) : (s.completed).trap = s.trap := rfl
@[simp] theorem completed_phase (s : State) : (s.completed).phase = s.phase := rfl
@[simp] theorem completed_task (s : State) : (s.completed).task = s.task := rfl
@[simp] theorem completed_wharves (s : State) : (s.completed).wharves = s.wharves := rfl
@[simp] theorem completed_disp (s : State) : (s.completed).disp = s.disp := rfl
@[simp] theorem completed_pkg (s : State) : (s.completed).pkg = s.pkg := rfl

@[simp] theorem setGranule_turn (s : State) (c : Nat) (g : Granule) : (s.setGranule c g).turn = s.turn := rfl
@[simp] theorem setGranule_last (s : State) (c : Nat) (g : Granule) : (s.setGranule c g).last = s.last := rfl
@[simp] theorem setGranule_input (s : State) (c : Nat) (g : Granule) : (s.setGranule c g).input = s.input := rfl
@[simp] theorem setGranule_agenda (s : State) (c : Nat) (g : Granule) : (s.setGranule c g).agenda = s.agenda := rfl
@[simp] theorem setGranule_outbox (s : State) (c : Nat) (g : Granule) : (s.setGranule c g).outbox = s.outbox := rfl
@[simp] theorem setGranule_draws (s : State) (c : Nat) (g : Granule) : (s.setGranule c g).draws = s.draws := rfl
@[simp] theorem setGranule_die (s : State) (c : Nat) (g : Granule) : (s.setGranule c g).die = s.die := rfl
@[simp] theorem setGranule_core (s : State) (c : Nat) (g : Granule) : (s.setGranule c g).core = s.core := rfl
@[simp] theorem setGranule_seqs (s : State) (c : Nat) (g : Granule) : (s.setGranule c g).seqs = s.seqs := rfl
@[simp] theorem setGranule_sc (s : State) (c : Nat) (g : Granule) : (s.setGranule c g).sc = s.sc := rfl
@[simp] theorem setGranule_csr (s : State) (c : Nat) (g : Granule) : (s.setGranule c g).csr = s.csr := rfl
@[simp] theorem setGranule_q (s : State) (c : Nat) (g : Granule) : (s.setGranule c g).q = s.q := rfl
@[simp] theorem setGranule_cycle (s : State) (c : Nat) (g : Granule) : (s.setGranule c g).cycle = s.cycle := rfl
@[simp] theorem setGranule_mu (s : State) (c : Nat) (g : Granule) : (s.setGranule c g).mu = s.mu := rfl
@[simp] theorem setGranule_layout (s : State) (c : Nat) (g : Granule) : (s.setGranule c g).layout = s.layout := rfl
@[simp] theorem setGranule_scr (s : State) (c : Nat) (g : Granule) : (s.setGranule c g).scr = s.scr := rfl
@[simp] theorem setGranule_vec (s : State) (c : Nat) (g : Granule) : (s.setGranule c g).vec = s.vec := rfl
@[simp] theorem setGranule_mat (s : State) (c : Nat) (g : Granule) : (s.setGranule c g).mat = s.mat := rfl
@[simp] theorem setGranule_eng (s : State) (c : Nat) (g : Granule) : (s.setGranule c g).eng = s.eng := rfl
@[simp] theorem setGranule_logs (s : State) (c : Nat) (g : Granule) : (s.setGranule c g).logs = s.logs := rfl
@[simp] theorem setGranule_trap (s : State) (c : Nat) (g : Granule) : (s.setGranule c g).trap = s.trap := rfl
@[simp] theorem setGranule_phase (s : State) (c : Nat) (g : Granule) : (s.setGranule c g).phase = s.phase := rfl
@[simp] theorem setGranule_task (s : State) (c : Nat) (g : Granule) : (s.setGranule c g).task = s.task := rfl
@[simp] theorem setGranule_wharves (s : State) (c : Nat) (g : Granule) : (s.setGranule c g).wharves = s.wharves := rfl
@[simp] theorem setGranule_disp (s : State) (c : Nat) (g : Granule) : (s.setGranule c g).disp = s.disp := rfl
@[simp] theorem setGranule_pkg (s : State) (c : Nat) (g : Granule) : (s.setGranule c g).pkg = s.pkg := rfl

@[simp] theorem setClaims_turn (s : State) (l : List Claim) : (s.setClaims l).turn = s.turn := rfl
@[simp] theorem setClaims_last (s : State) (l : List Claim) : (s.setClaims l).last = s.last := rfl
@[simp] theorem setClaims_input (s : State) (l : List Claim) : (s.setClaims l).input = s.input := rfl
@[simp] theorem setClaims_agenda (s : State) (l : List Claim) : (s.setClaims l).agenda = s.agenda := rfl
@[simp] theorem setClaims_outbox (s : State) (l : List Claim) : (s.setClaims l).outbox = s.outbox := rfl
@[simp] theorem setClaims_draws (s : State) (l : List Claim) : (s.setClaims l).draws = s.draws := rfl
@[simp] theorem setClaims_die (s : State) (l : List Claim) : (s.setClaims l).die = s.die := rfl
@[simp] theorem setClaims_core (s : State) (l : List Claim) : (s.setClaims l).core = s.core := rfl
@[simp] theorem setClaims_seqs (s : State) (l : List Claim) : (s.setClaims l).seqs = s.seqs := rfl
@[simp] theorem setClaims_sc (s : State) (l : List Claim) : (s.setClaims l).sc = s.sc := rfl
@[simp] theorem setClaims_csr (s : State) (l : List Claim) : (s.setClaims l).csr = s.csr := rfl
@[simp] theorem setClaims_q (s : State) (l : List Claim) : (s.setClaims l).q = s.q := rfl
@[simp] theorem setClaims_cycle (s : State) (l : List Claim) : (s.setClaims l).cycle = s.cycle := rfl
@[simp] theorem setClaims_mu (s : State) (l : List Claim) : (s.setClaims l).mu = s.mu := rfl
@[simp] theorem setClaims_layout (s : State) (l : List Claim) : (s.setClaims l).layout = s.layout := rfl
@[simp] theorem setClaims_scr (s : State) (l : List Claim) : (s.setClaims l).scr = s.scr := rfl
@[simp] theorem setClaims_vec (s : State) (l : List Claim) : (s.setClaims l).vec = s.vec := rfl
@[simp] theorem setClaims_mat (s : State) (l : List Claim) : (s.setClaims l).mat = s.mat := rfl
@[simp] theorem setClaims_eng (s : State) (l : List Claim) : (s.setClaims l).eng = s.eng := rfl
@[simp] theorem setClaims_logs (s : State) (l : List Claim) : (s.setClaims l).logs = s.logs := rfl
@[simp] theorem setClaims_trap (s : State) (l : List Claim) : (s.setClaims l).trap = s.trap := rfl
@[simp] theorem setClaims_phase (s : State) (l : List Claim) : (s.setClaims l).phase = s.phase := rfl
@[simp] theorem setClaims_task (s : State) (l : List Claim) : (s.setClaims l).task = s.task := rfl
@[simp] theorem setClaims_wharves (s : State) (l : List Claim) : (s.setClaims l).wharves = s.wharves := rfl
@[simp] theorem setClaims_disp (s : State) (l : List Claim) : (s.setClaims l).disp = s.disp := rfl
@[simp] theorem setClaims_pkg (s : State) (l : List Claim) : (s.setClaims l).pkg = s.pkg := rfl

@[simp] theorem setTlb_turn (s : State) (l : List TlbEntry) : (s.setTlb l).turn = s.turn := rfl
@[simp] theorem setTlb_last (s : State) (l : List TlbEntry) : (s.setTlb l).last = s.last := rfl
@[simp] theorem setTlb_input (s : State) (l : List TlbEntry) : (s.setTlb l).input = s.input := rfl
@[simp] theorem setTlb_agenda (s : State) (l : List TlbEntry) : (s.setTlb l).agenda = s.agenda := rfl
@[simp] theorem setTlb_outbox (s : State) (l : List TlbEntry) : (s.setTlb l).outbox = s.outbox := rfl
@[simp] theorem setTlb_draws (s : State) (l : List TlbEntry) : (s.setTlb l).draws = s.draws := rfl
@[simp] theorem setTlb_die (s : State) (l : List TlbEntry) : (s.setTlb l).die = s.die := rfl
@[simp] theorem setTlb_core (s : State) (l : List TlbEntry) : (s.setTlb l).core = s.core := rfl
@[simp] theorem setTlb_seqs (s : State) (l : List TlbEntry) : (s.setTlb l).seqs = s.seqs := rfl
@[simp] theorem setTlb_sc (s : State) (l : List TlbEntry) : (s.setTlb l).sc = s.sc := rfl
@[simp] theorem setTlb_csr (s : State) (l : List TlbEntry) : (s.setTlb l).csr = s.csr := rfl
@[simp] theorem setTlb_q (s : State) (l : List TlbEntry) : (s.setTlb l).q = s.q := rfl
@[simp] theorem setTlb_cycle (s : State) (l : List TlbEntry) : (s.setTlb l).cycle = s.cycle := rfl
@[simp] theorem setTlb_mem (s : State) (l : List TlbEntry) : (s.setTlb l).mem = s.mem := rfl
@[simp] theorem setTlb_layout (s : State) (l : List TlbEntry) : (s.setTlb l).layout = s.layout := rfl
@[simp] theorem setTlb_scr (s : State) (l : List TlbEntry) : (s.setTlb l).scr = s.scr := rfl
@[simp] theorem setTlb_vec (s : State) (l : List TlbEntry) : (s.setTlb l).vec = s.vec := rfl
@[simp] theorem setTlb_mat (s : State) (l : List TlbEntry) : (s.setTlb l).mat = s.mat := rfl
@[simp] theorem setTlb_eng (s : State) (l : List TlbEntry) : (s.setTlb l).eng = s.eng := rfl
@[simp] theorem setTlb_logs (s : State) (l : List TlbEntry) : (s.setTlb l).logs = s.logs := rfl
@[simp] theorem setTlb_trap (s : State) (l : List TlbEntry) : (s.setTlb l).trap = s.trap := rfl
@[simp] theorem setTlb_phase (s : State) (l : List TlbEntry) : (s.setTlb l).phase = s.phase := rfl
@[simp] theorem setTlb_task (s : State) (l : List TlbEntry) : (s.setTlb l).task = s.task := rfl
@[simp] theorem setTlb_wharves (s : State) (l : List TlbEntry) : (s.setTlb l).wharves = s.wharves := rfl
@[simp] theorem setTlb_disp (s : State) (l : List TlbEntry) : (s.setTlb l).disp = s.disp := rfl
@[simp] theorem setTlb_pkg (s : State) (l : List TlbEntry) : (s.setTlb l).pkg = s.pkg := rfl

@[simp] theorem dropLine_turn (s : State) (n : Nat) : (s.dropLine n).turn = s.turn := rfl
@[simp] theorem dropLine_last (s : State) (n : Nat) : (s.dropLine n).last = s.last := rfl
@[simp] theorem dropLine_input (s : State) (n : Nat) : (s.dropLine n).input = s.input := rfl
@[simp] theorem dropLine_agenda (s : State) (n : Nat) : (s.dropLine n).agenda = s.agenda := rfl
@[simp] theorem dropLine_outbox (s : State) (n : Nat) : (s.dropLine n).outbox = s.outbox := rfl
@[simp] theorem dropLine_draws (s : State) (n : Nat) : (s.dropLine n).draws = s.draws := rfl
@[simp] theorem dropLine_die (s : State) (n : Nat) : (s.dropLine n).die = s.die := rfl
@[simp] theorem dropLine_core (s : State) (n : Nat) : (s.dropLine n).core = s.core := rfl
@[simp] theorem dropLine_seqs (s : State) (n : Nat) : (s.dropLine n).seqs = s.seqs := rfl
@[simp] theorem dropLine_sc (s : State) (n : Nat) : (s.dropLine n).sc = s.sc := rfl
@[simp] theorem dropLine_csr (s : State) (n : Nat) : (s.dropLine n).csr = s.csr := rfl
@[simp] theorem dropLine_q (s : State) (n : Nat) : (s.dropLine n).q = s.q := rfl
@[simp] theorem dropLine_cycle (s : State) (n : Nat) : (s.dropLine n).cycle = s.cycle := rfl
@[simp] theorem dropLine_mem (s : State) (n : Nat) : (s.dropLine n).mem = s.mem := rfl
@[simp] theorem dropLine_layout (s : State) (n : Nat) : (s.dropLine n).layout = s.layout := rfl
@[simp] theorem dropLine_scr (s : State) (n : Nat) : (s.dropLine n).scr = s.scr := rfl
@[simp] theorem dropLine_vec (s : State) (n : Nat) : (s.dropLine n).vec = s.vec := rfl
@[simp] theorem dropLine_mat (s : State) (n : Nat) : (s.dropLine n).mat = s.mat := rfl
@[simp] theorem dropLine_eng (s : State) (n : Nat) : (s.dropLine n).eng = s.eng := rfl
@[simp] theorem dropLine_logs (s : State) (n : Nat) : (s.dropLine n).logs = s.logs := rfl
@[simp] theorem dropLine_trap (s : State) (n : Nat) : (s.dropLine n).trap = s.trap := rfl
@[simp] theorem dropLine_phase (s : State) (n : Nat) : (s.dropLine n).phase = s.phase := rfl
@[simp] theorem dropLine_task (s : State) (n : Nat) : (s.dropLine n).task = s.task := rfl
@[simp] theorem dropLine_wharves (s : State) (n : Nat) : (s.dropLine n).wharves = s.wharves := rfl
@[simp] theorem dropLine_disp (s : State) (n : Nat) : (s.dropLine n).disp = s.disp := rfl
@[simp] theorem dropLine_pkg (s : State) (n : Nat) : (s.dropLine n).pkg = s.pkg := rfl

@[simp] theorem setTokens_turn (s : State) (i : BitVec 3) (n : Nat) : (s.setTokens i n).turn = s.turn := rfl
@[simp] theorem setTokens_last (s : State) (i : BitVec 3) (n : Nat) : (s.setTokens i n).last = s.last := rfl
@[simp] theorem setTokens_input (s : State) (i : BitVec 3) (n : Nat) : (s.setTokens i n).input = s.input := rfl
@[simp] theorem setTokens_agenda (s : State) (i : BitVec 3) (n : Nat) : (s.setTokens i n).agenda = s.agenda := rfl
@[simp] theorem setTokens_outbox (s : State) (i : BitVec 3) (n : Nat) : (s.setTokens i n).outbox = s.outbox := rfl
@[simp] theorem setTokens_draws (s : State) (i : BitVec 3) (n : Nat) : (s.setTokens i n).draws = s.draws := rfl
@[simp] theorem setTokens_die (s : State) (i : BitVec 3) (n : Nat) : (s.setTokens i n).die = s.die := rfl
@[simp] theorem setTokens_core (s : State) (i : BitVec 3) (n : Nat) : (s.setTokens i n).core = s.core := rfl
@[simp] theorem setTokens_seqs (s : State) (i : BitVec 3) (n : Nat) : (s.setTokens i n).seqs = s.seqs := rfl
@[simp] theorem setTokens_sc (s : State) (i : BitVec 3) (n : Nat) : (s.setTokens i n).sc = s.sc := rfl
@[simp] theorem setTokens_csr (s : State) (i : BitVec 3) (n : Nat) : (s.setTokens i n).csr = s.csr := rfl
@[simp] theorem setTokens_cycle (s : State) (i : BitVec 3) (n : Nat) : (s.setTokens i n).cycle = s.cycle := rfl
@[simp] theorem setTokens_mu (s : State) (i : BitVec 3) (n : Nat) : (s.setTokens i n).mu = s.mu := rfl
@[simp] theorem setTokens_mem (s : State) (i : BitVec 3) (n : Nat) : (s.setTokens i n).mem = s.mem := rfl
@[simp] theorem setTokens_layout (s : State) (i : BitVec 3) (n : Nat) : (s.setTokens i n).layout = s.layout := rfl
@[simp] theorem setTokens_scr (s : State) (i : BitVec 3) (n : Nat) : (s.setTokens i n).scr = s.scr := rfl
@[simp] theorem setTokens_vec (s : State) (i : BitVec 3) (n : Nat) : (s.setTokens i n).vec = s.vec := rfl
@[simp] theorem setTokens_mat (s : State) (i : BitVec 3) (n : Nat) : (s.setTokens i n).mat = s.mat := rfl
@[simp] theorem setTokens_eng (s : State) (i : BitVec 3) (n : Nat) : (s.setTokens i n).eng = s.eng := rfl
@[simp] theorem setTokens_logs (s : State) (i : BitVec 3) (n : Nat) : (s.setTokens i n).logs = s.logs := rfl
@[simp] theorem setTokens_trap (s : State) (i : BitVec 3) (n : Nat) : (s.setTokens i n).trap = s.trap := rfl
@[simp] theorem setTokens_phase (s : State) (i : BitVec 3) (n : Nat) : (s.setTokens i n).phase = s.phase := rfl
@[simp] theorem setTokens_task (s : State) (i : BitVec 3) (n : Nat) : (s.setTokens i n).task = s.task := rfl
@[simp] theorem setTokens_wharves (s : State) (i : BitVec 3) (n : Nat) : (s.setTokens i n).wharves = s.wharves := rfl
@[simp] theorem setTokens_disp (s : State) (i : BitVec 3) (n : Nat) : (s.setTokens i n).disp = s.disp := rfl
@[simp] theorem setTokens_pkg (s : State) (i : BitVec 3) (n : Nat) : (s.setTokens i n).pkg = s.pkg := rfl

@[simp] theorem setReady_turn (s : State) (k t : Nat) : (s.setReady k t).turn = s.turn := rfl
@[simp] theorem setReady_last (s : State) (k t : Nat) : (s.setReady k t).last = s.last := rfl
@[simp] theorem setReady_input (s : State) (k t : Nat) : (s.setReady k t).input = s.input := rfl
@[simp] theorem setReady_agenda (s : State) (k t : Nat) : (s.setReady k t).agenda = s.agenda := rfl
@[simp] theorem setReady_outbox (s : State) (k t : Nat) : (s.setReady k t).outbox = s.outbox := rfl
@[simp] theorem setReady_draws (s : State) (k t : Nat) : (s.setReady k t).draws = s.draws := rfl
@[simp] theorem setReady_die (s : State) (k t : Nat) : (s.setReady k t).die = s.die := rfl
@[simp] theorem setReady_core (s : State) (k t : Nat) : (s.setReady k t).core = s.core := rfl
@[simp] theorem setReady_seqs (s : State) (k t : Nat) : (s.setReady k t).seqs = s.seqs := rfl
@[simp] theorem setReady_sc (s : State) (k t : Nat) : (s.setReady k t).sc = s.sc := rfl
@[simp] theorem setReady_csr (s : State) (k t : Nat) : (s.setReady k t).csr = s.csr := rfl
@[simp] theorem setReady_q (s : State) (k t : Nat) : (s.setReady k t).q = s.q := rfl
@[simp] theorem setReady_cycle (s : State) (k t : Nat) : (s.setReady k t).cycle = s.cycle := rfl
@[simp] theorem setReady_mu (s : State) (k t : Nat) : (s.setReady k t).mu = s.mu := rfl
@[simp] theorem setReady_mem (s : State) (k t : Nat) : (s.setReady k t).mem = s.mem := rfl
@[simp] theorem setReady_layout (s : State) (k t : Nat) : (s.setReady k t).layout = s.layout := rfl
@[simp] theorem setReady_scr (s : State) (k t : Nat) : (s.setReady k t).scr = s.scr := rfl
@[simp] theorem setReady_mat (s : State) (k t : Nat) : (s.setReady k t).mat = s.mat := rfl
@[simp] theorem setReady_eng (s : State) (k t : Nat) : (s.setReady k t).eng = s.eng := rfl
@[simp] theorem setReady_logs (s : State) (k t : Nat) : (s.setReady k t).logs = s.logs := rfl
@[simp] theorem setReady_trap (s : State) (k t : Nat) : (s.setReady k t).trap = s.trap := rfl
@[simp] theorem setReady_phase (s : State) (k t : Nat) : (s.setReady k t).phase = s.phase := rfl
@[simp] theorem setReady_task (s : State) (k t : Nat) : (s.setReady k t).task = s.task := rfl
@[simp] theorem setReady_wharves (s : State) (k t : Nat) : (s.setReady k t).wharves = s.wharves := rfl
@[simp] theorem setReady_disp (s : State) (k t : Nat) : (s.setReady k t).disp = s.disp := rfl
@[simp] theorem setReady_pkg (s : State) (k t : Nat) : (s.setReady k t).pkg = s.pkg := rfl

@[simp] theorem setInPort_turn (s : State) (n : Nat) (p : InPort) : (s.setInPort n p).turn = s.turn := rfl
@[simp] theorem setInPort_last (s : State) (n : Nat) (p : InPort) : (s.setInPort n p).last = s.last := rfl
@[simp] theorem setInPort_input (s : State) (n : Nat) (p : InPort) : (s.setInPort n p).input = s.input := rfl
@[simp] theorem setInPort_agenda (s : State) (n : Nat) (p : InPort) : (s.setInPort n p).agenda = s.agenda := rfl
@[simp] theorem setInPort_outbox (s : State) (n : Nat) (p : InPort) : (s.setInPort n p).outbox = s.outbox := rfl
@[simp] theorem setInPort_draws (s : State) (n : Nat) (p : InPort) : (s.setInPort n p).draws = s.draws := rfl
@[simp] theorem setInPort_die (s : State) (n : Nat) (p : InPort) : (s.setInPort n p).die = s.die := rfl
@[simp] theorem setInPort_core (s : State) (n : Nat) (p : InPort) : (s.setInPort n p).core = s.core := rfl
@[simp] theorem setInPort_seqs (s : State) (n : Nat) (p : InPort) : (s.setInPort n p).seqs = s.seqs := rfl
@[simp] theorem setInPort_sc (s : State) (n : Nat) (p : InPort) : (s.setInPort n p).sc = s.sc := rfl
@[simp] theorem setInPort_csr (s : State) (n : Nat) (p : InPort) : (s.setInPort n p).csr = s.csr := rfl
@[simp] theorem setInPort_q (s : State) (n : Nat) (p : InPort) : (s.setInPort n p).q = s.q := rfl
@[simp] theorem setInPort_cycle (s : State) (n : Nat) (p : InPort) : (s.setInPort n p).cycle = s.cycle := rfl
@[simp] theorem setInPort_mu (s : State) (n : Nat) (p : InPort) : (s.setInPort n p).mu = s.mu := rfl
@[simp] theorem setInPort_mem (s : State) (n : Nat) (p : InPort) : (s.setInPort n p).mem = s.mem := rfl
@[simp] theorem setInPort_layout (s : State) (n : Nat) (p : InPort) : (s.setInPort n p).layout = s.layout := rfl
@[simp] theorem setInPort_scr (s : State) (n : Nat) (p : InPort) : (s.setInPort n p).scr = s.scr := rfl
@[simp] theorem setInPort_mat (s : State) (n : Nat) (p : InPort) : (s.setInPort n p).mat = s.mat := rfl
@[simp] theorem setInPort_eng (s : State) (n : Nat) (p : InPort) : (s.setInPort n p).eng = s.eng := rfl
@[simp] theorem setInPort_logs (s : State) (n : Nat) (p : InPort) : (s.setInPort n p).logs = s.logs := rfl
@[simp] theorem setInPort_trap (s : State) (n : Nat) (p : InPort) : (s.setInPort n p).trap = s.trap := rfl
@[simp] theorem setInPort_phase (s : State) (n : Nat) (p : InPort) : (s.setInPort n p).phase = s.phase := rfl
@[simp] theorem setInPort_task (s : State) (n : Nat) (p : InPort) : (s.setInPort n p).task = s.task := rfl
@[simp] theorem setInPort_wharves (s : State) (n : Nat) (p : InPort) : (s.setInPort n p).wharves = s.wharves := rfl
@[simp] theorem setInPort_disp (s : State) (n : Nat) (p : InPort) : (s.setInPort n p).disp = s.disp := rfl
@[simp] theorem setInPort_pkg (s : State) (n : Nat) (p : InPort) : (s.setInPort n p).pkg = s.pkg := rfl

@[simp] theorem setOutPort_turn (s : State) (n : Nat) (p : OutPort) : (s.setOutPort n p).turn = s.turn := rfl
@[simp] theorem setOutPort_last (s : State) (n : Nat) (p : OutPort) : (s.setOutPort n p).last = s.last := rfl
@[simp] theorem setOutPort_input (s : State) (n : Nat) (p : OutPort) : (s.setOutPort n p).input = s.input := rfl
@[simp] theorem setOutPort_agenda (s : State) (n : Nat) (p : OutPort) : (s.setOutPort n p).agenda = s.agenda := rfl
@[simp] theorem setOutPort_outbox (s : State) (n : Nat) (p : OutPort) : (s.setOutPort n p).outbox = s.outbox := rfl
@[simp] theorem setOutPort_draws (s : State) (n : Nat) (p : OutPort) : (s.setOutPort n p).draws = s.draws := rfl
@[simp] theorem setOutPort_die (s : State) (n : Nat) (p : OutPort) : (s.setOutPort n p).die = s.die := rfl
@[simp] theorem setOutPort_core (s : State) (n : Nat) (p : OutPort) : (s.setOutPort n p).core = s.core := rfl
@[simp] theorem setOutPort_seqs (s : State) (n : Nat) (p : OutPort) : (s.setOutPort n p).seqs = s.seqs := rfl
@[simp] theorem setOutPort_sc (s : State) (n : Nat) (p : OutPort) : (s.setOutPort n p).sc = s.sc := rfl
@[simp] theorem setOutPort_csr (s : State) (n : Nat) (p : OutPort) : (s.setOutPort n p).csr = s.csr := rfl
@[simp] theorem setOutPort_q (s : State) (n : Nat) (p : OutPort) : (s.setOutPort n p).q = s.q := rfl
@[simp] theorem setOutPort_cycle (s : State) (n : Nat) (p : OutPort) : (s.setOutPort n p).cycle = s.cycle := rfl
@[simp] theorem setOutPort_mu (s : State) (n : Nat) (p : OutPort) : (s.setOutPort n p).mu = s.mu := rfl
@[simp] theorem setOutPort_mem (s : State) (n : Nat) (p : OutPort) : (s.setOutPort n p).mem = s.mem := rfl
@[simp] theorem setOutPort_layout (s : State) (n : Nat) (p : OutPort) : (s.setOutPort n p).layout = s.layout := rfl
@[simp] theorem setOutPort_scr (s : State) (n : Nat) (p : OutPort) : (s.setOutPort n p).scr = s.scr := rfl
@[simp] theorem setOutPort_mat (s : State) (n : Nat) (p : OutPort) : (s.setOutPort n p).mat = s.mat := rfl
@[simp] theorem setOutPort_eng (s : State) (n : Nat) (p : OutPort) : (s.setOutPort n p).eng = s.eng := rfl
@[simp] theorem setOutPort_logs (s : State) (n : Nat) (p : OutPort) : (s.setOutPort n p).logs = s.logs := rfl
@[simp] theorem setOutPort_trap (s : State) (n : Nat) (p : OutPort) : (s.setOutPort n p).trap = s.trap := rfl
@[simp] theorem setOutPort_phase (s : State) (n : Nat) (p : OutPort) : (s.setOutPort n p).phase = s.phase := rfl
@[simp] theorem setOutPort_task (s : State) (n : Nat) (p : OutPort) : (s.setOutPort n p).task = s.task := rfl
@[simp] theorem setOutPort_wharves (s : State) (n : Nat) (p : OutPort) : (s.setOutPort n p).wharves = s.wharves := rfl
@[simp] theorem setOutPort_disp (s : State) (n : Nat) (p : OutPort) : (s.setOutPort n p).disp = s.disp := rfl
@[simp] theorem setOutPort_pkg (s : State) (n : Nat) (p : OutPort) : (s.setOutPort n p).pkg = s.pkg := rfl

@[simp] theorem setAcc_turn (s : State) (n : Nat) (e : SMap Word32) (f : BitVec 4) : (s.setAcc n e f).turn = s.turn := rfl
@[simp] theorem setAcc_last (s : State) (n : Nat) (e : SMap Word32) (f : BitVec 4) : (s.setAcc n e f).last = s.last := rfl
@[simp] theorem setAcc_input (s : State) (n : Nat) (e : SMap Word32) (f : BitVec 4) : (s.setAcc n e f).input = s.input := rfl
@[simp] theorem setAcc_agenda (s : State) (n : Nat) (e : SMap Word32) (f : BitVec 4) : (s.setAcc n e f).agenda = s.agenda := rfl
@[simp] theorem setAcc_outbox (s : State) (n : Nat) (e : SMap Word32) (f : BitVec 4) : (s.setAcc n e f).outbox = s.outbox := rfl
@[simp] theorem setAcc_draws (s : State) (n : Nat) (e : SMap Word32) (f : BitVec 4) : (s.setAcc n e f).draws = s.draws := rfl
@[simp] theorem setAcc_die (s : State) (n : Nat) (e : SMap Word32) (f : BitVec 4) : (s.setAcc n e f).die = s.die := rfl
@[simp] theorem setAcc_core (s : State) (n : Nat) (e : SMap Word32) (f : BitVec 4) : (s.setAcc n e f).core = s.core := rfl
@[simp] theorem setAcc_seqs (s : State) (n : Nat) (e : SMap Word32) (f : BitVec 4) : (s.setAcc n e f).seqs = s.seqs := rfl
@[simp] theorem setAcc_sc (s : State) (n : Nat) (e : SMap Word32) (f : BitVec 4) : (s.setAcc n e f).sc = s.sc := rfl
@[simp] theorem setAcc_csr (s : State) (n : Nat) (e : SMap Word32) (f : BitVec 4) : (s.setAcc n e f).csr = s.csr := rfl
@[simp] theorem setAcc_q (s : State) (n : Nat) (e : SMap Word32) (f : BitVec 4) : (s.setAcc n e f).q = s.q := rfl
@[simp] theorem setAcc_cycle (s : State) (n : Nat) (e : SMap Word32) (f : BitVec 4) : (s.setAcc n e f).cycle = s.cycle := rfl
@[simp] theorem setAcc_mu (s : State) (n : Nat) (e : SMap Word32) (f : BitVec 4) : (s.setAcc n e f).mu = s.mu := rfl
@[simp] theorem setAcc_mem (s : State) (n : Nat) (e : SMap Word32) (f : BitVec 4) : (s.setAcc n e f).mem = s.mem := rfl
@[simp] theorem setAcc_layout (s : State) (n : Nat) (e : SMap Word32) (f : BitVec 4) : (s.setAcc n e f).layout = s.layout := rfl
@[simp] theorem setAcc_scr (s : State) (n : Nat) (e : SMap Word32) (f : BitVec 4) : (s.setAcc n e f).scr = s.scr := rfl
@[simp] theorem setAcc_vec (s : State) (n : Nat) (e : SMap Word32) (f : BitVec 4) : (s.setAcc n e f).vec = s.vec := rfl
@[simp] theorem setAcc_eng (s : State) (n : Nat) (e : SMap Word32) (f : BitVec 4) : (s.setAcc n e f).eng = s.eng := rfl
@[simp] theorem setAcc_logs (s : State) (n : Nat) (e : SMap Word32) (f : BitVec 4) : (s.setAcc n e f).logs = s.logs := rfl
@[simp] theorem setAcc_trap (s : State) (n : Nat) (e : SMap Word32) (f : BitVec 4) : (s.setAcc n e f).trap = s.trap := rfl
@[simp] theorem setAcc_phase (s : State) (n : Nat) (e : SMap Word32) (f : BitVec 4) : (s.setAcc n e f).phase = s.phase := rfl
@[simp] theorem setAcc_task (s : State) (n : Nat) (e : SMap Word32) (f : BitVec 4) : (s.setAcc n e f).task = s.task := rfl
@[simp] theorem setAcc_wharves (s : State) (n : Nat) (e : SMap Word32) (f : BitVec 4) : (s.setAcc n e f).wharves = s.wharves := rfl
@[simp] theorem setAcc_disp (s : State) (n : Nat) (e : SMap Word32) (f : BitVec 4) : (s.setAcc n e f).disp = s.disp := rfl
@[simp] theorem setAcc_pkg (s : State) (n : Nat) (e : SMap Word32) (f : BitVec 4) : (s.setAcc n e f).pkg = s.pkg := rfl

@[simp] theorem setWharf_turn (s : State) (w : WharfId) (x : Wharf) : (s.setWharf w x).turn = s.turn := rfl
@[simp] theorem setWharf_last (s : State) (w : WharfId) (x : Wharf) : (s.setWharf w x).last = s.last := rfl
@[simp] theorem setWharf_input (s : State) (w : WharfId) (x : Wharf) : (s.setWharf w x).input = s.input := rfl
@[simp] theorem setWharf_agenda (s : State) (w : WharfId) (x : Wharf) : (s.setWharf w x).agenda = s.agenda := rfl
@[simp] theorem setWharf_outbox (s : State) (w : WharfId) (x : Wharf) : (s.setWharf w x).outbox = s.outbox := rfl
@[simp] theorem setWharf_draws (s : State) (w : WharfId) (x : Wharf) : (s.setWharf w x).draws = s.draws := rfl
@[simp] theorem setWharf_die (s : State) (w : WharfId) (x : Wharf) : (s.setWharf w x).die = s.die := rfl
@[simp] theorem setWharf_core (s : State) (w : WharfId) (x : Wharf) : (s.setWharf w x).core = s.core := rfl
@[simp] theorem setWharf_seqs (s : State) (w : WharfId) (x : Wharf) : (s.setWharf w x).seqs = s.seqs := rfl
@[simp] theorem setWharf_sc (s : State) (w : WharfId) (x : Wharf) : (s.setWharf w x).sc = s.sc := rfl
@[simp] theorem setWharf_csr (s : State) (w : WharfId) (x : Wharf) : (s.setWharf w x).csr = s.csr := rfl
@[simp] theorem setWharf_q (s : State) (w : WharfId) (x : Wharf) : (s.setWharf w x).q = s.q := rfl
@[simp] theorem setWharf_cycle (s : State) (w : WharfId) (x : Wharf) : (s.setWharf w x).cycle = s.cycle := rfl
@[simp] theorem setWharf_mu (s : State) (w : WharfId) (x : Wharf) : (s.setWharf w x).mu = s.mu := rfl
@[simp] theorem setWharf_mem (s : State) (w : WharfId) (x : Wharf) : (s.setWharf w x).mem = s.mem := rfl
@[simp] theorem setWharf_layout (s : State) (w : WharfId) (x : Wharf) : (s.setWharf w x).layout = s.layout := rfl
@[simp] theorem setWharf_scr (s : State) (w : WharfId) (x : Wharf) : (s.setWharf w x).scr = s.scr := rfl
@[simp] theorem setWharf_vec (s : State) (w : WharfId) (x : Wharf) : (s.setWharf w x).vec = s.vec := rfl
@[simp] theorem setWharf_mat (s : State) (w : WharfId) (x : Wharf) : (s.setWharf w x).mat = s.mat := rfl
@[simp] theorem setWharf_eng (s : State) (w : WharfId) (x : Wharf) : (s.setWharf w x).eng = s.eng := rfl
@[simp] theorem setWharf_logs (s : State) (w : WharfId) (x : Wharf) : (s.setWharf w x).logs = s.logs := rfl
@[simp] theorem setWharf_trap (s : State) (w : WharfId) (x : Wharf) : (s.setWharf w x).trap = s.trap := rfl
@[simp] theorem setWharf_phase (s : State) (w : WharfId) (x : Wharf) : (s.setWharf w x).phase = s.phase := rfl
@[simp] theorem setWharf_task (s : State) (w : WharfId) (x : Wharf) : (s.setWharf w x).task = s.task := rfl
@[simp] theorem setWharf_disp (s : State) (w : WharfId) (x : Wharf) : (s.setWharf w x).disp = s.disp := rfl
@[simp] theorem setWharf_pkg (s : State) (w : WharfId) (x : Wharf) : (s.setWharf w x).pkg = s.pkg := rfl

end Sys2Proof.Machine
end

