-- ==== Sys2Proof/Laws/Ops.lean ====
section
/-! SUPPORT. Reading a register after it was written, and how a meaning ends. -/
namespace Sys2Proof.Machine

theorem seqs_set_seqOf (s : State) (q r : Seq) (x : SeqRegs) :
    (s.setSeq q x).seqOf r = if r = q then x else s.seqOf r := by
  cases q <;> cases r <;> rfl

@[simp] theorem seqOf_setSeq_same (s : State) (q : Seq) (x : SeqRegs) : (s.setSeq q x).seqOf q = x := by
  cases q <;> rfl

@[simp] theorem pcOf_setPc_same (s : State) (q : Seq) (a : Addr) : (s.setPc q a).pcOf q = a := by
  cases q <;> rfl

theorem pcOf_setPc_other (s : State) {q r : Seq} (a : Addr) (h : r ≠ q) : (s.setPc q a).pcOf r = s.pcOf r := by
  cases q <;> cases r <;> first | rfl | exact absurd rfl h

@[simp] theorem pcOf_advance_same (s : State) (q : Seq) : (s.advance q).pcOf q = s.nextPc q := by
  cases q <;> rfl

/-- Moving a program counter leaves the predicates, the loop counters and the running mark of every sequencer. -/
theorem setPc_seq (s : State) (q r : Seq) (a : Addr) :
    ((s.setPc q a).seqOf r).p = (s.seqOf r).p ∧ ((s.setPc q a).seqOf r).lc = (s.seqOf r).lc ∧
      ((s.setPc q a).seqOf r).run = (s.seqOf r).run := by
  cases q <;> cases r <;> exact ⟨rfl, rfl, rfl⟩

@[simp] theorem gReg_zero (s : State) : s.gReg 0 = 0 := rfl

theorem gReg_setG (s : State) (i j : BitVec 5) (v : Word64) :
    (s.setG i v).gReg j = if j = 0 then 0 else if j = i then v else s.gReg j := by
  unfold State.setG State.gReg
  by_cases hj : j = 0
  · simp [hj]
  · by_cases hi : i = 0
    · have h2 : ¬ j = i := by rw [hi]; exact hj
      rw [if_pos hi, if_neg hj, if_neg hj, if_neg h2]
    · simp only [hj, hi, ↓reduceIte, mget_mset, BitVec.toNat_inj]

@[simp] theorem gReg_of_sc {s t : State} (h : t.sc = s.sc) (j : BitVec 5) : t.gReg j = s.gReg j := by
  unfold State.gReg; rw [h]

theorem aReg_setA (s : State) (i j : BitVec 5) (v : Addr) :
    (s.setA i v).aReg j = if j = i then v else s.aReg j := by
  unfold State.setA State.aReg
  simp only [mget_mset, BitVec.toNat_inj]

theorem mReg_setM (s : State) (i j : BitVec 3) (v : Word64) :
    (s.setM i v).mReg j = if j = i then v else s.mReg j := by
  unfold State.setM State.mReg
  simp only [mget_mset, BitVec.toNat_inj]

theorem csrOf_setCsr (s : State) (n m : Nat) (v : Word64) :
    (s.setCsr n v).csrOf m = if m = n then v else s.csrOf m := by
  unfold State.setCsr State.csrOf
  by_cases h : m = n
  · subst h; simp
  · simp [mget_mset_ne, h]

theorem cfgOf_setCfg (s : State) (a b : Nat) (v : Word64) :
    (s.setCfg a v).cfgOf b = if b = a then v else s.cfgOf b := by
  unfold State.setCfg State.cfgOf
  by_cases h : b = a
  · subst h; simp
  · simp [mget_mset_ne, h]

/-- A word or event that ends well answers a next state. -/
@[simp] theorem finish_ok (q : Seq) (s t : State) : finish q s (.ok t) = .next t.completed := rfl
@[simp] theorem finish_wait (q : Seq) (s t : State) : finish q s (.wait t) = .next { t with last := .waits } := rfl
@[simp] theorem finish_trap (q : Seq) (s : State) (c : Cause) (tv : Word64) (a : Addr) :
    finish q s (.trap c tv a) = .next { (s.failedMiss q c a).take c q (s.pcOf q) false tv a with last := .raised c tv a } := rfl
theorem occur_eq (s : State) : occur s = .next s.completed := rfl

/-- How a meaning ends is always a next state. -/
theorem finish_next (q : Seq) (s : State) (r : Res) : ∃ t, finish q s r = .next t := by
  cases r with
  | poisoned x go =>
    simp only [finish]
    split
    · exact ⟨_, rfl⟩
    · cases go <;> exact ⟨_, rfl⟩
  | _ => exact ⟨_, rfl⟩

end Sys2Proof.Machine
end

