-- ==== Sys2Proof/Laws/Scalar.lean ====
section
/-! SUPPORT. The ends of the scalar words: what a word that writes gD, aD or pD leaves. -/
namespace Sys2Proof.Machine

/-- A meaning that is `writeG` writes gD and changes nothing else. -/
theorem writesG_of (i : Instr) (d : BitVec 5) (v : State → Word64) (h : ∀ s, exec i s = writeG d (v s) s) :
    WritesG i d v := by
  intro s
  refine ⟨((s.setG d (v s)).advance .control).completed, by rw [h]; rfl, rfl, ?_, ?_, ⟨?_, ?_, ?_, ?_, ?_⟩, ⟨?_, ?_⟩, ?_⟩
  · rw [gReg_of_sc (s := s.setG d (v s)) (by simp), gReg_setG]; split <;> simp
  · simp [State.pcOf, State.completed, State.advance, State.setPc, State.setSeq, State.nextPc]
    unfold State.setG; split <;> rfl
  · intro r hr
    rw [gReg_of_sc (s := s.setG d (v s)) (by simp), gReg_setG]
    simp [hr]; intro h0; subst h0; rfl
  · intro r; show State.aReg (s.setG d (v s)) r = _; unfold State.setG; split <;> rfl
  · intro r; show State.mReg (s.setG d (v s)) r = _; unfold State.setG; split <;> rfl
  · show (s.setG d (v s)).sc.bankG = _; unfold State.setG; split <;> rfl
  · show (s.setG d (v s)).sc.bankA = _; unfold State.setG; split <;> rfl
  · intro q; unfold State.setG; split <;> cases q <;> exact ⟨rfl, rfl, rfl⟩
  · intro q hq; unfold State.setG; split <;> cases q <;> first | rfl | exact absurd rfl hq
  · unfold KeepsBeyondScalars State.setG; split <;> rfl

/-- A meaning that is `writeA` writes aD and changes nothing else. -/
theorem writesA_of (i : Instr) (d : BitVec 5) (v : State → Addr) (h : ∀ s, exec i s = writeA d (v s) s) :
    WritesA i d v := by
  intro s
  refine ⟨((s.setA d (v s)).advance .control).completed, by rw [h]; rfl, rfl, ?_, rfl, ⟨?_, ?_, ?_, ?_, ?_⟩, ⟨?_, ?_⟩, rfl⟩
  · show (s.setA d (v s)).aReg d = _; simp [aReg_setA]
  · intro r; rfl
  · intro r hr; show (s.setA d (v s)).aReg r = _; simp [aReg_setA, hr]
  · intro r; rfl
  · rfl
  · rfl
  · intro q; cases q <;> exact ⟨rfl, rfl, rfl⟩
  · intro q hq; cases q <;> first | rfl | exact absurd rfl hq

/-- A bit of a field that was put. -/
theorem getLsbD_put {n : Nat} (w : BitVec n) (lo len v j : Nat) (h : lo + len ≤ n) :
    (put w lo len v).getLsbD j = if lo ≤ j ∧ j < lo + len then v.testBit (j - lo) else w.getLsbD j := by
  unfold put
  simp only [BitVec.getLsbD_or, BitVec.getLsbD_and, BitVec.getLsbD_not, BitVec.getLsbD_shiftLeft, BitVec.getLsbD_ofNat,
    Nat.testBit_two_pow_sub_one, Nat.testBit_mod_two_pow]
  by_cases hj : j < n
  · by_cases h1 : j < lo
    · have : ¬ lo ≤ j := by omega
      simp [hj, h1, this]
    · by_cases h2 : j < lo + len
      · have h3 : j - lo < n := by omega
        have h4 : j - lo < len := by omega
        have h5 : lo ≤ j := by omega
        simp [hj, h1, h2, h3, h4, h5]
      · have h4 : ¬ j - lo < len := by omega
        simp [hj, h1, h2, h4]
  · have h2 : ¬ (lo ≤ j ∧ j < lo + len) := by omega
    simp [hj, h2, BitVec.getLsbD_of_ge w j (by omega)]

theorem getLsbD_putBit {n : Nat} (w : BitVec n) (i j : Nat) (b : Bool) (h : i < n) :
    (putBit w i b).getLsbD j = if j = i then b else w.getLsbD j := by
  unfold putBit
  rw [getLsbD_put _ _ _ _ _ (by omega)]
  by_cases hj : j = i
  · subst hj; cases b <;> simp
  · have : ¬ (i ≤ j ∧ j < i + 1) := by omega
    rw [if_neg this, if_neg hj]

/-- A write of one predicate, as a read of any predicate of the same sequencer sees it. -/
theorem pred_setPred (s : State) (q : Seq) (d k : BitVec 4) (b : Bool) :
    (s.setPred q d b).pred q k = (k == 0 || if k = d then b else s.pred q k) := by
  by_cases hk : k = 0
  · subst hk; rfl
  · have hz : (k == 0) = false := by simpa using hk
    by_cases hd : d = 0
    · have : ¬ k = d := by rw [hd]; exact hk
      simp only [State.setPred, hd, ↓reduceIte, hz, Bool.false_or]
      rw [if_neg hk]
    · simp only [State.setPred, hd, ↓reduceIte, State.pred, seqOf_setSeq_same, hz, Bool.false_or]
      rw [getLsbD_putBit _ _ _ _ d.isLt]
      by_cases h : k = d
      · subst h; simp
      · have : ¬ k.toNat = d.toNat := fun e => h (BitVec.toNat_inj.mp e)
        simp [h, this]

/-- A meaning that writes predicates of the control sequencer and moves past its word. -/
theorem writesP_of (i : Instr) (v : State → BitVec 4 → Bool) (p : State → BitVec 16)
    (h : ∀ s, exec i s = finish .control s (.ok ((s.setSeq .control { s.seqs.control with p := p s }).advance .control)))
    (hp : ∀ s (k : BitVec 4), k ≠ 0 → (p s).getLsbD k.toNat = v s k) : WritesP i v := by
  intro s
  refine ⟨_, h s, rfl, ?_, rfl, rfl, rfl, rfl, ?_, rfl⟩
  · intro k
    by_cases hk : k = 0
    · subst hk; rfl
    · show (k == 0 || (p s).getLsbD k.toNat) = _
      rw [hp s k hk]
  · intro q hq; cases q <;> first | rfl | exact absurd rfl hq

/-- A meaning that is `writeP` writes one predicate. -/
theorem writesP_one (i : Instr) (d : BitVec 4) (v : State → Bool) (h : ∀ s, exec i s = writeP d (v s) s) :
    WritesP i (onePred d v) := by
  refine writesP_of i _ (fun s => (s.setPred .control d (v s)).seqs.control.p) ?_ ?_
  · intro s
    rw [h, writeP]
    congr 3
    unfold State.setPred
    split <;> rfl
  · intro s k hk
    have hz : (k == 0) = false := by simpa using hk
    have := pred_setPred s .control d k (v s)
    simp only [State.pred, hz, Bool.false_or] at this
    simp only [onePred, State.pred, hz, Bool.false_or]
    exact this

end Sys2Proof.Machine
end

