-- ==== Sys2Proof/Tests/Slice0.lean ====
section
/-! SUPPORT. Tests: witnesses for the hypotheses of every statement, words written out from the encodings of the spec, terms that the
well-formedness check refuses, and small steps with results worked by hand from the spec. -/
namespace Sys2Proof.Tests
open Sys2Proof Sys2Proof.Machine

set_option maxRecDepth 20000
set_option Elab.async false

/-! Helpers: a small machine, and checks of what a word gives on it. -/

/-- A step gives a next state, of which `p` holds. -/
def nexts (r : Result) (p : State → Bool) : Bool :=
  match r with
  | .next t => p t
  | .fault _ => false
  | .refused _ => false

/-- A computation succeeds, with a value of which `p` holds. -/
def oks {ε α : Type} (r : Except ε α) (p : α → Bool) : Bool :=
  match r with
  | .ok x => p x
  | .error _ => false

/-- A computation is refused, with an error of which `p` holds. -/
def errs {ε α : Type} (r : Except ε α) (p : ε → Bool) : Bool :=
  match r with
  | .ok _ => false
  | .error e => p e

/-- A leaf on frame 1 of a secure page: readable, writable, executable, accessed and dirty (R21). -/
def leafRW : BitVec 128 := 0x100000000000018BF

/-- A running task of the secure world in user mode; virtual page 0 is cached on frame 1, and its granule 0 is owned. -/
def base : State :=
  { State.reset with
    csr := [(0, 4)]
    seqs := ⟨⟨true, 0x1000, 0, []⟩, ⟨true, 0x2000, 0, []⟩, ⟨true, 0x3000, 0, []⟩, ⟨true, 0x4000, 0, []⟩⟩
    mu := { State.reset.mu with tlb := [⟨0, 0, 0, leafRW, 0⟩] }
    mem := { State.reset.mem with bytes := [(0x20000, 0x81), (0x20001, 0x7F)], gran := [(2048, ⟨false, some (0, 0)⟩)] }
    task := { State.reset.task with bound := true, secure := true }
    phase := { State.reset.phase with record := .got 0 0, first := false }
    pkg := { State.reset.pkg with cfg := [(0x48, 0x80)] } }

/-- The same in supervisor mode. -/
def baseSup : State := base.setCsr 0 6

/-- The same with g1 and g2 set. -/
def withG (x y : Word64) : State := (base.setG 1 x).setG 2 y

/-- The same with another leaf for page 0. -/
def withLeaf (l : BitVec 128) : State := { base with mu := { base.mu with tlb := [⟨0, 0, 0, l, 0⟩] } }

/-- A store row of page 0 at its beginning. -/
def row0 (p : StoreAt) (t : Option Timed) : StoreRow := ⟨0, 0, 0, ⟨0, 0, true, leafRW, 0x20000, false⟩, 2, 0x1234, false, 0x4000, t, p⟩

/-- A leaf on frame 1 of a peer's memory. -/
def leafPeer : BitVec 128 := 0x100000000000518BF

/-- A store row at a peer. -/
def rowPeer (t : Option Timed) : StoreRow := { row0 .sent t with bound := ⟨0, 0, true, leafPeer, 0x20000, false⟩ }

/-- The base state with rows in the store queue, of which the next place in issue order is 40. -/
def withRows (l : List StoreRow) : State := { base with mu := { base.mu with storeQ := l, nextId := 40 } }

/-- A word of the control sequencer completes with `v` in gD. -/
def gives (i : Instr) (s : State) (d : BitVec 5) (v : Word64) : Bool :=
  nexts (exec i s) (fun t => t.last == .done && t.gReg d == v && t.pcOf .control == 0x4004)

/-- A word raises a cause. -/
def raises (i : Instr) (s : State) (c : Cause) : Bool :=
  nexts (exec i s) (fun t => match t.last with
    | .raised d _ _ => d == c
    | _ => false)

/-- A word waits. -/
def waits (i : Instr) (s : State) : Bool := nexts (exec i s) (fun t => t.last == .waits)

/-- A word or an event completes, in a state of which `p` holds. -/
def ends (i : Instr) (s : State) (p : State → Bool) : Bool := nexts (exec i s) (fun t => t.last == .done && p t)

/-! Scalar words: R209 to R222. -/

theorem test_add_wraps : gives (.add 3 1 2) (withG (-1) 2) 3 1 = true := by decide
theorem test_add_g0 : gives (.add 0 1 2) (withG 5 2) 0 0 = true := by decide
theorem test_sub_wraps : gives (.sub 3 1 2) (withG 0 1) 3 (-1) = true := by decide
theorem test_andn : gives (.andn 3 1 2) (withG 0xFF 0x0F) 3 0xF0 = true := by decide
theorem test_and_or_xor : (gives (.and 3 1 2) (withG 12 10) 3 8 && gives (.or 3 1 2) (withG 12 10) 3 14 &&
  gives (.xor 3 1 2) (withG 12 10) 3 6) = true := by decide
theorem test_shl_mod64 : gives (.shl 3 1 2) (withG 3 65) 3 6 = true := by decide
theorem test_shr : gives (.shr 3 1 2) (withG (-1) 63) 3 1 = true := by decide
theorem test_sra : gives (.sra 3 1 2) (withG 0x8000000000000000 63) 3 (-1) = true := by decide
theorem test_rol : gives (.rol 3 1 2) (withG 0x8000000000000001 1) 3 3 = true := by decide
theorem test_mul : gives (.mul 3 1 2) (withG (-3) 5) 3 (-15) = true := by decide
theorem test_mulh : gives (.mulh 3 1 2) (withG (-1) 1) 3 (-1) = true := by decide
theorem test_mulhu : gives (.mulhu 3 1 2) (withG (-1) (-1)) 3 (-2) = true := by decide
theorem test_div_overflow : (gives (.div 3 1 2) (withG 0x8000000000000000 (-1)) 3 0x8000000000000000 &&
  gives (.rem 3 1 2) (withG 0x8000000000000000 (-1)) 3 0) = true := by decide
theorem test_div_truncates : (gives (.div 3 1 2) (withG (-7) 2) 3 (-3) && gives (.rem 3 1 2) (withG (-7) 2) 3 (-1)) = true := by decide
theorem test_div_by_zero : (gives (.div 3 1 2) (withG 7 0) 3 (-1) && gives (.rem 3 1 2) (withG 7 0) 3 7 &&
  gives (.divu 3 1 2) (withG 7 0) 3 (-1) && gives (.remu 3 1 2) (withG 7 0) 3 7) = true := by decide
theorem test_divu : (gives (.divu 3 1 2) (withG (-1) 16) 3 0x0FFFFFFFFFFFFFFF && gives (.remu 3 1 2) (withG (-1) 16) 3 15) = true := by decide
theorem test_min_max : (gives (.min 3 1 2) (withG (-1) 1) 3 (-1) && gives (.max 3 1 2) (withG (-1) 1) 3 1 &&
  gives (.minu 3 1 2) (withG (-1) 1) 3 1 && gives (.maxu 3 1 2) (withG (-1) 1) 3 (-1)) = true := by decide
theorem test_adds : gives (.adds 3 1 2) (withG 0x7FFFFFFFFFFFFFFF 1) 3 0x7FFFFFFFFFFFFFFF = true := by decide
theorem test_subs : gives (.subs 3 1 2) (withG 0x8000000000000000 1) 3 0x8000000000000000 = true := by decide
theorem test_counts : (gives (.clz 3 1) (withG 0 0) 3 64 && gives (.clz 3 1) (withG 1 0) 3 63 && gives (.ctz 3 1) (withG 0 0) 3 64 &&
  gives (.ctz 3 1) (withG 8 0) 3 3 && gives (.popc 3 1) (withG (-1) 0) 3 64) = true := by decide
theorem test_extends : (gives (.sextb 3 1) (withG 0x180 0) 3 0xFFFFFFFFFFFFFF80 && gives (.sexth 3 1) (withG 0x18000 0) 3 0xFFFFFFFFFFFF8000 &&
  gives (.sextw 3 1) (withG 0x180000000 0) 3 0xFFFFFFFF80000000 && gives (.zextw 3 1) (withG (-1) 0) 3 0xFFFFFFFF) = true := by decide
theorem test_immediates : (gives (.addi 3 1 0xFFFF) (withG 0 0) 3 (-1) && gives (.andi 3 1 0xFFFF) (withG (-1) 0) 3 0xFFFF &&
  gives (.ori 3 1 0x8000) (withG 1 0) 3 0x8001 && gives (.xori 3 1 0xFFFF) (withG 1 0) 3 0xFFFE) = true := by decide
theorem test_immediate_shifts : (gives (.shli 3 1 63) (withG 3 0) 3 0x8000000000000000 && gives (.shri 3 1 1) (withG 3 0) 3 1 &&
  gives (.srai 3 1 1) (withG (-2) 0) 3 (-1) && gives (.roli 3 1 4) (withG 0xF000000000000000 0) 3 0xF) = true := by decide
theorem test_moves : (gives (.movi 3 0x1FFFFF) base 3 (-1) && gives (.movk 1 3 0xABCD) (withG 5 0) 1 0xABCD000000000005) = true := by decide
theorem test_addresses : (ends (.aset 3 1 2) (withG 7 0x1FF) (fun t => t.aReg 3 == 0xFF0000000000000007) &&
  ends (.aadd 3 1 2) ((base.setA 1 8).setG 2 (-8)) (fun t => t.aReg 3 == 0) && ends (.amov 3 1) (base.setA 1 9) (fun t => t.aReg 3 == 9) &&
  ends (.aaddi 3 1 0xFFFF) (base.setA 1 9) (fun t => t.aReg 3 == 8) && gives (.ahi 3 1) (base.setA 1 0xAB0000000000000001) 3 0xAB &&
  gives (.alo 3 1) (base.setA 1 0xAB0000000000000001) 3 1 && gives (.asub 3 1 2) ((base.setA 1 5).setA 2 6) 3 (-1)) = true := by decide
theorem test_compares : (ends (.cmpLt 2 1 2) (withG (-1) 0) (fun t => t.pred .control 2) && ends (.cmpLtu 2 1 2) (withG (-1) 0) (fun t => !t.pred .control 2) &&
  ends (.cmpEq 0 1 2) (withG 1 2) (fun t => t.pred .control 0) && ends (.cmpiGe 3 1 0x1FFF) (withG (-1) 0) (fun t => t.pred .control 3) &&
  ends (.tst 4 1 2) (withG 6 8) (fun t => !t.pred .control 4)) = true := by decide
theorem test_predicates : (gives (.prd 3) (base.setPred .control 5 true) 3 0x21 &&
  ends (.pwr 1) (withG 0x8000 0) (fun t => t.pred .control 15 && t.pred .control 0 && !t.pred .control 1) &&
  ends (.pandn 1 0 2) base (fun t => t.pred .control 1)) = true := by decide
theorem test_selects : (gives (.sel 3 1 2 1 0) (withG 7 8) 3 8 && gives (.sel 3 1 2 0 0) (withG 7 8) 3 7 &&
  ends (.asel 3 1 2 0 5) ((base.setA 1 1).setA 2 2) (fun t => t.aReg 3 == 2)) = true := by decide
theorem test_branches : (ends (.br 0 0 0x1FFFFF) base (fun t => t.pcOf .control == 0x3FFC) && ends (.br 1 0 5) base (fun t => t.pcOf .control == 0x4004) &&
  ends (.xBr 0 0 2) base (fun t => t.pcOf .compute == 0x2020) &&
  ends (.call 0 0 2) base (fun t => t.pcOf .control == 0x4008 && t.aReg 15 == 0x4004)) = true := by decide
theorem test_loop_drain : (ends (.loop 1 0 0x1FFFFF) (base.setLc .control 0 ⟨0, 2⟩) (fun t => t.lcOf .control 0 == ⟨0, 1⟩ && t.pcOf .control == 0x3FFC &&
  !t.pred .control 8) && ends (.loop 1 0 0x1FFFFF) (base.setLc .control 0 ⟨1, 2⟩) (fun t => t.lcOf .control 0 == ⟨0, 2⟩ && t.pred .control 8)) = true := by decide

/-! Witnesses for the statements about scalar words. -/

theorem test_meets_SelectWords : ((bits (0x38000080#32) 26 6 == 0x0E && (bits (0x38000080#32) 6 5).toNat == 2) &&
  (bits (0x380007C0#32) 26 6 == 0x0E && (bits (0x380007C0#32) 6 5).toNat == 31) &&
  (bits (0x38000060#32) 26 6 == 0x0E && (bits (0x38000060#32) 6 5).toNat == 1 && bits (0x38000060#32) 5 1 == 1) &&
  (bits (0x38000020#32) 26 6 == 0x0E && (bits (0x38000020#32) 6 5).toNat == 0 && bits (0x38000020#32) 5 1 == 1)) = true := by decide

theorem test_meets_BranchWords : (((base.setA 1 4).aReg 1).toNat % 4 == 0 && ((base.setA 1 5).aReg 1).toNat % 4 != 0 &&
  ends (.jmp 1) (base.setA 1 4) (fun t => t.pcOf .control == 4) && raises (.callr 1) (base.setA 1 6) .misalign &&
  ends (.callr 15) (base.setA 15 8) (fun t => t.pcOf .control == 8 && t.aReg 15 == 0x4004)) = true := by decide +kernel

theorem test_meets_LoopWords : ([(1 : Word64), 0x100000000].all (fun v => 0 < v.toNat && v.toNat ≤ 2 ^ 32 &&
    ends (.lcset 1 2 1 3) (withG v 0) (fun t => t.lcOf .control 2 == ⟨BitVec.ofNat 32 (v.toNat - 1), 3⟩ && t.pred .control 8)) &&
  [(0 : Word64), 0x100000001].all (fun v => raises (.lcset 1 2 1 3) (withG v 0) .fieldRange) &&
  ends (.xLcseti 0 1 0 0x1FFF) base (fun t => t.lcOf .compute 1 == ⟨0x1FFE, 0⟩) && raises (.lcseti 0 1 0 0) base .fieldRange &&
  ((withG 0x7FFFFFFFF 0).gReg 1).toNat < 2 ^ 35 && ends (.lcwr 0 1) (withG 0x7FFFFFFFF 0) (fun t => t.lcOf .control 0 == ⟨0xFFFFFFFF, 7⟩) &&
  raises (.lcwr 0 1) (withG 0x800000000 0) .fieldRange) = true := by decide +kernel

theorem test_meets_LoopWords_modulo : ([((0x400000 : Word64), (1 : Word64)), (0, 0), (0x3FFFFF, 2)].all (fun v =>
    raises (.mset 0 1 2) (withG v.1 v.2) .fieldRange) &&
  [((0x3FFFFF : Word64), (1 : Word64)), (0, 0x400000)].all (fun v =>
    ends (.mset 0 1 2) (withG v.1 v.2) (fun t => t.mReg 0 == (v.2 <<< 32) ||| v.1)) &&
  modStep 0x10_00000100 0x108 0x8 == some 0x100 && modStep 0x10_00000100 0x100 (-8) == some 0x108 && modStep 0x10_00000100 0x100 0x10 == some 0x100 &&
  modStep 0 0 0 == none && modStep 0x10_00000100 0x100 0x11 == none && modStep 0x10_00000100 0x100 (-0x11) == none &&
  modStep 0x10_00000100 0xFF 0 == none && modStep 0x10_00000100 0x110 0 == none) = true := by decide +kernel

/-! Witnesses for the statements about memory words. -/

theorem test_meets_AccessBinding : oks (base.bindAccess 8 .write) (fun r => r.2.1.pa == 0x20008 && r.1.mem == base.mem) = true ∧
  (∃ e, base.mu.tlb.find? (fun e => e.covers base.asid 8) = some e ∧ checkLeaf e.leaf .write base.sup base.secure = none ∧ e.leaf.getLsbD 12 = true) := by
  constructor
  · decide
  · exact ⟨⟨0, 0, 0, leafRW, 0⟩, by decide, by decide, by decide⟩

/-- Memory that holds a page table for page 0 of ASID 0 at frame 16 on: the descriptor, five nodes, and a leaf on frame 1. -/
def tables : State :=
  let put (s : State) (pa n v : Nat) : State := s.writeTable pa n v
  let s0 : State := { base with mu := { base.mu with tlb := [] }
                                pkg := { base.pkg with cfg := [(0x30, 0x200000), (0x48, 0x80)] }
                                mem := { base.mem with gran := (2048, ⟨false, some (0, 0)⟩) ::
                                  [0x200000, 0x210000, 0x220000, 0x230000, 0x240000, 0x250000].map (fun a => (a / 64, ⟨false, some (0, 0)⟩)) } }
  let s1 := put s0 0x200000 8 (0x210000 + 1)
  let s2 := [0x210000, 0x220000, 0x230000, 0x240000].foldl (fun s a => put s a 16 ((a / 65536 + 1) * 2 ^ 64 + 1)) s1
  put s2 0x250000 16 0x100000000000000BF

theorem test_walk : oks (tables.bindAccess 8 .read) (fun r => r.2.1.pa == 0x20008 && r.2.2 == 0 && (r.1.readTable 0x250000 16).toOption == some 0x100000000000008BF &&
  r.1.mu.tlb.length == 1) = true := by decide +kernel

/-- A factor operation of the bound task on page 0. -/
def fop (k : Nat) : FactorOp := ⟨0, 0, k, ⟨0, 0, true, leafRW, 0x20000, false⟩, 0, 0, 0, 0, 0, false, true, 0, 0, false, none⟩

/-- The base state with factor operations and results, of which the next place in issue order is 40. -/
def withFactor (l : List FactorOp) (r : List (Word64 × BitVec 6)) : State := { base with mu := { base.mu with factor := l, fq := r, nextId := 40 } }

theorem test_meets_LoadWords : (raises (.ld 3 1 0 1 0) (base.setA 1 1) .misalign && errs (base.bindAccess 0x20000 .read) (fun e => e == (.notMapped, 5)) &&
  oks (base.bindAccess 0 .read) (fun r => !r.1.pending r.2.1 && r.1.target r.2.1.leaf == 0 && (r.1.loadHome r.2.1 2 true).isOk) &&
  oks ((withRows [row0 .queued none]).bindAccess 0 .read) (fun r => r.1.pending r.2.1) && waits (.ld 3 1 0 1 0) (withRows [row0 .queued none]) &&
  oks ((withLeaf 0x100000000100018BF).bindAccess 0 .read) (fun r => errs (r.1.loadHome r.2.1 2 true) (fun e => e.1 == .keyAbsent)) &&
  gives (.ld 3 1 0 1 0) base 3 0x7F81 && gives (.ldx 3 1 1 0 1) base 3 0xFFFFFFFFFFFFFF81 && ends (.ldx 3 1 1 0 1) base (fun t => t.aReg 1 == 1) &&
  (let s := withLeaf 0x100000000000218BF
   let t (c : Option Cause) : State := { s with mu := { s.mu with remote := .answered 0x4000 0xFFFF5 c } }
   oks (s.bindAccess 0 .read) (fun r => r.1.target r.2.1.leaf == 2 && r.1.mu.remote == .idle) && waits (.ld 3 1 0 1 0) s &&
   gives (.ld 3 1 0 1 0) (t none) 3 0xFFF5 && raises (.ldx 3 1 0 1 0) (t (some .poison)) .poison) &&
  (let s := withFactor [fop 2] []
   oks (s.bindAccess 8 .read) (fun r => !r.1.opsPerformed) && waits (.ldx 3 1 0 1 0) (s.setA 1 8) && waits (.amoAdd 3 1 2 0 0 0) (s.setA 1 8)) &&
  (let s := withLeaf 0x100000000100318BF
   oks (s.bindAccess 0 .read) (fun r => r.1.target r.2.1.leaf == 3 && !(r.1.ksctl (leafKey r.2.1.leaf)).getLsbD 63) &&
   raises (.ld 3 1 0 1 0) s .keyAbsent && waits (.ld 3 1 0 1 0) (withLeaf 0x100000000000318BF))) = true := by
  decide +kernel

theorem test_meets_ScratchWords :
  ((base.setM 0 0).operand 1 2 0 0 0 == none && raises (.sld 3 1 2 0 0 0) base .fieldRange && raises (.sst 3 1 0 1 0 0) (base.setA 1 1) .misalign &&
  (let s : State := { base with pkg := { base.pkg with upper := 0 } }
   s.nbank == 32 && raises (.sldx 3 1 0 0 0 0) (s.setA 1 0x200000) .notMapped && gives (.sld 3 1 0 0 0 0) (s.setA 1 0x1FFFFF) 3 0) &&
  gives (.sld 3 1 0 3 0 (-1)) ((base.scrWrite 0x3FFFF8 8 (2 ^ 64 - 2)).setA 1 0xFFFFC00000) 3 (-2) &&
  (let s : State := { base with vec := { base.vec with out := [(0, ⟨none, 1, [⟨[], false, 0, false, 5, [], 0, [], ⟨0, 0, false, true⟩⟩]⟩)] } }
   s.scrHeld 0 1 false && waits (.sld 3 1 0 0 0 0) s && waits (.sst 3 1 0 0 0 0) s && !s.scrHeld 64 1 true) &&
  (let s := base.setScrPoison 0 true
   s.scrPoison 63 && raises (.sld 3 1 0 0 0 0) s .poison) &&
  ends (.sst 3 1 1 1 0 4) (base.setG 3 0x12345) (fun t => t.scrByte 0 == 0x45 && t.scrByte 1 == 0x23 && t.scrByte 2 == 0 && t.aReg 1 == 8)) = true := by
  decide +kernel

theorem test_meets_StoreWord :
  (raises (.st 3 1 0 1 0) (base.setA 1 1) .misalign && raises (.st 3 1 0 1 0) (base.setA 1 0x20000) .notMapped &&
  (let full := withRows ((List.range 32).map (fun n => { row0 .queued none with row := n }))
   full.rowsTaken == 32 && waits (.st 3 1 0 1 0) full) &&
  (let s := withLeaf 0x10000000000001ABF
   let t := s.setClaims [⟨2048, false, true, 0, 0, 1, .control, none⟩]
   oks (s.bindAccess 0 .write) (fun r => r.1.checked r.2.1 && (r.1.takeClaim .control (r.1.granuleOf r.2.1) true).isOk) &&
   oks (t.bindAccess 0 .write) (fun r => errs (r.1.takeClaim .control (r.1.granuleOf r.2.1) true) (fun e => e.1 == .race)) && raises (.st 3 1 0 1 0) t .race &&
   ends (.st 3 1 0 1 0) s (fun t => t.mem.claims.length == 1)) &&
  ends (.st 3 1 1 1 3) (base.setG 3 0xFFFF5) (fun t => t.mu.storeQ == [⟨0, 0, 0, ⟨0, 0, true, leafRW, 0x20000, false⟩, 2, 0xFFFF5, false, 0x4000, none, .queued⟩] &&
    t.aReg 1 == 6 && t.mem == base.mem && (t.csrOf 0xC).getLsbD 31)) = true := by decide +kernel

theorem test_meets_StoreAtHome_away :
  ((let s := withRows [{ rowPeer none with place := .queued }]
    ends .storeQueueDepart s (fun t => t.mu.storeQ == [rowPeer none] && t.outbox.length == 1)) &&
   (let s := withRows [{ row0 .queued none with bound := ⟨0, 0, true, 0x100000000100318BF, 0x20000, false⟩ }]
    ends .storeQueueDepart s (fun t => t.mu.storeQ == [] && t.mu.deferred.map (fun d => d.cause) == [.keyAbsent])) &&
   (let s (x : Option Timed) : State := { withRows [rowPeer x] with input := { base.input with flag2 := true } }
    ends .storeAck (s (some ⟨0, 2, none⟩)) (fun t => t.mu.storeQ == [{ rowPeer (some ⟨0, 2, none⟩) with place := .timedBuffer }]) &&
    ends .storeAck (s none) (fun t => t.mu.storeQ == [rowPeer none]))) = true := by decide +kernel

/-- A request of another chip at a home of this package: refused by a stopped package and where its chip is not admitted, else performed. -/
theorem test_meets_StoreAtHome_served :
  (let s : State := { base with input := { flag2 := true, n := 3, w := 0x102, data := leafRW.toNat, addr := 0x20000, req := 5 } }
   let b : Bound := ⟨0, 0, true, leafRW, 0x20000, false⟩
   let key : State := (base.setCfg 0x20008 0xC000000000000004).setCfg 0x40200 8
   let ask (n : Nat) : State := { key with input := { s.input with n := n, data := 0x100000000100018BF, addr := 0x20040 } }
   ends .homeAccess { s with pkg := { s.pkg with stopped := true } } (fun t => t.outbox == [.served 3 5 0 (some .containedStop)]) &&
   (s.ksctl (leafKey leafRW)).getLsbD 63 && !s.admitsChip (fld (s.ksctl (leafKey leafRW)) 0 6) 3 && (s.refusalOf 3 b b.pa false).isSome &&
   ends .homeAccess s (fun t => t.outbox == [.served 3 5 0 (some .keyAbsent)]) && ends .homeAccess (ask 2) (fun t => t.outbox == [.served 2 5 0 (some .keyAbsent)]) &&
   (key.refusalOf 3 ⟨0, 0, true, 0x100000000100018BF, 0x20040, false⟩ 0x20040 false).isNone && ends .homeAccess (ask 3) (fun t => t.outbox == [.served 3 5 0 none])) = true := by
  decide +kernel

theorem test_meets_StoreAtHome :
  ((let s := withRows [row0 .sent none]
   s.mu.storeQ.any (fun r => r.place == .sent) && ends .storeQueueDepart s (fun t => t.mu.storeQ == s.mu.storeQ)) &&
  (let s := withRows [row0 .queued none]
   !s.mu.storeQ.any (fun r => r.place == .sent) && s.mu.storeQ.find? (fun r => r.place == .queued) == some (row0 .queued none) &&
   ends .storeQueueDepart s (fun t => t.mu.storeQ == [row0 .sent none])) &&
  (let s := withRows [rowPeer (some ⟨0, 2, some 5⟩)]
   let late : State := { s with input := { s.input with flag := true, w := 7 } }
   let refused : State := { s with input := { s.input with cause := some .keyAbsent } }
   s.mu.storeQ.find? (fun r => r.place == .sent && s.target r.bound.leaf != 0 && r.id == s.input.n) == some (rowPeer (some ⟨0, 2, some 5⟩)) &&
   s.isBound 0 && ends .storeAck s (fun t => t.mu.storeQ == [] && t.csrOf 0x19 == 32 && t.csrOf 0x12 == 0) &&
   ends .storeAck late (fun t => t.csrOf 0x13 == 32 && t.csrOf 0x12 == 0x4000000007) &&
   ends .storeAck refused (fun t => t.mu.deferred.map (fun d => d.cause) == [.keyAbsent] && t.csrOf 0x12 == 0)) &&
  ends .loadReturn { base with mu := { base.mu with remote := .waiting 4 9 }, input := { v := 7, req := 9 } } (fun t => t.mu.remote == .answered 4 7 none) &&
  ends .loadReturn { base with mu := { base.mu with remote := .waiting 4 9 }, input := { v := 7, req := 8 } } (fun t => t.mu.remote == .waiting 4 9) &&
  (let s := withRows [row0 .sent none]
   let r := row0 .sent none
   oks (s.writeHome r.bound r.bound.pa r.size r.data.toNat) (fun _ => true) && s.cellOf r.bound.ver r.bound.pa == some 0x20000 &&
   (s.granule 0x20000).owner == some (s.slotEpoch (leafKey leafRW)) &&
   ends .homeAccess s (fun t => t.cell 0x20000 == 0x34 && t.cell 0x20001 == 0x12 && t.mu.storeQ == [])) &&
  (let r : StoreRow := { row0 .sent none with bound := ⟨0, 0, true, leafRW, 0x2003E, false⟩ }
   0x2003E % 64 + r.size == 64 && ends .homeAccess (withRows [r]) (fun t => t.cell 0x2003F == 0x12 && t.cell 0x20000 == 0x81)) &&
  (let r : StoreRow := { row0 .sent none with bound := ⟨0, 1, true, leafRW, 0x20000, false⟩ }
   errs ((withRows [r]).writeHome r.bound r.bound.pa r.size r.data.toNat) (fun e => e == .keyAbsent) &&
   ends .homeAccess (withRows [r]) (fun t => t.mem == base.mem && t.mu.deferred.length == 1))) = true := by decide +kernel

/-- Checked pages of a peer: the claim is asked for, taken with the answer, kept while a store of its region is queued, and released
with it. -/
theorem test_meets_StoreWord_peers :
  (let s := withLeaf 0x10000000000151ABF
   let t (c : Option Cause) : State := { s with mu := { s.mu with remote := .answered 0x4000 0xFFFF5 c } }
   let full : State := s.setClaims ((List.range 1024).map (fun n => ⟨n, false, false, 0, 0, 0, .control, none⟩))
   oks (s.bindAccess 0 .write) (fun r => r.1.checked r.2.1 && r.1.target r.2.1.leaf == 1 && !r.1.holdsExcl .control (r.1.granuleOf r.2.1) &&
     !r.1.claimFull .control (r.1.granuleOf r.2.1)) &&
   waits (.st 3 1 0 1 0) s && waits (.ld 3 1 0 1 0) s && raises (.st 3 1 0 1 0) full .claimFull && raises (.ld 3 1 0 1 0) full .claimFull &&
   raises (.st 3 1 0 1 0) (t (some .race)) .race && gives (.ld 3 1 0 1 0) (t none) 3 0xFFF5 &&
   ends (.ld 3 1 0 1 0) (t none) (fun u => (u.ownClaims .control).map (fun c => (c.unit, c.excl)) == [(6 * 2 ^ 54 + 2048, false)]) &&
   ends (.st 3 1 0 1 0) (t none) (fun u => u.mu.storeQ.length == 1 && (u.ownClaims .control).length == 1 &&
     ends (.st 3 1 0 1 0) (u.setPc .control 0x4000) (fun v => v.mu.storeQ.length == 2) &&
     (u.closeRegion .control).mem.claims.map (fun c => c.closed.isSome) == [true] && (u.closeRegion .control).ownClaims .control == [] &&
     ((u.closeRegion .control).setStoreQ []).releaseClosed.mem.claims == [])) = true := by decide +kernel

theorem test_meets_TimedWords :
  (let lock (s : State) : State := s.setCfg 0x10 0x8000000000000000
   raises (.stDue 3 1 0 1 0 2 0) (base.setA 1 1) .misalign && raises (.ldNb 3 1 0 1 0 2) (base.setA 1 1) .misalign &&
   raises (.stDue 3 1 0 1 0 2 0) (base.setA 1 0x20000) .notMapped && raises (.ldNb 3 1 0 1 0 2) (base.setA 1 0x20000) .notMapped &&
   raises (.stDue 3 1 2 1 0 2 0) base .clockUnlocked && raises (.ldNb 3 1 2 1 0 2) base .clockUnlocked &&
   raises (.stDue 3 1 0 1 0 2 0) (base.setG 2 0x10000001) .fieldRange && ends (.stDue 3 1 2 1 0 2 0) ((lock base).setG 2 0x10000000) (fun _ => true) &&
   raises (.stDue 3 1 0 1 1 2 7) (base.tagIssue 7) .tagBusy &&
   ends (.stDue 3 1 0 1 1 2 7) base (fun t => t.tagPending 7 && t.mu.storeQ.length == 1) &&
   (let full := withRows ((List.range 15).map (fun n => { row0 .timedBuffer (some ⟨9, 0, none⟩) with row := n }))
    (full.mu.storeQ.filter (fun r => r.timed.isSome)).length == 15 && ends (.stDue 3 1 0 1 0 2 0) full (fun t => t.mu.storeQ.length == 16)) &&
   oks (base.bindAccess 0 .read) (fun r => !r.1.barred r.2.1) && waits (.ldNb 3 1 0 1 0 2) (base.setCfg 0xB0 0x8000000000000000) &&
   nexts (exec (.ldNb 3 1 0 1 0 2) base) (fun t => t.last == .waits && t.mu.notBefore.isSome && t.mu.remote == .waiting 0x4000 1) &&
   (let away := withLeaf leafPeer
    let back (c : Option Cause) : State := { base with mu := { base.mu with remote := .answered 0x4000 0xFFFE c } }
    let behind : State := { away with mu := { away.mu with storeQ := [{ rowPeer none with place := .queued }], nextId := 40 } }
    oks (away.bindAccess 0 .read) (fun r => r.1.target r.2.1.leaf == 1 && !r.1.pending r.2.1 && r.1.opsPerformed) &&
    nexts (exec (.ldNb 3 1 2 1 0 2) (away.setCfg 0x10 0x8000000000000000)) (fun t => t.last == .waits && t.mu.remote == .waiting 0x4000 1 && t.outbox.length == 1) &&
    oks (behind.bindAccess 0 .read) (fun r => r.1.pending r.2.1) && waits (.ldNb 3 1 2 1 0 2) (behind.setCfg 0x10 0x8000000000000000) &&
    gives (.ldNb 3 1 0 1 1 2) (back none) 3 (-2) && gives (.ldNb 3 1 0 1 0 2) (back none) 3 0xFFFE && raises (.ldNb 3 1 0 1 0 2) (back (some .poison)) .poison)) = true := by
  decide +kernel

/-- Arrivals at home before, in and past the time, and while the clock is unlocked. -/
theorem test_meets_TimedStoreAtHome :
  ((let at_ (clk : Word64) (t : Timed) : State := { withRows [row0 .sent (some t)] with pkg := { base.pkg with clkRuns := true, clk := [(0, clk)] } }
   ends .timedStoreArrival (at_ 5 ⟨6, 0, none⟩) (fun t => t.mu.storeQ == [row0 .timedBuffer (some ⟨6, 0, none⟩)]) &&
   ends .timedStoreArrival (at_ 6 ⟨6, 0, none⟩) (fun t => t.mu.storeQ == [] && t.cell 0x20000 == 0x34) &&
   ends .timedStoreArrival (at_ 10 ⟨6, 1, none⟩) (fun t => t.csrOf 0x12 == 0 && t.cell 0x20000 == 0x34) &&
   ends .timedStoreArrival (at_ 11 ⟨6, 1, none⟩) (fun t => t.csrOf 0x12 == 0x12000000001 && t.cell 0x20000 == 0x34) &&
   ends .timedStoreArrival (at_ 7 ⟨6, 0, some 3⟩) (fun t => t.csrOf 0x12 == 0x1000000001 && t.csrOf 0x13 == 8 && t.csrOf 0x19 == 8 && t.cell 0x20000 == 0x81) &&
   ends .timedStoreArrival (at_ 6 ⟨6, 2, none⟩) (fun t => t.mu.deferred.length == 1) &&
   ends .timedStoreDue { (at_ 6 ⟨6, 0, none⟩) with mu := { base.mu with storeQ := [row0 .timedBuffer (some ⟨6, 0, none⟩)] } } (fun t => t.mu.storeQ == [])) &&
   (let s : State := { base with mu := { base.mu with notBefore := some (⟨0, 0, true, leafRW, 0x20000, false⟩, 2, 0, 7), remote := .waiting 0x4000 7 } }
    let other : State := { s with mu := { s.mu with remote := .waiting 0x4000 8 } }
    oks (s.loadHome ⟨0, 0, true, leafRW, 0x20000, false⟩ 2 false) (fun r => r.1 == 0x7F81) &&
    ends .notBeforePerform s (fun t => t.mu.remote == .answered 0x4000 0x7F81 none) &&
    ends .notBeforePerform other (fun t => t.mu.notBefore.isNone && t.mu.remote == .waiting 0x4000 8))) = true := by decide +kernel

theorem test_meets_AtomicWords :
  (raises (.amoAdd 3 1 2 0 0 0) (base.setA 1 2) .misalign && raises (.amoAdd 3 1 2 0 0 1) (base.setA 1 4) .misalign &&
  raises (.amoAdd 3 1 2 0 0 0) (base.setA 1 0x20000) .notMapped && raises (.amoAdd 3 1 2 0 2 0) (withLeaf 0x100000000000218BF) .atomicTarget &&
  raises (.amoAdd 3 1 2 0 1 0) (withLeaf leafPeer) .atomicTarget &&
  oks (base.bindAccess 0 .both) (fun r => oks (r.1.readHome r.2.1 r.2.1.pa 4) (fun v => v == 0x7F81) && r.1.homeRefusal r.2.1 r.2.1.pa true == none &&
    r.1.target r.2.1.leaf == 0 && r.1.homeScope r.2.1 == 0 && !r.1.pending r.2.1 && r.1.acked 0 && r.1.quiet 2 && r.1.cellOf r.2.1.ver r.2.1.pa == some 0x20000) &&
  oks ((withLeaf 0x100000000100018BF).bindAccess 0 .both) (fun r => r.1.homeRefusal r.2.1 r.2.1.pa true == some .keyAbsent) &&
  raises (.amoCas 3 1 2 0 0 0) (withLeaf 0x100000000100018BF) .keyAbsent && waits (.amoAdd 3 1 2 0 0 0) (withRows [row0 .queued none]) &&
  (let s := withRows [rowPeer none]
   oks (s.bindAccess 0 .both) (fun r => !r.1.pending r.2.1 && r.1.acked 0 && !r.1.quiet 2 && r.1.quiet 0) &&
   ends (.amoAdd 3 1 2 1 0 0) s (fun _ => true) && waits (.amoAdd 3 1 2 2 2 0) s && ends (.amoAdd 3 1 2 3 0 0) s (fun _ => true)) &&
  ends (.amoAdd 3 1 2 2 0 0) (base.setG 2 0xFFFFFFFF) (fun t => t.gReg 3 == 0x7F81 && t.cell 0x20000 == 0x80) &&
  ends (.amoMin 3 1 2 0 0 0) (base.setG 2 0x80000000) (fun t => t.cell 0x20003 == 0x80 && t.cell 0x20000 == 0) &&
  ends (.amoCas 3 1 2 0 0 1) ((base.setG 2 5).setG 3 0x7F81) (fun t => t.gReg 3 == 0x7F81 && t.cell 0x20000 == 5 && t.cell 0x20001 == 0) &&
  (let s := withLeaf leafPeer
   let t (c : Option Cause) : State := { s with mu := { s.mu with remote := .answered 0x4000 0x1FFFFFFF5 c } }
   oks (s.bindAccess 0 .both) (fun r => r.1.target r.2.1.leaf == 1 && r.1.homeScope r.2.1 == 2) && waits (.amoSwap 3 1 2 0 2 0) s &&
   gives (.amoSwap 3 1 2 0 2 0) (t none) 3 0xFFFFFFF5 && raises (.amoSwap 3 1 2 0 2 0) (t (some .race)) .race)) = true := by
  decide +kernel

theorem test_meets_FenceAndSealWords :
  (let away := withRows [rowPeer none]
   waits .fencePod (withRows [row0 .queued none]) && waits .fenceCore (withRows [row0 .queued none]) && ends .fenceCore base (fun _ => true) &&
   away.quiet 0 && away.quiet 1 && !away.quiet 2 && ends .fenceDie away (fun _ => true) && ends .fencePkg away (fun _ => true) && waits .fencePod away &&
   waits .ffence (withFactor [fop 2] []) && waits .ffence (withRows [row0 .queued none]) && ends .ffence base (fun _ => true)) = true := by decide +kernel

theorem test_meets_FenceAndSealWords_refusals :
  ((let s : State := { base with mu := { base.mu with deferred := [⟨.keyAbsent, 8, 4, 3⟩] } }
   s.quiet 2 && s.ownOps == [] && raises .fenceDie s .keyAbsent && raises .ffence s .keyAbsent &&
   nexts (exec .ffence s) (fun t => t.csrOf 4 == 8 && t.csrOf 6 == 3 && t.csrOf 1 == 155)) &&
  raises (.sealPage 1) (base.setA 1 0x20000) .notMapped &&
  raises (.unsealPage 1) { base with mu := { base.mu with tlb := [⟨0, 0, 1, leafRW, 0⟩] } } .fieldRange &&
  raises (.sealPage 1) (withLeaf 0x100000000000218BF) .atomicTarget && waits (.sealPage 1) (withRows [row0 .queued none]) &&
  ends (.unsealPage 1) base (fun t => t.mem == base.mem)) = true := by decide +kernel

/-- `tables` with the leaf of page 0 dirty. -/
def tablesDirty : State := tables.writeTable 0x250000 16 0x100000000000018BF

theorem test_meets_FenceAndSealWords_seal :
  ((let s := tablesDirty
   oks (s.leafFor 0 0 .seal false true) (fun r => r.2.level == 0 && !leafSeal r.2.leaf && r.2.leaf.getLsbD 12 && r.1.target r.2.leaf == 0 && r.1.quiet 2 &&
     r.1.cellOf false 0x20000 == some 0x20000 && r.1.sealRace 0x20000 == none && (r.1.readTable r.2.entry 16).toOption == some r.2.leaf.toNat) &&
   ends (.sealPage 1) s (fun t => mget t.mem.sealed false 1 && t.cell 0x250001 == 0x19 && t.mu.tlb == [])) &&
  (let s := tablesDirty.setClaims [⟨32, true, false, 0, 0, 1, .load, none⟩]
   oks (s.bindAccess 0 .seal) (fun r => (r.1.sealRace 0x20000).isSome) && raises (.sealPage 1) s .race)) = true := by decide +kernel

theorem test_meets_FenceAndSealWords_claims :
  (raises (.clmq 3 1) (base.setA 1 0x20000) .notMapped && gives (.clmq 3 1) base 3 0 &&
  gives (.clmq 3 1) ((withLeaf 0x10000000000001ABF).setClaims [⟨2048, false, true, 0, 0, 0, .control, none⟩, ⟨2048, false, false, 0, 0, 1, .control, none⟩]) 3 0x2B &&
  (let s := withLeaf 0x10000000000151ABF
   oks (s.bindAccess 0 .read) (fun r => r.1.checked r.2.1 && r.1.target r.2.1.leaf == 1) &&
   gives (.clmq 3 1) { s with mu := { s.mu with remote := .answered 0x4000 0xFFF9 none } } 3 0x39)) = true := by decide +kernel

/-! Witnesses for factor operations, coupling and groups. -/

/-- A tensor descriptor table: `tables` with a tensor entry of slot 0 that is valid, of generation 0 and one pin, at 0x260000. -/
def withEntry (e : BitVec 512) : State :=
  let s : State := { tables with mem := { tables.mem with gran := tables.mem.gran ++ [(0x260000 / 64, ⟨false, some (0, 0)⟩)] } }
  let s1 := s.writeTable 0x200000 64 ((put (BitVec.ofNat 512 0x210007) 80 44 0x26).toNat)
  let s2 : State := { s1 with mu := { s1.mu with tlb := base.mu.tlb } }
  s2.writeTable 0x260000 64 e.toNat

theorem test_meets_FactorIssueWords :
  ([((0 : Word64), (0 : Word64)), (17, 0), (1, 65536), (1, 4)].all (fun v => raises (.fopChase 2 3 1) (withG v.1 v.2) .fieldRange) &&
  [((1 : Word64), (0 : Word64)), (16, 65528)].all (fun v => ends (.fopChase 2 3 1) (withG v.1 v.2) (fun t => t.mu.factor.length == 1)) &&
  raises (.fopEnq 1 2) (base.setA 1 8) .misalign && raises (.fopCas4 1 2) (base.setA 1 16) .misalign && raises (.fopProg 3 1 2 0) (base.setA 1 4) .misalign &&
  raises (.fopEnq 1 2) (base.setA 1 0x20000) .notMapped && raises (.fopEnq 1 2) (withLeaf 0x100000000000218BF) .atomicTarget &&
  waits (.fopEnq 1 2) (withRows [row0 .queued none])) = true := by decide +kernel

/-- An operation whose result is there, so that nothing waits for it. -/
def fopDone : FactorOp := { fop 2 with result := some (0, 0) }

theorem test_meets_FactorIssueWords_local :
  ((let full := withFactor (List.replicate 15 fopDone) [(0, 0)]
   full.ownOps.length + full.mu.fq.length == 16 && full.opsPerformed && waits (.fopEnq 1 2) full && waits (.fopCas2 1 2) full) &&
  (let one := withFactor (List.replicate 15 fopDone) []
   oks (one.bindAccess 0 .both) (fun r => r.1.target r.2.1.leaf == 0 && !r.1.pending r.2.1 && r.1.acked 0 && (r.1.factorAccept (fop 2)).isNone) &&
   ends (.fopEnq 1 2) one (fun t => t.mu.factor.length == 16 && t.agenda == [⟨.factorAtHome, {}⟩] && (t.csrOf 0xC).getLsbD 31)) &&
  (let blk : Nat := 0x3FFFC0
   blk % 64 == 0 && blk / 65536 < base.nbank && !base.scrPoison blk && !base.scrHeld blk 64 true &&
   ends (.fopCas4 1 2) ((base.scrWrite blk 2 0x1234).setG 2 0x3FFFC0) (fun t => t.mu.factor.map (fun o => (o.data, o.block)) == [(0x1234, 0x3FFFC0)])) &&
  raises (.fopEnq 1 2) (withLeaf 0x100000000100018BF) .keyAbsent) = true := by decide +kernel

/-- The operand block of a compare-and-swap: misaligned, in an absent bank, held by an output image, poisoned. -/
theorem test_meets_FactorIssueWords_block :
  (raises (.fopCas2 1 2) (base.setG 2 16) .misalign && raises (.fopCas4 1 2) (base.setG 2 32) .misalign && ends (.fopCas2 1 2) (base.setG 2 32) (fun _ => true) &&
  (let s : State := ({ base with pkg := { base.pkg with upper := 0 } }).setG 2 0x200000
   s.nbank == 32 && raises (.fopCas2 1 2) s .notMapped && nexts (exec (.fopCas4 1 2) s) (fun t => t.csrOf 6 == 0x2E)) &&
  (let s : State := { base with vec := { base.vec with out := [(0, ⟨none, 1, [⟨[], false, 0, false, 5, [], 0, [], ⟨0, 0, false, true⟩⟩]⟩)] } }
   s.scrHeld 0 32 true && waits (.fopCas2 1 2) s && waits (.fopCas4 1 2) s) &&
  (let s := base.setScrPoison 0 true
   s.scrPoison 0 && !s.recordsPoison 0 && !s.scrHeld 0 64 true && raises (.fopCas2 1 2) s .poison && raises (.fopCas4 1 2) s .poison)) = true := by decide +kernel

theorem test_meets_FactorIssueWords_release :
  (let s := withEntry 1
   let e : TensorEntry := ⟨0, 1, 0x260000⟩
   let gone := (s.setGranule 0x260000 ⟨false, some (0, 1)⟩).cacheEntry 0 0 e
   let bad := s.setGranule 0x260000 ⟨true, some (0, 0)⟩
   s.cellOf false 0x260000 == some 0x260000 && !(s.granule 0x260000).poison && raises (.fopRel 2 7) bad .poison &&
   oks (gone.tensorSlot 0 0 0) (fun r => r == e) && errs (gone.readTable 0x260000 64) (fun c => c == .keyAbsent) && raises (.fopRel 2 7) gone .keyAbsent) = true := by decide +kernel

theorem test_meets_FactorIssueWords_outside :
  ((let s := withLeaf leafPeer
   let t (c : Option Cause) : State := { s with mu := { s.mu with remote := .answered 0x4000 5 c } }
   oks (s.bindAccess 0 .both) (fun r => r.1.target r.2.1.leaf == 1) && waits (.fopEnq 1 2) s && ends (.fopEnq 1 2) (t none) (fun u => u.mu.factor.length == 1 && u.agenda == []) &&
   raises (.fopEnq 1 2) (t (some .race)) .race) &&
  raises (.fopRel 2 7) (base.tagIssue 7) .tagBusy && raises (.fopRel 2 7) base .notMapped &&
  (let s := withEntry 1
   oks (s.tensorSlot 0 0 0) (fun r => r.entry == 1 && r.pa == 0x260000) && s.acked 0 &&
   ends (.fopRel 2 7) s (fun t => t.tagPending 7 && t.mu.factor.map (fun o => (o.kind, o.bound.pa)) == [(5, 0x260000)]) &&
   waits (.fopRel 2 7) { s with mu := { s.mu with fq := List.replicate 16 (0, 0) } })) = true := by decide +kernel

theorem test_meets_FactorAtHome :
  ((let op : FactorOp := { fop 0 with data := 0x7F81 }
    let s := withFactor [op] []
    s.mu.factor.find? (fun o => o.result.isNone && !o.asked && (o.kind == 5 || s.target o.bound.leaf == 0)) == some op &&
    oks (s.readHome op.bound 0x20000 16) (fun v => v == 0x7F81) && s.isBound op.task &&
    ends .factorAtHome s (fun t => t.mu.factor == [{ op with result := some (1, 0) }] && t.scrByte 0 == 0x81 && t.cell 0x20000 == 0)) &&
  (let s := withFactor [fop 1] []
   oks (s.readHome (fop 1).bound 0x20000 32) (fun v => v != 0) && ends .factorAtHome s (fun t => t.scrByte 0 == 0x81 && t.mem == s.mem)) &&
  (let s : State := { withFactor [fop 0] [] with task := { base.task with id := 3 } }
   !s.isBound (fop 0).task && ends .factorAtHome s (fun t => t.mu.factor == [] && t.scr == s.scr)) &&
  (let gone := withFactor [{ fop 2 with result := some (3, 1) }] []
   gone.mu.factor.find? (fun o => o.result.isNone && !o.asked && (o.kind == 5 || gone.target o.bound.leaf == 0)) == none && ends .factorAtHome gone (fun t => t.mu == gone.mu)) &&
  (let s := withFactor [{ fop 2 with result := some (3, 1) }, { fop 2 with id := 1 }] []
   !s.input.flag && s.scr.fmtPend == [] && ends .factorResult s (fun t => t.mu.fq == [(3, 1)] && t.mu.factor == [{ fop 2 with id := 1 }])) &&
  (let s : State := { withFactor [{ fop 2 with result := some (3, 1) }, { fop 2 with id := 1, result := some (4, 0) }, { fop 2 with id := 2 },
     { fop 2 with id := 3, result := some (5, 0) }] [(9, 9)] with input := { flag := true, w := 9 } }
   (s.mu.factor.find? (fun o => o.result.isNone && o.id == 9)).isNone &&
   ends .factorResult s (fun t => t.mu.fq == [(9, 9), (3, 1), (4, 0)] && t.mu.factor.map (fun o => o.id) == [2, 3])) &&
  (let op : FactorOp := { fop 2 with bound := ⟨0, 0, true, leafPeer, 0x20000, false⟩, id := 4 }
   let s : State := { withFactor [op] [] with input := { flag := true, w := 4, v := 7, n := 2 } }
   s.target op.bound.leaf == 1 && s.isBound op.task && ends .factorResult s (fun t => t.mu.fq == [(7, 2)] && t.mu.factor == [])) &&
  ends .factorResult (withFactor [fop 2, fop 2] []) (fun t => t.mu.fq == []) && ends .factorResult base (fun _ => true)) = true := by decide +kernel

/-- A chase whose first hop lies in a peer's memory. -/
theorem test_meets_FactorAtHome_asks :
  (let op : FactorOp := { fop 3 with b := 2, ptr := 0 }
   let s : State := { withFactor [op] [] with mu := { (withFactor [op] []).mu with tlb := [⟨0, 0, 0, leafPeer, 0⟩] } }
   ends .factorAtHome s (fun t => t.mu.factor == [{ op with asked := true }] && t.outbox.length == 1)) = true := by decide +kernel

theorem test_meets_QueueWords_factor :
  (ends (.fpop 3 4) (withFactor [] [(7, 5), (8, 6)]) (fun t => t.gReg 3 == 7 && t.gReg 4 == 5 && t.mu.fq == [(8, 6)]) &&
  ends (.fpopNr 3 2 4) (withFactor [] [(7, 5)]) (fun t => t.gReg 3 == 7 && t.pred .control 2) &&
  ends (.fpopNr 3 2 4) (base.setG 3 9) (fun t => t.gReg 3 == 0 && !t.pred .control 2) &&
  raises (.fpop 3 4) base .queueUnderflow && waits (.fpop 3 4) (withFactor [fop 2] []) && gives (.fstat 3) (withFactor [fop 2] [(0, 0), (0, 0)]) 3 0x201) = true := by
  decide +kernel

/-- The base state with tags complete and pending. -/
def withTags (done pending : Word64) : State := (base.setCsr 0x19 done).setCsr 0x1A pending

theorem test_meets_CouplingWords :
  (base.acked 0 && base.regionDone && base.mu.deferred == [] && raises (.tokPut 1 0) base .fieldRange && raises (.xTokGet 1 0) base .fieldRange && raises (.eTokGet 1 0) base .fieldRange &&
  !(withRows [row0 .sent none]).acked 0 && waits (.tokPut 1 1) (withRows [row0 .sent none]) &&
  raises (.tokPut 1 1) (base.setTokens 1 255) .tokenOverflow && raises (.xTokPut 1 255) (base.setTokens 1 1) .tokenOverflow && !base.opsClaim base.engineSeq &&
  raises (.eTokPut 1 255) (base.setTokens 1 1) .tokenOverflow && ends (.tokPut 1 255) base (fun t => t.tokens 1 == 255) &&
  ends (.xTokPut 1 1) (base.setTokens 1 254) (fun t => t.tokens 1 == 255) && ends (.eTokPut 1 1) base (fun t => t.tokens 1 == 1) &&
  waits (.tokGet 1 1) base && waits (.xTokGet 1 255) (base.setTokens 1 254) && waits (.eTokGet 1 1) base &&
  ends (.tokGet 1 255) (base.setTokens 1 255) (fun t => t.tokens 1 == 0) && ends (.xTokGet 1 1) (base.setTokens 1 1) (fun t => t.tokens 1 == 0) &&
  raises (.tagAny 3 1 0) base .fieldRange && raises (.tagAny 3 1 0) (base.setG 1 8) .fieldRange && waits (.tagAny 3 1 0) ((withTags 0 8).setG 1 24) &&
  ends (.tagAny 3 1 1) ((withTags 9 0).setG 1 24) (fun t => t.gReg 3 == 8 && t.csrOf 0x19 == 1) &&
  raises (.tagAll 3 1 0) base .fieldRange && raises (.tagAll 3 1 0) ((withTags 9 0).setG 1 24) .fieldRange && waits (.tagAll 3 1 0) ((withTags 8 16).setG 1 24) &&
  ends (.tagAll 3 1 0) ((withTags 24 0).setG 1 24) (fun t => t.gReg 3 == 24 && t.csrOf 0x19 == 24) &&
  raises (.tagwAny 0 3 4) base .fieldRange && raises (.tagwTst 0 1 3 4) base .fieldRange && waits (.tagwAny 0 4 3) (withTags 0 8) &&
  ends (.tagwAny 1 63 63) (withTags 0x8000000000000001 0) (fun t => t.csrOf 0x19 == 1) && ends (.tagwAll 1 63 0) (withTags (-1) 0) (fun t => t.csrOf 0x19 == 0) &&
  waits (.tagwAll 0 4 3) (withTags 8 16) && ends (.tagwTst 1 1 4 3) (withTags 8 0) (fun t => t.pred t.engineSeq 1 && t.csrOf 0x19 == 8) &&
  raises (.tagwAny 0 4 3) base .fieldRange && raises (.tagwAll 0 4 3) (withTags 8 0) .fieldRange && raises (.tagwAll 0 63 0) (withTags 1 2) .fieldRange &&
  ends (.xTokPut 1 1) { base with mat := { base.mat with stored := 44 } } (fun t => t.vec.now == 44 && fld (t.csrOf 0xC) 0 19 == 44) &&
  gives (.tagFirst 3 1) ((withTags 24 0).setG 1 16) 3 4 && gives (.tagFirst 3 1) base 3 64) = true := by decide +kernel

/-- A group record: EPOCH, EXPECT, ARRIVED, MEMBERS, open (R167). -/
def record (epoch expect arrived members : Nat) : GroupRecord :=
  put (put (put (put (1 : BitVec 256) 224 32 epoch) 204 20 expect) 184 20 arrived) 164 20 members

/-- A group record at the beginning of page 0, and memberships of the task. -/
def withGroup (g : GroupRecord) (l : List Member) : State :=
  let s := base.writeCell 0x20000 32 g.toNat (0, 0)
  { s with task := { s.task with members := l } }

theorem test_meets_GroupWords :
  ((joinGroup (record 5 0 0 0) 8).1 == record 5 1 0 1 && (joinGroup (record 5 0 0 (2 ^ 20 - 2)) 8).1 == record 5 (2 ^ 20 - 1) 0 (2 ^ 20 - 1) &&
  (joinGroup (record 5 3 1 3) 8).1 == record 5 3 1 4 && !countedNow (record 5 3 1 4) ⟨8, 5, false, none⟩ && arriveGroup (record 5 3 1 4) ⟨8, 5, false, none⟩ == none &&
  arriveGroup (record 5 3 1 3) ⟨8, 4, false, some 5⟩ == none && arriveGroup (record 5 3 1 4) ⟨8, 4, false, none⟩ == some (record 5 3 2 4, ⟨8, 4, false, some 5⟩) &&
  arriveGroup (record 0xFFFFFFFF 3 2 4) ⟨8, 4, false, none⟩ == some (record 0 4 0 4, ⟨8, 4, false, some 0xFFFFFFFF⟩) &&
  leaveGroup (record 5 3 1 4) ⟨8, 4, false, some 5⟩ == record 5 3 1 3 && leaveGroup (record 5 3 2 3) ⟨8, 4, false, none⟩ == record 6 2 0 2 &&
  (let s := withGroup (record 5 3 2 3) [⟨0, 4, false, none⟩]
   oks (s.bindAccess 0 .both) (fun r => !leafChk r.2.1.leaf && r.1.target r.2.1.leaf == 0 && (r.1.homeRefusal r.2.1 r.2.1.pa true).isNone &&
     oks (r.1.readHome r.2.1 r.2.1.pa 32) (fun v => BitVec.ofNat 256 v == record 5 3 2 3)) &&
   (s.member 0).isSome && ends (.barArrive 3 1) s (fun t => t.gReg 3 == 5 && BitVec.ofNat 256 (getBytes t.cell 0x20000 32) == record 6 3 0 3) &&
   nexts (exec (.barWait 1 2) (s.setG 2 5)) (fun t => t.last == .waits) && ends (.barWait 1 2) (s.setG 2 4) (fun _ => true) &&
   ends (.leave 1) s (fun t => t.task.members == [] && BitVec.ofNat 256 (getBytes t.cell 0x20000 32) == record 6 2 0 2) && raises (.dissolve 1) s .groupState) &&
  (let s := withGroup (record 5 0 0 0) []
   s.task.members.length == 0 && s.member 0 == none && ends (.join 3 1) s (fun t => t.gReg 3 == 5 && t.task.members.length == 1) &&
   raises (.leave 1) s .groupState && raises (.barArrive 3 1) s .groupState && ends (.dissolve 1) s (fun t => t.cell 0x20000 == 0)) &&
  raises (.barArrive 3 1) (withGroup (record 5 3 2 3) [⟨0, 5, false, none⟩]) .groupState &&
  raises (.join 3 1) (withGroup (record 5 3 2 3 &&& ~~~1) []) .groupState &&
  ends (.join 3 1) (withGroup (record 5 3 2 3) [⟨32, 0, false, none⟩, ⟨64, 0, false, none⟩, ⟨96, 0, false, none⟩]) (fun t => t.task.members.length == 4)) = true := by
  decide +kernel

/-- The base state with entries in value queue 1. -/
def withVq (l : List Word64) : State := base.setValueQueue 1 l

theorem test_meets_QueueWords :
  (raises (.vqpush 1 1) (withVq (List.replicate 8 0)) .queueOverflow && ends (.vqpush 1 1) ((withVq (List.replicate 7 0)).setG 1 5) (fun t => t.valueQueue 1 == List.replicate 7 0 ++ [5]) &&
  raises (.vqpop 3 1 0) base .queueUnderflow && waits (.vqpopPeek 3 1 0) base && ends (.vqpopNr 3 1 0 2) base (fun t => !t.pred .compute 2) &&
  ends (.vqpop 47 1 1) (withVq [0xAB00000001, 2]) (fun t => vlane (t.vReg 47) 1023 == ⟨0xAB, false⟩ && t.valueQueue 1 == [2]) &&
  ends (.vqpopPeek 0 1 0) (withVq [0xAB00000001]) (fun t => vlane (t.vReg 0) 0 == ⟨1, false⟩ && t.valueQueue 1 == [0xAB00000001]) &&
  ends (.vqpopNr 0 1 0 2) (withVq [7]) (fun t => t.pred .compute 2 && t.valueQueue 1 == []) &&
  (let s := withFactor [] [(0x100000002, 3)]
   ((s.awaitMq 1).takeEntry 1).isSome && ends (.rqpop 5 1) s (fun t => vlane (t.vReg 5) 0 == ⟨2, false⟩ && vlane (t.vReg 5) 1 == ⟨1, false⟩ &&
     vlane (t.vReg 5) 2 == ⟨3, false⟩ && vlane (t.vReg 5) 3 == ⟨0, false⟩ && t.mu.fq == []) && ends (.rqpopNr 5 1 4) s (fun t => t.pred .compute 4)) &&
  ((base.awaitMq 1).takeEntry 1).isNone && !(base.awaitMq 1).pushDue 1 && raises (.rqpop 5 1) base .queueUnderflow && raises (.rqpop 5 2) base .queueUnderflow &&
  (let s := withFactor [fop 2] []
   (s.awaitMq 1).pushDue 1 && waits (.rqpop 5 1) s && ends (.rqpopNr 5 1 4) s (fun t => !t.pred .compute 4)) &&
  (let s : State := { base with mat := { base.mat with mq := [(9, 1, 4)] } }
   ends (.rqpop 5 0) s (fun t => vlane (t.vReg 5) 0 == ⟨9, false⟩ && t.mat.mq == []))) = true := by decide +kernel

/-- The record of an input walk of one row at scratchpad address 0 under bank format FP32. -/
def walk1 : Record := ⟨0, 0, 0⟩

theorem test_meets_MaskAndPortWords :
  (ends (.kandn 3 1 2) (((base.setK 1 12 0).setK 2 4 0)) (fun t => mget t.vec.file.k 0 3 == 8) && ends (.kset 7) base (fun t => mget t.vec.file.k 0 7 == BitVec.allOnes 1024) &&
  ends (.kall 3 7) (base.setK 7 (BitVec.allOnes 1024) 0) (fun t => t.pred .compute 3) && ends (.kany 0 7) base (fun t => t.pred .compute 0) &&
  raises (.sset 4 1 0) base .queueUnderflow && ends (.sset 11 2 1) (withVq [5]) (fun t => (t.recordOf 11).w2 == 5 && t.valueQueue 1 == []) &&
  ends (.sunbind 0 7) base (fun _ => true) && ends (.sunbind 1 3) base (fun _ => true) && !base.outBusy 3 && ends (.qrdy 5 7) base (fun t => !t.pred .compute 5) &&
  (let s : State := { base with vec := { base.vec with out := [(0, ⟨none, 1, [⟨[], false, 0, false, 5, [], 0, [], ⟨0, 0, false, true⟩⟩]⟩)] } }
   s.outBusy 0 && waits (.sunbind 1 0) s) &&
  (let s : State := { base with vec := { base.vec with inp := [(2, ⟨none, 0, [⟨[], 16, none⟩]⟩)] } }
   ends (.qrdy 5 2) s (fun t => t.pred .compute 5))) = true := by decide +kernel

/-- An engine operation of the load sequencer: a copy with one packet to send, with a claim of its region. -/
def claimer : EngOp := ⟨0, .load, 0, false, none, 0, true, 0, true, 0x1000, true, 0, 1, 0, false, [], false, 0, [], 0, [], [1], false, none⟩

theorem test_meets_SwapWords :
  (ends .eSwap base (fun t => t.atSwap base.engineSeq && !t.allReached) && ends .eYield base (fun t => t.phase.yields && t.agenda == []) &&
  (let s : State := { base with eng := { base.eng with ops := [claimer] }, turn := .seq .load }
   s.engineSeq == .load && s.opsClaim .load && waits .eSwap s && waits .eYield s && waits (.eTokPut 1 1) s) &&
  ends .swap base (fun t => t.atSwap .compute && t.agenda == [] && t.phase.swapping == some false) && ends .xYield base (fun t => t.phase.swapping == some true) &&
  (let s : State := { base with phase := { base.phase with reached := 5, swapping := some true } }
   s.mat.ops == [] && s.reachSwap.allReached && s.reachSwap.phase.yields && s.reachSwap.agenda.any (fun p => p.event == .swapRendezvous) &&
   let op : MatOp := ⟨0, 0, 0, 0, 0, 0, false, true, 0⟩
   let w : State := { s with mat := { s.mat with ops := [op] } }
   w.mat.ops != [] && w.reachSwap.phase == w.phase && w.reachSwap.agenda == w.agenda) &&
  (let s : State := { base with phase := { base.phase with reached := 3 }, turn := .seq .store }
   s.engineSeq == .store && ends .eSwap s (fun t => t.allReached && t.agenda.any (fun p => p.event == .swapRendezvous))) &&
  ends (.phaseBegin 3) { base with phase := { base.phase with first := true } } (fun t => t.pcOf .compute == 0x2010) && raises (.phaseBegin 3) base .illegal &&
  base.phase.first == false && !base.compat) = true := by decide +kernel

/-! Witnesses and small steps for vector words. -/

/-- An image whose first lanes hold `l`, every other lane zero. -/
def image (l : List Word32) : VReg := l.zipIdx.filterMap (fun p => if p.1 = 0 then none else some (p.2, ⟨p.1, false⟩))

/-- The base state with v1, v2 and v3 holding images, and k1 one in lane 0 alone. -/
def withV (a b c : List Word32) : State :=
  { base with vec := { base.vec with file := { v := [(1, image a), (2, image b), (3, image c)].filter (fun p => p.2 != []), k := [(1, 1)], d := [] } } }

/-- Lane `n` of v3 after a word that completes. -/
def lane3 (i : Instr) (s : State) (n : Nat) (w : Word32) (side : Bool) : Bool := ends i s (fun t => vlane (mget t.vec.file.v [] 3) n == ⟨w, side⟩)

/-- The hypotheses of `VRuns`: the word has a form, its operands are there, and its destination is a register. -/
def runsOn (s : State) (i : Instr) : Bool :=
  match vform i with
  | none => false
  | some f =>
    match s.sourceIf (f.ak == .vec) i 0 f.a f.ha with
    | .got _ s1 =>
      match s1.sourceIf (f.bk == .vec) i 1 f.b f.hb with
      | .got _ s2 =>
        match s2.sourceIf (f.dk == .regRead) i 2 f.d f.hc with
        | .got _ _ => f.dk == .mask || f.dk == .dir || f.d.toNat < 48
        | _ => false
      | _ => false
    | _ => false

theorem test_meets_VectorFloatWords : ([Instr.vFadd 47 1 2 1 7 0 0, .vFsub 3 1 2 0 0 0 0, .vFmul 3 1 2 0 0 0 0, .vFmin 3 1 2 0 0 0 0, .vFmax 3 1 2 0 0 0 0, .vFabs 3 1 0 0 0,
  .vFneg 3 1 0 0 0, .vFma 3 1 2 0 0 0 0 0, .vFms 3 1 2 0 0 0 0 0].all (runsOn base)) = true := by decide +kernel

theorem test_vector_float :
  (lane3 (.vFadd 3 1 2 1 1 0 0) (withV [0x3F800000] [0x40000000] []) 0 0x40400000 false && lane3 (.vFsub 3 1 2 1 1 0 0) (withV [0x3F800000] [0x40000000] []) 0 0xBF800000 false &&
  lane3 (.vFmul 3 1 2 1 1 0 0) (withV [0x7F000000] [0x40000000] []) 0 0x7F7FFFFF false && lane3 (.vFmul 3 1 2 1 1 0 0) ((withV [0x7F000000] [0x40000000] []).setCsr 0x14 4) 0 0x7F800000 false && lane3 (.vFadd 3 1 2 1 1 0 0) (withV [0x3F800000] [0x33800000] []) 0 0x3F800000 false &&
  lane3 (.vFma 3 1 2 1 1 0 0 0) (withV [0x40000000] [0x40400000] [0x3F800000]) 0 0x40E00000 false &&
  lane3 (.vFms 3 1 2 1 1 0 0 0) (withV [0x40000000] [0x40400000] [0x3F800000]) 0 0xC0A00000 false &&
  lane3 (.vFmin 3 1 2 1 1 0 0) (withV [0x80000000] [0] []) 0 0x80000000 false && lane3 (.vFmax 3 1 2 1 1 0 0) (withV [0x3F800000] [0xC0000000] []) 0 0x3F800000 false &&
  lane3 (.vFabs 3 1 1 1 0) (withV [0xBF800000] [] []) 0 0x3F800000 false && lane3 (.vFneg 3 1 1 1 0) (withV [0x3F800000] [] []) 0 0xBF800000 false &&
  lane3 (.vFadd 3 1 2 1 1 0 0) (withV [0, 0x3F800000] [] [0, 0x40000000]) 1 0x40000000 false) = true := by decide +kernel

theorem test_meets_VectorIntegerWords : ([Instr.vAdd 47 1 2 1 7 0 0, .vSub 3 1 2 0 0 0 0, .vMul 3 1 2 0 0 0 0, .vMulh 3 1 2 0 0 0 0, .vAnd 3 1 2 0 0 0 0, .vOr 3 1 2 0 0 0 0,
  .vXor 3 1 2 0 0 0 0, .vShl 3 1 2 0 0 0 0, .vShr 3 1 2 0 0 0 0, .vSra 3 1 2 0 0 0 0, .vMin 3 1 2 0 0 0 0, .vMax 3 1 2 0 0 0 0, .vMinu 3 1 2 0 0 0 0, .vMaxu 3 1 2 0 0 0 0,
  .vDiv 3 1 2 0 0 0 0, .vDivu 3 1 2 0 0 0 0, .vRem 3 1 2 0 0 0 0, .vRemu 3 1 2 0 0 0 0, .vAdds 3 1 2 0 0 0 0, .vSubs 3 1 2 0 0 0 0, .vShli 3 1 63 0 0 0, .vShri 3 1 2 0 0 0,
  .vSrai 3 1 2 0 0 0, .vWmacS8 3 1 2 0 0 0 0 0, .vWmacS8Sat 3 1 2 0 0 0 0 0, .vWmacU8 3 1 2 0 0 0 0 0, .vWmacU8Sat 3 1 2 0 0 0 0 0, .vWmacS16 3 1 2 0 0 0 0 0,
  .vWmacS16Sat 3 1 2 0 0 0 0 0, .vWmacU16 3 1 2 0 0 0 0 0, .vWmacU16Sat 3 1 2 0 0 0 0 0].all (runsOn base)) = true := by decide +kernel

theorem test_vector_integer :
  (lane3 (.vAdd 3 1 2 1 1 0 0) (withV [0xFFFFFFFF] [2] []) 0 1 false && lane3 (.vSub 3 1 2 1 1 0 0) (withV [0] [1] []) 0 0xFFFFFFFF false &&
  lane3 (.vMul 3 1 2 1 1 0 0) (withV [0xFFFFFFFF] [5] []) 0 0xFFFFFFFB false && lane3 (.vMulh 3 1 2 1 1 0 0) (withV [0xFFFFFFFF] [1] []) 0 0xFFFFFFFF false &&
  lane3 (.vAnd 3 1 2 1 1 0 0) (withV [12] [10] []) 0 8 false && lane3 (.vOr 3 1 2 1 1 0 0) (withV [12] [10] []) 0 14 false && lane3 (.vXor 3 1 2 1 1 0 0) (withV [12] [10] []) 0 6 false &&
  lane3 (.vShl 3 1 2 1 1 0 0) (withV [3] [33] []) 0 6 false && lane3 (.vShr 3 1 2 1 1 0 0) (withV [0x80000000] [31] []) 0 1 false &&
  lane3 (.vSra 3 1 2 1 1 0 0) (withV [0x80000000] [31] []) 0 0xFFFFFFFF false && lane3 (.vMin 3 1 2 1 1 0 0) (withV [0xFFFFFFFF] [1] []) 0 0xFFFFFFFF false &&
  lane3 (.vMax 3 1 2 1 1 0 0) (withV [0xFFFFFFFF] [1] []) 0 1 false && lane3 (.vMinu 3 1 2 1 1 0 0) (withV [0xFFFFFFFF] [1] []) 0 1 false &&
  lane3 (.vMaxu 3 1 2 1 1 0 0) (withV [0xFFFFFFFF] [1] []) 0 0xFFFFFFFF false && lane3 (.vDiv 3 1 2 1 1 0 0) (withV [0x80000000] [0xFFFFFFFF] []) 0 0x80000000 false &&
  lane3 (.vDivu 3 1 2 1 1 0 0) (withV [7] [] []) 0 0xFFFFFFFF false && lane3 (.vRem 3 1 2 1 1 0 0) (withV [0xFFFFFFF9] [2] []) 0 0xFFFFFFFF false &&
  lane3 (.vRemu 3 1 2 1 1 0 0) (withV [7] [] []) 0 7 false && lane3 (.vAdds 3 1 2 1 1 0 0) (withV [0x7FFFFFFF] [1] []) 0 0x7FFFFFFF false &&
  lane3 (.vSubs 3 1 2 1 1 0 0) (withV [0x80000000] [1] []) 0 0x80000000 false && lane3 (.vSrai 3 1 4 1 1 0) (withV [0x80000000] [] []) 0 0xF8000000 false &&
  lane3 (.vShli 3 1 4 1 1 0) (withV [3] [] []) 0 48 false && lane3 (.vShri 3 1 1 1 1 0) (withV [3] [] []) 0 1 false) = true := by decide +kernel

-- R266 works this one out: A = 0x0302_01FF, B = 0x0101_0101 and D = 10 give 15 for s8 and 271 for u8.
theorem test_wmac :
  (lane3 (.vWmacS8 3 1 2 1 1 0 0 0) (withV [0x030201FF] [0x01010101] [10]) 0 15 false && lane3 (.vWmacU8 3 1 2 1 1 0 0 0) (withV [0x030201FF] [0x01010101] [10]) 0 271 false &&
  lane3 (.vWmacS16 3 1 2 1 1 0 0 0) (withV [0xFFFF0002] [0x00010003] [0]) 0 5 false && lane3 (.vWmacU16 3 1 2 1 1 0 0 0) (withV [0xFFFF0002] [0x00010003] [0]) 0 0x10005 false &&
  lane3 (.vWmacS8Sat 3 1 2 1 1 0 0 0) (withV [1] [1] [0x7FFFFFFF]) 0 0x7FFFFFFF false && lane3 (.vWmacS8 3 1 2 1 1 0 0 0) (withV [1] [1] [0x7FFFFFFF]) 0 0x80000000 false &&
  lane3 (.vWmacU8Sat 3 1 2 1 1 0 0 0) (withV [1] [1] [0x7FFFFFFF]) 0 0x7FFFFFFF false && lane3 (.vWmacS16Sat 3 1 2 1 1 0 0 0) (withV [1] [1] [0x7FFFFFFF]) 0 0x7FFFFFFF false &&
  lane3 (.vWmacU16Sat 3 1 2 1 1 0 0 0) (withV [1] [1] [0x7FFFFFFF]) 0 0x7FFFFFFF false) = true := by decide +kernel

theorem test_meets_VectorMoveWords_compares : ([Instr.vFcmpEq 7 1 2 1 7 0 0, .vFcmpLt 3 1 2 0 0 0 0, .vFcmpLe 3 1 2 0 0 0 0, .vFcmpUn 3 1 2 0 0 0 0, .vIcmpEq 3 1 2 0 0 0 0,
  .vIcmpLt 3 1 2 0 0 0 0, .vIcmpLtu 3 1 2 0 0 0 0, .vptst 3 1 0 0 0, .vsel 47 1 2 1 0 0].all (runsOn base)) = true := by decide +kernel

/-- Bit `n` of k3 after a word that completes. -/
def bit3 (i : Instr) (s : State) (n : Nat) : Bool := ends i s (fun t => (mget t.vec.file.k 0 3).getLsbD n)

theorem test_vector_compare :
  (bit3 (.vFcmpEq 3 1 2 0 0 0 0) (withV [0x80000000] [] []) 0 && bit3 (.vFcmpLt 3 1 2 0 0 0 0) (withV [0xBF800000] [] []) 0 && !bit3 (.vFcmpLt 3 1 2 0 0 0 0) (withV [0xBF800000] [] []) 1 &&
  bit3 (.vFcmpLe 3 1 2 0 0 0 0) (withV [] [] []) 1023 && bit3 (.vFcmpUn 3 1 2 0 0 0 0) (withV [0x7FC00000] [] []) 0 && !bit3 (.vFcmpLe 3 1 2 0 0 0 0) (withV [0x7FFFFFFF] [] []) 0 &&
  bit3 (.vIcmpEq 3 1 2 0 0 0 0) (withV [5] [5] []) 0 && bit3 (.vIcmpLt 3 1 2 0 0 0 0) (withV [0xFFFFFFFF] [1] []) 0 && !bit3 (.vIcmpLtu 3 1 2 0 0 0 0) (withV [0xFFFFFFFF] [1] []) 0 &&
  bit3 (.vptst 3 1 0 0 0) (withV [0x7FFFFFFF] [] []) 0 && !bit3 (.vptst 3 1 0 0 0) (withV [0x7FFFFFFF] [] []) 1 &&
  lane3 (.vsel 3 1 2 1 0 0) (withV [7, 7] [8, 8] []) 0 7 false && lane3 (.vsel 3 1 2 1 0 0) (withV [7, 7] [8, 8] []) 1 8 false) = true := by decide +kernel

theorem test_meets_VectorMoveWords : ([Instr.vmov 47 1 1 7 0, .cvtTo 3 1 2 0 0 0, .cvtFrom 3 1 2 0 0 0, .cvtIto 3 1 2 0 0 0, .vrotR 3 1 63 0 0 0, .vrotC 3 1 15 0 0 0, .vbcc 3 1 63 0 0 0,
  .vbcr 3 1 15 0 0 0, .vredR 3 1 0 0 0 0, .vredC 3 1 0 0 0 0, .vscanR 3 1 0 0 0 0, .vscanC 3 1 0 0 0 0].all (runsOn base)) = true := by decide +kernel

theorem test_vector_moves :
  (lane3 (.vmov 3 1 0 0 0) (withV [7] [] []) 0 7 false && lane3 (.vrotR 3 1 1 0 0 0) (withV [7] [] []) 1 7 false && lane3 (.vrotR 3 1 63 0 0 0) (withV [7] [] []) 63 7 false &&
  lane3 (.vrotC 3 1 1 0 0 0) (withV [7] [] []) 64 7 false && lane3 (.vbcc 3 1 0 0 0 0) (withV [7] [] []) 63 7 false && lane3 (.vbcc 3 1 0 0 0 0) (withV [7] [] []) 64 0 false &&
  lane3 (.vbcr 3 1 0 0 0 0) (withV [0, 7] [] []) 961 7 false) = true := by decide +kernel

theorem test_meets_DirectionalWords : ([Instr.dnorm 15 1 0, .dadd 3 1 2, .dsub 3 1 2, .dscl 3 1 2 0, .dscli 3 1 63, .dexp 47 1 1 7, .ddot 3 1 2 0 0, .ddotn 3 1 2 0 0, .dcomp 3 1 0 0,
  .dnget 3 1 0 0, .dtst 7 1 5].all (runsOn base)) = true := by decide +kernel

-- The worked renormalisation of chapter 15: the row (3, 4).
/-- The state after dnorm d2, v8. -/
def normed : State := { base with vec := { base.vec with file := { base.vec.file with d := [(2, DReg.ofRows [dnormRow ((List.range 64).map (vlane (image [0x40400000, 0x40800000])))])] } } }

theorem test_dnorm : ends (.dnorm 2 1 0) (withV [0x40400000, 0x40800000] [] []) (fun t => let d := mget t.vec.file.d .zero 2
  d.comp 0 0 == 9830 && d.comp 0 1 == 13107 && d.comp 0 2 == 0 && d.norm 0 == 0x00949A78) = true := by decide +kernel

theorem test_dexp : (lane3 (.dexp 3 2 1 1) (normed.setK 1 1 0) 0 0x403FFDFF false  && lane3 (.dexp 3 2 1 1) (normed.setK 1 2 0) 1 0x407FFEFE false) = true := by
  decide +kernel

theorem test_ddot : lane3 (.ddot 3 2 2 1 1) (normed.setK 1 8 0) 3 0x3F7FFCCD false = true := by decide +kernel

theorem test_dtst : (!bit3 (.dtst 3 2 2) normed 0) = true := by decide +kernel

theorem test_meets_DirectionalWords_logs : ([Instr.lcvt 47 1 0 1 7 0, .lmul 3 1 2 0 0 0 0, .ldiv 3 1 2 0 0 0 0, .lsh 3 1 1 7 0 0 0, .lfn 3 1 4 0 0 0].all (runsOn base)) = true := by decide +kernel

-- The worked example of chapter 15: the L32 form of 3.0.
theorem test_lcvt : lane3 (.lcvt 3 1 0 1 1 0) (withV [0x40400000] [] []) 0 0x00657006 false = true := by decide +kernel

-- The same chapter: the way back from F = 2,453,510, and 3.0 less 2^-21.
theorem test_lcvt_back : lane3 (.lcvt 3 1 1 1 1 0) (withV [0x00657006] [] []) 0 0x403FFFFE false = true := by decide +kernel

theorem test_meets_VectorOperands :
  ((match base.source (.vFadd 3 1 2 0 0 0 0) 0 1 false with
    | .got _ t => t.latchOf 0 == some (1, base.vReg 1)
    | _ => false) &&
  (let s := base.setLatch 0 (some (1, image [5]))
   s.latchOf 0 == some (1, image [5]) && lane3 (.vFabs 3 1 0 0 1) s 0 5 false && raises (.vFabs 3 2 0 0 1) s .badRegister) && raises (.vFabs 3 1 0 0 1) base .badRegister &&
  (base.inPort 0).bound == none && raises (.vFabs 3 48 0 0 0) base .queueUnderflow && raises (.vFadd 3 55 1 0 0 0 0) base .queueUnderflow &&
  (let b : Binding := ⟨⟨0, 16, 0⟩, ⟨0, 0, 0⟩, 0, false⟩
   let s : State := { base with vec := { base.vec with inp := [(0, ⟨some b, 0, []⟩)] } }
   (s.inPort 0).bound == some b && (s.inPort 0).images == [] && (raises (.vFabs 3 48 0 0 0) s .queueUnderflow || waits (.vFabs 3 48 0 0 0) s)) &&
  (match base.source (.dnorm 0 48 0) 0 48 false with
    | .fails c _ _ => c == .queueUnderflow
    | _ => false)) = true := by decide +kernel

theorem test_meets_VectorOperands_frame : ((vform (.vFadd 3 1 2 0 0 0 0)).isSome && ends (.vFadd 3 1 2 0 0 0 0) base (fun _ => true) && vecWrites (.vFadd 3 1 2 0 0 0 0) == [3]) = true := by
  decide +kernel

/-! Encodings. -/

/-- An instruction passes the decode checks of a space, has a word there, and the word decodes to it. -/
noncomputable def roundTrips (sp : Space) (i : Instr) : Bool :=
  WellFormed sp i && match encode i with
    | some w => (match decode sp w with
      | .ok j => i == j
      | .error _ => false)
    | none => false

/-- A word decodes in a space to an instruction. -/
noncomputable def reads (sp : Space) (w : Word32) (i : Instr) : Bool :=
  match decode sp w with
  | .ok j => i == j
  | .error _ => false

/-- A word is refused in a space. -/
noncomputable def rejects (sp : Space) (w : Word32) (e : DecodeFault) : Bool :=
  match decode sp w with
  | .ok _ => false
  | .error f => e == f

theorem test_meets_ScalarWordsRoundTrip : ([Instr.add 31 31 31, .movi 31 (-1), .aset 15 31 31, .cmpiGeu 15 31 (-1), .br 1 15 (-1), .ld 31 15 1 3 (-1), .sld 31 15 2 3 7 (-1),
  .stDue 31 15 2 3 1 31 63, .amoCas 31 15 31 3 2 1, .fopProg 31 15 31 7, .csrrw 31 31 0x90, .tmplLd 2 63 15 (-1), .rpop 24 15, .invalVa 15 31, .nop, .mwclr 31].all
    (roundTrips .control)) = true := by decide +kernel

theorem test_meets_SlotWordsRoundTrip : ([Instr.vFma 47 47 47 1 7 0 0 0, .vFadd 51 55 55 0 0 0 0, .vIcmpLtu 7 55 47 1 7 0 0, .dnorm 15 47 0, .vredR 47 47 3 1 7 0, .vNop].all (roundTrips .v1) &&
  [Instr.accSt 3 63 0 255, .mpush 3 63 63 1, .patchM 63 7 (-1) 1 0 1 1, .accTov 47 3 3, .mwaitAll].all (roundTrips .m) &&
  [Instr.sbind 1 3 11, .kandn 7 7 7, .xLoop 1 3 (-1), .phaseBegin 255, .vqpopNr 47 1 1 15, .swap].all (roundTrips .x)) = true := by decide +kernel

theorem test_meets_SlotWordsRoundTrip_engines : ([Instr.eLoop 1 3 (-1), .tagwTst 1 15 63 63, .patch 63 31 (-1) 1 0 1 1, .eSwap, .eTokGet 2 255].all (roundTrips .store) &&
  [Instr.eBr 1 15 (-1), .eLcseti 1 3 7 (-1), .eNop].all (roundTrips .load)) = true := by decide +kernel

theorem test_meets_DecodedWordsAreWellFormed : ((decode .control 0x3127A001#32).isOk && (decode .x 0x1E0C0000#32).isOk) = true := by decide +kernel

-- A term for each check of R187 that the check refuses: a word of another space, a field value that stands for no instruction, a reserved field value, a register that is not there.
theorem test_ill_formed : (!WellFormed .control .vNop && !WellFormed .load .nop && !WellFormed .x .arrive && !WellFormed .m (.vFadd 1 2 3 0 0 0 0) &&
  !WellFormed .control (.aset 16 0 0) && !WellFormed .v0 (.vFadd 52 1 2 0 0 0 0) && !WellFormed .v0 (.vFadd 1 56 2 0 0 0 0) && !WellFormed .v0 (.dnorm 16 1 0) &&
  !WellFormed .v0 (.vFcmpEq 8 1 2 0 0 0 0) && !WellFormed .x (.sbind 1 4 0) && !WellFormed .x (.sbind 0 0 12) && !WellFormed .control (.rpop 25 0) &&
  !WellFormed .control (.amoAdd 0 0 0 0 3 0) && !WellFormed .control (.csrr 0 0xFFF) && !WellFormed .v0 (.vredR 1 2 63 0 0 0)) = true := by decide +kernel

-- Words written out from the encodings of the spec, a word or more of every family.
theorem test_control_words :
  (reads .control 0x3127A001 (.cmpNe 9 7 20) && reads .control 0xC0060901 (.csrw 6 0x90) && reads .control 0x7CE97580 (.ldNb 7 9 1 3 0 22) &&
  reads .control 0xAB230002 (.barArrive 25 3) && reads .control 0xB0850005 (.tagAll 4 5 1) && reads .control 0xD8031000 (.invalVa 3 2) &&
  reads .control 0xD0050000 (.trap 5) && reads .control 0xD0050001 (.hcall 5) && reads .control 0xD4040002 (.contain 4) && reads .control 0xD4030003 (.wsw 3) &&
  reads .control 0xD8001001 (.invalAsid 2) && reads .control 0xD8001003 (.mwclr 2) && reads .control 0x7A887540 (.stDue 20 8 1 3 0 21 0) &&
  reads .control 0xA803C803 (.barWait 3 25) && reads .control 0xB0C50002 (.tagFirst 6 5)) = true := by decide +kernel

theorem test_vector_words :
  (reads .v0 0xC0110000 (.dnorm 2 8 0) && reads .v0 0xC2484000 (.dexp 9 2 0 0) && reads .v0 0xD0086100 (.dtst 1 3 2) && reads .v0 0xD620A000 (.lcvt 4 5 0 0 0 0) &&
  reads .v0 0x08982680 (.vFmul 19 1 13 0 0 0 0) && reads .v1 0x04126400 (.vFadd 2 19 8 0 0 0 0) && reads .v1 0x0A482704 (.vFma 9 1 14 0 0 1 0 0) &&
  reads .v0 0xC4504100 (.ddot 10 2 2 0 0) && reads .v0 0xCE185F80 (.dscli 3 2 63)) = true := by decide +kernel

theorem test_matrix_and_engine_words :
  (reads .m 0x88600082 (.patchM 4 6 8 0 0 1 0) && reads .m 0x8800000A (.patchM 4 0 0 1 0 1 0) && reads .m 0x09000000 (.accClr 1) && reads .m 0x21149000 (.mpush 1 5 9 0) &&
  reads .m 0x26000000 .mwaitAll && reads .x 0x1E0C0000 (.sbind 1 0 3) && reads .x 0x60000601 (.xTokPut 6 1) && reads .load 0x093FFFFC (.eLoop 1 1 0x1FFFFC) &&
  reads .store 0x133FFFFE (.eBr 1 9 0x1FFFFE) && reads .load 0x1D0000C0 (.tagwAll 0 3 0) && reads .store 0x86502032 (.patch 3 5 0x203 0 0 1 0)) = true := by decide +kernel

theorem test_refused_words : (rejects .control 0 .illegal && rejects .control 0xFC000000 .illegal && rejects .m 0x09000001 .reservedBits && rejects .x 0 .illegal &&
  rejects .v0 0 .illegal && rejects .load 0x1F000000 .illegal && rejects .control 0xA0000001 .badRegister) = true := by decide +kernel

theorem test_table_words : ((match decodeTableWord 32 0x3127A001 with
    | some i => i == .cmpNe 9 7 20
    | none => false) && (decodeTableWord 64 0x3127A001).isNone) = true := by decide +kernel

/-! Steps. -/

/-- A word or a group at address 0, where a sequencer stands whose turn it is. -/
def at0 (q : Seq) (w : Nat) : State :=
  let s := (base.writeCell 0x20000 16 w (0, 0)).setPc q 0
  { s with turn := .seq q }

theorem test_meets_StepRuns_word :
  (let s := at0 .control 0x0C43FFFF  -- addi g2, g3, -1
   oks (s.leafFor s.asid 0 .fetch s.sup s.secure) (fun r => r.1.target r.2.leaf == 0 && leafAddress r.2.leaf r.2.level 0 == 0x20000 &&
     r.1.cellOf s.ilvCur 0x20000 == some 0x20000 && r.1.homeRefusal ⟨0, 0, true, r.2.leaf, 0x20000, false⟩ 0x20000 false == none && !(r.1.granule 0x20000).poison) &&
   s.coreRuns && s.asyncDue.isNone && s.boundary.isNone && (s.fetchGate .control).isNone && s.cycle.again == [] && s.issues .control && oks (s.fetch .control) (fun r => r.2 == 0x0C43FFFF) &&
   reads .control 0x0C43FFFF (.addi 2 3 0xFFFF) && nexts (step s) (fun t => t.gReg 2 == -1 && t.pcOf .control == 4 && t.turn == .hw) &&
   -- no word; a fetch that is refused; a sequencer that is idle
   nexts (step (at0 .control 0)) (fun t => t.last == .raised .illegal 0 0) &&
   errs (((at0 .load 0).setPc .load 0x20000).fetch .load) (fun e => e.1 == .notMapped) &&
   nexts (step ((at0 .load 0).setPc .load 0x20000)) (fun t => match t.last with
     | .raised .notMapped _ a => a == 0x20000
     | _ => false) &&
   (let u := (at0 .store 0).setSeq .store .reset
    !u.issues .store && u.coreRuns && nexts (step u) (fun t => t.turn == .seq .compute && t.seqs == u.seqs))) = true := by decide +kernel

theorem test_meets_StepRuns_turn :
  HasTurn (at0 .control 0) .control { at0 .control 0 with cycle := { (at0 .control 0).cycle with defers := true } } ∧
    ∃ c, HasTurn { at0 .load 0 with turn := .again .load } .load c := ⟨Or.inl ⟨rfl, rfl⟩, _, Or.inr ⟨rfl, rfl⟩⟩

theorem test_meets_StepRuns_gate :
  (let s : State := { (at0 .load 0) with mu := { base.mu with tlb := [⟨0, 0, 0, leafPeer ||| 0x80, 0⟩] } }
   (s.fetchGate .load).isSome && s.issues .load && s.coreRuns &&
   nexts (step s) (fun t => t.last == .waits && t.outbox.length == 1)) = true := by decide +kernel

theorem test_meets_StepRuns_group :
  (let g (v0 v1 m x : Nat) : State := at0 .compute (v0 + v1 * 2 ^ 32 + m * 2 ^ 64 + x * 2 ^ 96)
   let s := g 0x02000000 0x02000000 0x04000000 0x14000000  -- kany p0, k0 in the X slot
   s.coreRuns && s.asyncDue.isNone && (s.fetchGate .compute).isNone && s.issues .compute && oks (s.fetch .compute) (fun _ => true) && !s.phase.first &&
   nexts (step s) (fun t => t.last == .done && t.pcOf .compute == 16 && fld (t.csrOf 0xC) 0 19 == 1) &&
   -- the second slot does not decode; two slots write v3; a word that waits
   nexts (step (g 0x02000000 0 0x04000000 0x04000000)) (fun t => t.last == .raised .illegal 0x100000000 0) &&
   nexts (step (g 0x04184100 0x04184100 0x04000000 0x04000000)) (fun t => t.last == .raised .badRegister 0x104184100 0) &&
   nexts (step (g 0x04184100 0x02000000 0x04000000 0x62000001)) (fun t => t.last == .waits && t.vec.file == s.vec.file && t.pcOf .compute == 0) &&
   nexts (step (g 0x02000000 0x02000000 0x04000000 0x08000000)) (fun t => match t.last with
     | .raised .queueUnderflow _ _ => true
     | _ => false)) = true := by decide +kernel

theorem test_meets_MemoryStaysCanonical : (base.mem.wf && State.reset.mem.wf && nexts (step (at0 .control 0x04000000)) (fun t => t.mem.wf)) = true := by decide +kernel

theorem test_meets_UserModeKeepsSecurity : (decide ((Instr.csrw 1 0x1E).kind ≠ .event) && !base.sup && raises (.csrw 1 0x1E) base .privilege &&
  ends (.addi 1 0 5) base (fun t => t.pkg.regions == base.pkg.regions && t.pkg.deleg == base.pkg.deleg)) = true := by decide +kernel

theorem test_reset : (State.reset.mem.wf && State.reset.cell 5 == 0 && !State.reset.sup && State.reset.csrOf 0x16 == 8000 && State.reset.intlv false 1023 == 0x83FF) = true := by
  decide +kernel

/-! Witnesses for the statements about traps, CSRs and the clock. -/

/-- The secure world's handler stands at 0x8000: TVECS is 0x80. -/
theorem test_meets_HandlerEntryAndReturn_entry :
  (let s := ((((base.setA 12 5).setA 14 7).setA 15 6).setG 24 9).setG 23 8
   let t := s.raise .trapCall .control 0x4000 false 77 0xAB0000000000000001
   !s.inh && s.tvec (s.handlerWorld .trapCall) == 0x80 && s.handlerWorld .trapCall && t.csrOf 1 == 48 && t.csrOf 2 == 1 && t.csrOf 3 == 0xAB && t.csrOf 4 == 0x4000 &&
   t.csrOf 6 == 77 && t.inh && t.sup && t.secure && !t.status.getLsbD 3 && t.status.getLsbD 4 && fld t.status 5 2 == 3 && t.pcOf .control == 0x8000 &&
   t.aReg 15 == 0x4004 && t.aReg 14 == 0x4004 && t.aReg 12 == 0 && mget t.sc.bankA 0 28 == 5 && mget t.sc.bankA 0 31 == 6 && t.gReg 24 == 0 &&
   mget t.sc.bankG 0 56 == 9 && t.gReg 23 == 8 && t.pcOf .compute == 0x2000 &&
   -- a cause of another sequencer, asynchronous
   (let u := s.raise .lateStore .compute 0x2040 true 0 0
    u.csrOf 1 == 160 && u.csrOf 4 == 0x2040 && u.aReg 15 == 0x4000 && u.aReg 14 == 0x2000 && fld u.status 5 2 == 1) &&
   raises .brk s .breakpoint) = true := by decide +kernel

theorem test_meets_HandlerEntryAndReturn_return :
  (let h := (((base.raise .trapCall .control 0x4000 false 0 0).setA 12 3).setG 31 4)
   raises .tret base .privilege && !baseSup.inh && raises .tret baseSup .illegal && h.sup && h.inh &&
   ends .tret h (fun t => !t.inh && !t.sup && t.secure && t.pcOf .control == 0x4004 && t.aReg 12 == 0 && mget t.sc.bankA 0 28 == 3 && t.gReg 31 == 0 &&
     mget t.sc.bankG 0 63 == 4 && t.csrOf 1 == 48) &&
   (let u := (base.raise .lateStore .compute 0x2040 true 0 0).setA 14 0x205F
    ends .tret u (fun t => t.pcOf .compute == 0x2050 && t.pcOf .control == 0x4000))) = true := by decide +kernel

theorem test_meets_CauseDispositions :
  (let stops (t : State) (c : Word64) : Bool := t.pkg.stopped && t.cfgOf 0x20 == 0x8000000000000000 ||| c && !t.task.bound && !t.seqs.load.run && !t.seqs.control.run &&
     t.agenda == [] && t.mu.storeQ == []
   stops ((withRows [row0 .queued none]).raise .thermalStop .control 0x4000 false 0 0) 42 &&
   stops ((base.raise .trapCall .control 0x4000 false 0 0).raise .breakpoint .control 0x8000 false 0 0) 63 &&
   stops ((base.raise .trapCall .control 0x4000 false 0 0).raise .pageAbsent .control 0x8000 false 0 0) 63) = true := by decide +kernel

theorem test_meets_CauseDispositions_contained :
  (let s : State := { base with pkg := { base.pkg with cfg := [] } }
   let gone (t : State) : Bool := !t.task.bound && !t.seqs.load.run && !t.seqs.control.run && (t.launchOf s.taskLaunch).isNone && !t.pkg.stopped
   s.tvec (s.handlerWorld .breakpoint) == 0 && gone (s.raise .breakpoint .control 0x4000 false 0 0) && gone (base.raise .integrity .control 0x4000 false 0 0)) = true := by
  decide +kernel

theorem test_meets_CauseDispositions_rerun :
  (let s : State := { base with phase := { base.phase with commit := { base.phase.commit with g := [(1, 5)], seqs := base.seqs } } }
   !s.compat && !(s.csrOf 0xC).getLsbD 31 && !(s.csrOf 0xC).getLsbD 30 &&
   (let t := ((s.setG 1 6).setPc .compute 0x2040).raise .phaseSignature .compute 0x2040 false 1 0
    t.seqs == base.seqs && t.gReg 1 == 5 && (t.csrOf 0xC).getLsbD 30 && t.phase.first && t.task.bound) &&
   (let t := s.raise .pageAbsent .control 0x4000 false 0 0x1000
    t.disp.saving.isSome && t.agenda.any (fun p => p.event == .taskSave))) = true := by decide +kernel

theorem test_meets_TrapAndSystemWords :
  (let raisesWith (i : Instr) (s : State) (c : Cause) (tv : Word64) : Bool := nexts (exec i s) (fun t => t.last == .raised c tv 0)
   raisesWith (.trap 1) (withG 7 0) .trapCall 7 && raisesWith (.hcall 1) (withG 7 0) .hostCall 7 &&
   !base.sup && [Instr.wdsvc, .contain 1, .wsw 1, .invalVa 1 2, .invalAsid 2, .invalAll, .mwclr 2].all (fun i => raisesWith i base .privilege (wordTvalue 0 i)) &&
   ends .wdsvc (baseSup.setCsr 0xD 5) (fun t => t.csrOf 0xD == 0) && raises (.contain 1) (baseSup.setG 1 64) .fieldRange &&
   ends (.contain 1) (baseSup.setG 1 63) (fun t => !t.task.bound && !t.seqs.control.run) && baseSup.secure && raises (.wsw 1) baseSup .illegal &&
   (let n := (baseSup.setCsr 0 2).setG 1 9
    n.sup && !n.secure && raisesWith (.wsw 1) n .worldSwitch 9) &&
   ends .invalAll baseSup (fun t => t.mu.tlb == []) && ends (.invalVa 1 2) (baseSup.setA 1 0x1FFFF) (fun t => t.mu.tlb == []) &&
   ends (.invalVa 1 2) (baseSup.setA 1 0x20000) (fun t => t.mu.tlb.length == 1) && ends (.invalAsid 2) (baseSup.setG 2 2047) (fun t => t.mu.tlb.length == 1) &&
   [Instr.invalVa 1 2, .invalAsid 2, .mwclr 2].all (fun i => raisesWith i (baseSup.setG 2 2048) .fieldRange 0) && ends (.mwclr 2) baseSup (fun _ => true) &&
   (let m : MapSlot := ⟨1, 0, true, 0, true, 0, .load, none, none, [], 1, 0⟩
    waits (.mwclr 2) (baseSup.setWharf (.mem 1) { Wharf.empty with slots := [(0, m)], transit := [⟨⟨[], [], 0, 0, false, true, false, 0, 0, 0, 0, 0, 0, [], []⟩, 0, 0, false, [⟨0, .no, 0⟩], false, 0, false, false⟩] }))) =
  true := by decide +kernel

theorem test_meets_CsrWords :
  (let busy := baseSup.setStoreQ [row0 .queued none]
   !busy.ownRows.isEmpty && waits (.csrr 3 0x1E) busy && waits (.csrw 1 0x1E) busy && baseSup.ownRows == [] && baseSup.opsPerformed &&
   gives (.csrr 3 0x16) base 3 8000 && gives (.csrs 3 1 0x14) ((withG 3 0).setCsr 0x14 4) 3 4 && gives (.csrrw 3 1 0x14) ((withG 0xF 0).setCsr 0x14 4) 3 4 &&
   ends (.csrs 3 1 0x14) ((withG 3 0).setCsr 0x14 4) (fun t => t.csrOf 0x14 == 7) && ends (.csrc 3 1 0x14) ((withG 5 0).setCsr 0x14 7) (fun t => t.csrOf 0x14 == 2) &&
   ends (.csrrw 3 1 0x14) (withG 0xF 0) (fun t => t.csrOf 0x14 == 7) && ends (.csrs 3 1 0x19) ((withG 1 0).setCsr 0x19 3) (fun t => t.csrOf 0x19 == 2 && t.gReg 3 == 3) &&
   ends (.csrc 3 1 0x19) ((withG 1 0).setCsr 0x19 3) (fun t => t.csrOf 0x19 == 3) && raises (.csrr 3 7) base .privilege && raises (.csrw 1 0x10) base .privilege &&
   gives (.csrr 3 7) (let s := { baseSup with pkg := { baseSup.pkg with deleg := 9 } }
     s) 3 9 &&
   [(0 : Word64), 4194305].all (fun v => raises (.csrw 1 0x16) (withG v 0) .fieldRange) && [(1 : Word64), 4194304].all (fun v =>
     ends (.csrw 1 0x16) (withG v 0) (fun t => t.csrOf 0x16 == v)) &&
   ends (.csrw 1 0) (baseSup.setG 1 0xFFFF) (fun t => t.status == 0x1F) &&
   ends (.csrw 1 0) ((baseSup.setCsr 0 2).setG 1 0xFFFF) (fun t => t.status == 0xB)) = true := by decide +kernel

/-- R36: an entry of an 8 by 8 tile grid holds the element (1234, 4321) in tile 96 from bit 863,760 on. -/
theorem test_meets_ClockAndLocalityWords :
  (let s : State := { base with pkg := { base.pkg with clk := [(0, 5)] } }
   gives (.rdclk 3) s 3 5 && gives (.clkadd 3 1) (s.setG 1 (-6)) 3 (-1) && gives (.locq 3 1) base 3 0x401 &&
   gives (.locq 3 1) (base.setA 1 0x20000) 3 0x400000 && gives (.locqT 3 1) base 3 0x400000) = true := by decide +kernel

/-! Worked examples of the spec. -/

/-- R36, R44: the entry of the example; an element's tile, bit and frame byte, and the query of its frame from die 3 (R123). -/
theorem test_locate_example :
  (let e : BitVec 512 := put (put (put (put (put (put (put (put (0 : BitVec 512) 440 24 3000) 416 24 5000) 17 5 8) 12 5 8) 2 2 1) 32 8 0xE4) 40 8 0xE4) 9 3 3
   locate e 16 (4321, 1234, 0, 0) == (96, 863760) && swz 3 (863760 / 8) == 0x1A5F2 && (boundsFault e (4321, 1234, 0, 0)).isNone && (boundsFault e (5000, 0, 0, 0)).isSome &&
   gives (.locq 3 1) { withLeaf 0x1020300000000000018BF with die := 3 } 3 0x501) = true := by decide +kernel

/-- The block of chapter 3, and 500 in E4M3 and E5M2. -/
theorem test_format_example :
  (let b := encodeBlock 16 0 ([some (.fin false 11 (-1)), some (.fin true 13 (-5)), some (.fin false 207 (-11)), some (.fin false 51 (-8))] ++ List.replicate 28 (some .zero))
   b.scale == 0x7B81 && (b.elems.take 4).map (fun c => c.code) == [0x2C, 0x83, 0x74, 0x02] && b.elems.all (fun c => c.event.isNone) &&
   (encodeFloat e4m3 0 false (.fin false 500 0)).code == 0x7E && (encodeFloat e4m3 0 false (.fin false 500 0)).event == some .posSat &&
   (encodeFloat e5m2 0 false (.fin false 500 0)).code == 0x60 && (encodeFloat e5m2 0 false (.fin false 500 0)).event.isNone) = true := by decide +kernel

/-- The race of chapter 8: core 5 of die 1 holds the exclusive claim. -/
theorem test_race_example : raceTvalue [⟨2048, false, true, 0, 1, 5, .control, none⟩] false 0 0 == 0x0011_7800_0000_0000 := by decide +kernel

/-- The steps of chapter 16: truncation before rounding, and C lost, kept and truncated. -/
theorem test_kstep_example :
  (let x (n : Nat) : Val := decodeFloat bf16 n
   kStep 0 [x 0x3F80, x 0x3980, x 0x3080] [x 0x3F80, x 0x3980, x 0x3080] false == (0x3F800000, 0) &&
   kStep 0x3F800000 [x 0x4C00, x 0xCC00] [x 0x4B80, x 0x4B80] false == (0, 8) &&
   kStep 0x40000000 [x 0x4C00, x 0xCC00] [x 0x4B80, x 0x4B80] false == (0x40000000, 0) &&
   kStep 0x40400000 [x 0x4C00, x 0xCC00] [x 0x4B80, x 0x4B80] false == (0x40000000, 0)) = true := by decide +kernel

/-- The ring of chapter 4: byte 200 of row 45 of slot 3. -/
theorem test_ring_example :
  (let d : Word64 := put (put (put (put (put (put (0 : Word64) 18 6 8) 15 3 5) 32 8 4) 12 3 2) 7 5 1) 0 1 1
   ringByte d 3 45 200 == 0x150B78) = true := by decide +kernel

/-! Witnesses for the statements about launches and stage queues. -/

/-- A stage of one activation with a control program at 4 and no queue. -/
def stage0 : BitVec 512 := put (put (put (put (0 : BitVec 512) 432 16 1) 423 4 15) 419 4 15) 0 72 4

/-- A descriptor at virtual address 0x100: a header and one stage. -/
def withDescriptor (h e : BitVec 512) : State :=
  (base.writeCell 0x20100 64 h.toNat (0, 0)).writeCell 0x201C0 64 e.toNat (0, 0)

/-- A launch of number `n` with one stage. -/
def launch0 (n : Nat) (h e : BitVec 512) : Launch :=
  { number := n, asid := 0, secure := true, header := h, queues := [], stages := [e], table := [], prio := 0, newPrio := none, queue := 0
    released := 0, aborted := 0, live := true, triggered := false, run := [⟨1, 1, none⟩], grants := [] }

/-- The base state with launches. -/
def withLaunches (s : State) (l : List Launch) : State := { s with disp := { s.disp with launches := l } }

theorem test_meets_LaunchWords :
  (let s := (withDescriptor 0 stage0).setA 1 0x100
   let l (h : BitVec 512) (r a : BitVec 4) : State := withLaunches base [{ launch0 0 h 0 with released := r, aborted := a }]
   s.acked 1 && s.regionDone && s.mu.deferred == [] && s.task.launching == none && raises (.launch 3 1 2) (s.setA 1 0x120) .misalign && raises (.launch 3 1 2) (s.setG 2 64) .fieldRange &&
   raises (.launch 3 1 2) (withDescriptor 8 stage0 |>.setA 1 0x100) .launchMalformed && raises (.launch 3 1 2) (s.setA 1 0x20000) .notMapped &&
   raises (.launch 3 1 2) (s.setCfg 0xC0 (if s.taskSecure then 0 else 1)) .world &&
   oks (s.checkLaunch 0 true false false s.taskSecure 0x100 63) (fun r => r.2.stages == [stage0] && r.2.queue == 63) &&
   (let full : State := { s with disp := { s.disp with queues := [(5, List.range 16)] } }
    nexts (exec (.launch 3 1 2) (full.setG 2 5)) (fun t => t.last == .waits && t.task.launching.any (fun x => x.1 == 0x4000) &&
      waits (.launch 3 1 2) t && ends (.launch 3 1 2) { t with disp := { t.disp with queues := [] } } (fun u => u.gReg 3 == 0 && u.task.launching == none)) && ends (.launch 3 1 2) (full.setG 2 6) (fun t => t.disp.launches.length == 1)) &&
   ends (.launch 3 1 2) { s with disp := { s.disp with next := 65535 } } (fun t => t.gReg 3 == 65535 && mget t.disp.queues [] 0 == [65535] && t.disp.next == 0) &&
   (let t := withLaunches base [launch0 0 0 stage0, launch0 1 (put (0 : BitVec 512) 16 4 2) stage0]
    s.taskLaunch == 0 && ends .trigger t (fun u => (u.launchOf 0).any (fun l => l.triggered) && (u.launchOf 1).any (fun l => l.released == 2))) &&
   ends .trigger base (fun t => t.disp == base.disp) &&
   raises (.wait 1) ((l (put (0 : BitVec 512) 16 4 3) 0 0).setG 1 16) .fieldRange && raises (.wait 1) ((l (put (0 : BitVec 512) 16 4 3) 0 0).setG 1 4) .fieldRange &&
   raises (.wait 1) (l (put (0 : BitVec 512) 16 4 3) 3 1) .dependenceInvalid && waits (.wait 1) (l (put (0 : BitVec 512) 16 4 3) 1 0) &&
   ends (.wait 1) ((l (put (0 : BitVec 512) 16 4 3) 1 0).setG 1 1) (fun t => t.pcOf .control == 0x4004) &&
   [((65536 : Word64), (0 : Word64)), (0, 8)].all (fun v => raises (.setprio 1 2) (withG v.1 v.2) .fieldRange) &&
   raises (.setprio 1 2) (withG 65535 7) .dependenceInvalid && raises (.setprio 1 2) (withLaunches base [{ launch0 0 0 0 with asid := 1 }]) .dependenceInvalid &&
   ends (.setprio 1 2) (withLaunches (baseSup.setG 2 7) [{ launch0 0 0 0 with asid := 1 }]) (fun t => (t.launchOf 0).any (fun l => l.prio == 0 && l.newPrio == some 7)) &&
   ends .yield base (fun t => t.phase.marked)) = true := by decide +kernel

/-- A running task of a launch whose queue 0 has its control block at virtual address 0 and room for `cap` records, with PUT and TAKE. -/
def withQueue (cap p t : Nat) (e : BitVec 512) : State :=
  let s := withLaunches tables [{ launch0 0 0 e with queues := [put (0 : BitVec 128) 72 16 cap] }]
  ((s.writeCell 0x20000 8 p (0, 0)).writeCell 0x20008 8 t (0, 0)).writeCell 0x20040 64 (5 + 2 ^ 64 * 6) (0, 0)

theorem test_meets_StageWords :
  (let inq : BitVec 512 := put (put (0 : BitVec 512) 423 4 15) 419 4 0
   let outq : BitVec 512 := put (put (put (0 : BitVec 512) 423 4 0) 419 4 15) 427 4 1
   raises (.rpop 24 1) base .stageQueue && raises (.rpush 0) base .stageQueue && raises (.rpop 0 1) (withQueue 2 1 0 outq) .stageQueue &&
   oks ((withQueue 2 1 0 inq).takeRecord (launch0 0 0 inq) 0) (fun _ => true) == true &&
   ends (.rpop 24 1) (withQueue 2 0 0 inq) (fun t => t.gReg 24 == 0 && !t.pred .control 1 && t.pcOf .control == 0x4004) &&
   ends (.rpop 0 1) (withQueue 2 1 0 inq) (fun t => t.gReg 0 == 0 && t.gReg 1 == 6 && t.pred .control 1 && t.cell 0x20008 == 1) &&
   raises (.rpush 0) (withQueue 2 1 0 inq) .stageQueue && raises (.rpush 0) (withQueue 2 1 0 outq) .stageQueue) = true := by decide +kernel

theorem test_meets_StageWords_push :
  (let outq : BitVec 512 := put (put (put (0 : BitVec 512) 423 4 0) 419 4 15) 427 4 1
   let s0 := withQueue 2 1 0 outq
   let s : State := { s0 with task := { s0.task with grants := 1 } }
   let l : Launch := { launch0 0 0 outq with queues := [put (0 : BitVec 128) 72 16 2] }
   let full := withQueue 2 2 0 (put (put outq 419 4 0) 423 4 0)
   oks (s.queueCounts l 0) (fun x => x.2.2 == (1, 0)) && oks (s.reserveAt l 0 1) (fun x => x.2.2.isSome) && oks (full.reserveAt l 0 1) (fun x => x.2.2.isNone) &&
   ends (.rpop 0 1) full (fun t => !t.pred .control 1 && t.cell 0x20008 == 0) &&
   ends (.rpush 23) (s.setG 24 9) (fun t => t.cell 0x20000 == 2 && t.cell 0x20088 == 9 && t.task.grants == 0) &&
   raises .exit { base with task := { base.task with members := [⟨0, 0, false, none⟩] } } .exitLive && !base.mayExit && waits .exit base &&
   (let r : State := { base with phase := { base.phase with reached := 7 } }
    r.mayExit && r.mu.deferred == [] && ends .exit r (fun t => !t.task.bound && !t.seqs.control.run))) = true := by decide +kernel

/-! Witnesses for the statements about templates and accumulators. -/

/-- A fill of one FP32 element with tag 5 to core 1 of this die, the base state with an image in a template slot, and rings 0 and 1 of
four BF16 tiles in 32 banks each. -/
def fill1 : BitVec 512 :=
  let x := [0, 1, 2, 3].foldl (fun (t : BitVec 512) k => put (put t (168 + 24 * k) 24 1) (264 + 13 * k) 13 1) 0
  put (put (put x 0 8 6) 8 16 5) 333 6 1

def withTmpl (k : Nat) (t : BitVec 512) : State := { base with eng := { base.eng with tmpl := [(k, some t)] } }

def mma1 : BitVec 512 := put (put (put (put (put (put (0 : BitVec 512) 0 8 1) 96 4 1) 128 7 1) 160 7 1) 192 16 1) 224 3 1

def withRings (s : State) : State :=
  let d (fb : Nat) : Word64 := put (put (put (put (put (0 : Word64) 18 6 fb) 15 3 5) 32 8 4) 7 5 1) 0 1 1
  let s1 := (List.range 64).foldl (fun (s : State) n => s.setCsr (0x40 + n) 1) s
  (s1.setCsr 0x80 (d 0)).setCsr 0x81 (d 32)

/-- The first tiles of rings 0 and 1 have landed. -/
def landed (s : State) : State := { s with scr := { s.scr with landed := [(0, 196608), (256, 196608)] } }

theorem test_meets_TemplateWords_ld :
  (raises (.tmplLd 0 5 1 0) (base.setA 1 1) .misalign && raises (.tmplLd 0 5 1 0x3FFF) (base.setA 1 0) .notMapped &&
   oks (base.bindAccess 0 .read) (fun r => !r.1.pending r.2.1 && r.1.target r.2.1.leaf == 0 && (r.1.loadHome r.2.1 64 true).isOk) &&
   raises (.tmplLd 0 5 1 0) base .reservedBits && raises (.tmplLd 2 5 1 0) (base.writeCell 0x20000 64 6 (0, 0)) .illegal &&
   raises (.tmplLd 0 5 1 0) (base.writeCell 0x20000 64 3 (0, 0)) .illegal &&
   ends (.tmplLd 1 63 1 0) (base.writeCell 0x20000 64 fill1.toNat (0, 0)) (fun t => mget t.eng.tmpl none 127 == some fill1 && t.pcOf .control == 0x4004) &&
   ends (.tmplLd 2 0 1 0x3FFF) ((base.writeCell 0x20000 64 mma1.toNat (0, 0)).setA 1 64) (fun t => mget t.eng.tmpl none 128 == some mma1)) = true := by decide +kernel

theorem test_meets_TemplateWords_patch :
  (let s := withTmpl 5 fill1
   let word (i : Instr) (c : Cause) (s : State) (w : Word64) : Bool := nexts (exec i s) (fun t => t.last == .raised c w 0)
   word (.patch 5 0 7 0 0 0 0) .templateEmpty base 0x8A000070 && word (.patch 5 22 7 0 0 0 0) .fieldRange s 0x8B600070 &&
   raises (.patch 5 14 32 0 0 0 0) s .fieldRange && raises (.patch 5 0 3 0 0 0 0) s .illegal && raises (.patch 5 20 0 0 1 0 0) s .queueUnderflow &&
   waits (.patch 5 20 2 0 1 0 0) s && ends (.patch 5 20 0xABCD 1 0 0 0) s (fun t => mget t.eng.tmpl none 5 == some (put fill1 444 32 0xABCD0000) && t.pcOf .load == 0x1004) &&
   (let q := s.setValueQueue 0 [0x500000006, 7]
    ends (.patch 5 20 0 1 1 0 0) q (fun t => mget t.eng.tmpl none 5 == some (put fill1 444 32 5) && t.valueQueue 0 == [7]) &&
    ends (.patch 5 20 2 0 1 0 0) q (fun t => mget t.eng.tmpl none 5 == some (put fill1 444 32 6) && t.valueQueue 0 == [0x500000006, 7])) &&
   ends (.patch 5 20 9 0 0 1 1) s (fun t => t.tagPending 5 && t.eng.ops.length == 1 && t.eng.ops.all (fun o => o.img == put fill1 444 32 9 && o.side == .load && !o.started &&
     o.total == 1 && o.chained)) &&
   raises (.patchM 0 8 0 0 0 0 0) (withTmpl 128 mma1) .fieldRange && word (.patchM 0 0 0 0 0 0 0) .templateEmpty base 0x280000000 &&
   raises (.patchM 0 6 0 0 0 1 0) (withRings (withTmpl 128 mma1)) .fieldRange &&
   waits (.patchM 0 6 4 0 0 1 0) (withRings (withTmpl 128 mma1)) && ends (.patchM 0 6 4 0 0 1 0) (landed (withRings (withTmpl 128 mma1))) (fun t => t.mat.ops.length == 1 && t.mat.ops.all (fun o => o.img == put mma1 192 16 4 && !o.running))) = true := by
  decide +kernel

/-- An operation on accumulator 1 in the engine. -/
def withMma (running : Bool) (done : Nat) : State :=
  let s := withRings base
  let t := put mma1 32 2 1
  { s with mat := { s.mat with ops := [⟨t, 0, s.ringDesc 0, s.ringDesc 1, 0, 0, false, running, done⟩] } }

theorem test_meets_AccumulatorWords :
  ((withMma false 0).mat.ops.any (fun x => [1].contains (mmaAcc x.img)) && waits (.accClr 1) (withMma false 0) && waits .mwaitAll (withMma false 0) &&
   (let s := base.setAcc 1 [(0, 5), (4095, 0x7FFFFFFF)] 3
    ends (.accClr 1) s (fun t => t.accElem 1 0 == 0 && t.accFlags 1 == 0) && ends (.accMov 2 1) s (fun t => t.accElem 2 0 == 5 && t.accFlags 2 == 3 && t.accElem 1 0 == 5) &&
    ends (.accTov 47 1 3) s (fun t => vlane (t.vReg 47) 1023 == ⟨0x7FFFFFFF, true⟩ && vlane (t.vReg 47) 0 == ⟨0, false⟩) &&
    ends (.mpush 1 63 63 1) s (fun t => t.mat.mq.length == 1 && t.accFlags 1 == 0) && ends (.mpush 1 0 0 0) s (fun t => t.accFlags 1 == 3) &&
    raises (.mpush 1 0 0 0) { s with mat := { s.mat with mq := List.replicate 8 (0, 0, 0) } } .queueOverflow &&
    ends (.mwait 1) s (fun t => t.mat.acc == s.mat.acc) && ends .mwaitAll s (fun _ => true) && waits (.mwait 1) (withMma true 1) && ends (.mwait 2) (withMma true 1) (fun _ => true)) &&
   oks (base.accBanks 0 5 0) (fun r => r.1.length == 32 && r.2 == 32) && errs (base.accBanks 33 5 0) (fun e => e.1 == .fieldRange) &&
   raises (.accLd 0 33 5 0) base .fieldRange && raises (.accSt 0 0 5 0) (base.setCsr 0x40 3) .formatMismatch) = true := by decide +kernel

theorem test_acc_fromv : ends (.accFromv 1 2 7) (base.setV 7 [(0, ⟨9, false⟩), (1, ⟨0, true⟩)] 0) (fun t => t.accElem 1 2048 == 9 && t.accElem 1 2049 == 0x7FFFFFFF &&
  t.accFlags 1 == 1) = true := by decide +kernel

/-! Witnesses for the statements about hardware events. -/

/-- A fill on its way. -/
def op0 : EngOp := ⟨0, .load, fill1, false, none, 0, true, 0, true, 0x1000, false, 0, 1, 0, false, [], false, 0, [], 0, [], [], false, none⟩

/-- The base state with an engine operation whose tag is pending, and with an event's input. -/
def withOp (o : EngOp) : State := { base.setCsr 0x1A 32 with eng := { base.eng with ops := [o] } }
def given (s : State) (i : Input) : State := { s with input := i }

theorem test_meets_CopyAndMatrixEvents_copies :
  (let s := withOp op0
   (s.engOp 0).isSome && opKind op0.img == 6 && s.startable op0 && !s.stopsEngines &&
   s.packetOutside op0.img op0.tensors.head? 0 == [] && oks (s.packetOf op0.img op0.tensors.head? 0 0) (fun _ => true) &&
   ends .fill s (fun t => t.eng.ops.all (fun o => o.started && o.sent == 1 && o.open_ == 1) && t.outbox.length == 1 && t.sc == s.sc) &&
   ends .fill (withOp { op0 with started := true }) (fun t => t.eng.ops.all (fun o => o.sent == 1)) &&
   (let c := (withOp { op0 with chained := true }).setWharf .core { Wharf.empty with ops := [⟨8, 0, 0, 0, true, 0, true, 0, .load, some ⟨6, false, true, 0⟩, none⟩] }
    !c.startable { op0 with chained := true } && ends .fill c (fun t => t.eng.ops.all (fun o => !o.started))) &&
   ends .packetAnswer (withOp { op0 with started := true, sent := 1, open_ := 2 }) (fun t => t.eng.ops.all (fun o => o.open_ == 1)) &&
   ends .packetAnswer (given (withOp { op0 with started := true, sent := 1, open_ := 1 }) { flag := true }) (fun t =>
     t.eng.ops.all (fun o => o.open_ == 0 && o.discarded == 1) && t.agenda.any (fun p => p.event == .copyComplete)) &&
   ends .packetAnswer (given (withOp { op0 with started := true, sent := 1, open_ := 2 }) { cause := some .keyAbsent }) (fun t =>
     t.eng.ops.all (fun o => o.ended) && !t.tagPending 5 && t.trap.pend.length == 1) &&
   (let f (w : FabricWhat) : State := { withOp { op0 with started := true, sent := 1, open_ := 2 } with pkg := { base.pkg with fabric := [⟨w, false, 1, 0, true, none, 0, 0, 7⟩] } }
    let at7 (s : State) (i : Input) : State := given s { i with req := 7 }
    let gone (t : State) : Bool := t.pkg.fabric == []
    (base.request 7).isNone && base.pkg.moveAsks.isNone && ends .packetAnswer (at7 base { flag := true }) (fun t => t.mem == base.mem && t.eng == base.eng) &&
    ends .packetAnswer (at7 (f (.packet 0)) {}) (fun t => gone t && t.eng.ops.all (fun o => o.open_ == 1)) &&
    ends .packetAnswer (at7 (f (.element 0)) { cause := some .world }) gone && ends .packetAnswer (at7 (f .image) {}) gone) &&
   ends .copyComplete (withOp { op0 with started := true, sent := 1 }) (fun t => t.eng.ops == [] && t.tags.getLsbD 5 && !t.tagPending 5)) = true := by decide +kernel

/-- A map or ring template of a kind with tag 5. -/
def mapTmpl (k : Nat) : BitVec 512 := put (put (0 : BitVec 512) 0 8 k) 32 16 5

theorem test_meets_MapAndRingEvents_goes :
  (let s (k : Nat) : State := withTmpl 0 (mapTmpl k)
   let q := s 11
   q.unstarted .load == [] && q.cqRoom (mapTmpl 11) && !reservedSet (mapTmpl 11) && !q.tagPending 5 && mpSlot (mapTmpl 11) < wharfSlots .core && q.slotsFit .core (mapTmpl 11) &&
   ends .mapQuery q (fun t => t.tagPending 5 && (t.wharf .core).ops.length == 1 && t.agenda.any (fun p => p.event == .mapBoundary)) &&
   (let r := (s 10).setWharf .core { Wharf.empty with slots := [(0, ⟨1, 0, true, 0, true, 0, .load, none, none, [], 0, 0⟩)] }
    r.slotsFit .core (mapTmpl 10) && ends .mapRetire r (fun t => t.tagPending 5 && (t.wharf .core).ops.length == 1)) &&
   (let m : BitVec 512 := [0, 1, 2, 3].foldl (fun (m : BitVec 512) k => put m (416 + 24 * k) 24 1) (put (put (0 : BitVec 512) 40 8 0xE4) 180 12 1)
    let i := (s 8).scrWrite 0 64 m.toNat
    i.slotsFit .core (mapTmpl 8) && oks (i.mapRecord (mapTmpl 8) true 0) (fun r => r.2.1 == m && !i.scrHeld 0 64 false) &&
    ends .mapInstall i (fun t => t.tagPending 5 && (t.wharf .core).ops.all (fun o => o.map == m && o.kind == 8))) &&
   (let t := put (put (mapTmpl 12) 64 4 2) 96 28 (5 * 2 ^ 22 + 4)
    oks ((withTmpl 0 t).initRing 2 (5 * 2 ^ 22 + 4) 0) (fun _ => true) && ends .ringInit (withTmpl 0 t) (fun u => u.tags.getLsbD 5 && u.csrOf 0x82 == 0x400028001))) = true := by decide +kernel

/-- A core wharf with one map operation that waits for its boundary, and slot 0 as given. -/
def withMapOp (k st bound : Nat) : State :=
  base.setWharf .core { Wharf.empty with slots := [(0, ⟨st, 0, true, 0, true, 0, .load, none, none, [], bound, 0⟩)], ops := [⟨k, 0, 1, 5, true, 0, true, 0, .load, none, none⟩] }

theorem test_meets_MapAndRingEvents_boundary :
  (((withMapOp 8 0 0).wharf .core).transit == [] && ends .mapBoundary (withMapOp 8 0 0) (fun t => (t.wharf .core).ops == [] && (t.mapSlot .core 0).st == 1 && (t.mapSlot .core 0).map == 5) &&
   ends .mapBoundary (withMapOp 10 1 0) (fun t => (t.mapSlot .core 0).st == 0) && ends .mapBoundary (withMapOp 10 1 1) (fun t => (t.mapSlot .core 0).st == 2) &&
   ends .mapBoundary (withMapOp 9 1 0) (fun t => (t.mapSlot .core 0).st == 0 && (t.mapSlot .core 1).st == 1 && (t.mapSlot .core 1).map == 5) &&
   ends .mapBoundary (withMapOp 11 1 0) (fun t => (t.mapSlot .core 0).st == 1)) = true := by decide +kernel

/-- A collective of a kind with tag 5 and both buffers in slot 0, and a party in a group of one. -/
def collTmpl (k : Nat) : BitVec 512 := put (put (0 : BitVec 512) 0 8 k) 32 16 5
def oneElement : BitVec 512 := put (put (put (put (put (0 : BitVec 512) 0 1 1) 416 24 1) 12 5 15) 32 8 0xE4) 40 8 0xE4
def party (k : Nat) : State :=
  let s0 := (withEntry oneElement).writeCell 0x20000 32 (record 5 1 0 1).toNat (0, 0)
  { s0 with task := { s0.task with members := [⟨0, 4, false, none⟩] }, eng := { s0.eng with tmpl := [(0, some (collTmpl k))] } }

theorem test_meets_CollectiveEvents_goes :
  (let s := party 16
   !reservedSet (collTmpl 16) && fmtKnown (clWfmt (collTmpl 16)) && ctlOp (opCtl (collTmpl 16)) ≤ 5 && !s.tagPending 5 && s.cqRoom (collTmpl 16) && s.unstarted .load == [] &&
   [((16 : Nat), Instr.allgather), (17, .redscat), (18, .allred), (19, .bcast), (20, .permute)].all (fun x =>
     ends x.2 (party x.1) (fun u => u.eng.ops.length == 1 && u.tagPending 5 && u.agenda.any (fun p => p.event == .collectiveComplete) && u.task.members == [⟨0, 4, false, some 5⟩]))) =
  true := by decide +kernel

/-- Another party of the group in epoch 5. -/
def party2 (pa : Nat) : Registration := ⟨pa, 5, 0, 1, 2, 1, 0, 19, 0, 0, true, [1, 1, 1, 1], 0, 0, [1, 1, 1, 1], (2, 2), (0, 0), false, none, false⟩

theorem test_meets_CollectiveEvents_parties :
  (let s := base.writeCell 0x20000 32 (record 5 3 1 3).toNat (0, 0)
   oks (s.readTable 0x20000 32) (fun v => BitVec.ofNat 256 v == record 5 3 1 3) && (s.partyFault (record 5 3 1 3) (party2 0x20000) true).isNone &&
   ends .bcast (given s { reg := some (party2 0x20000), flag := true }) (fun t => BitVec.ofNat 256 (getBytes t.cell 0x20000 32) == record 5 3 2 3 && t.pkg.colls.length == 1) &&
   (s.partyFault (record 6 3 1 3) (party2 0x20000) true).isSome == (ends .bcast (given (base.writeCell 0x20000 32 (record 6 3 1 3).toNat (0, 0)) { reg := some (party2 0x20000), flag := true }) (fun t => t.pkg.colls == [])) &&
   (let k : State := { base with mem := { base.mem with gran := [(2048, ⟨false, some (0, 1)⟩)] } }
    errs (k.readTable 0x20000 32) (fun c => c == .keyAbsent) && ends .bcast (given k { reg := some (party2 0x20000), flag := true }) (fun t => t.outbox.length == 1 && t.pkg.colls == []))) = true := by
  decide +kernel

/-- A bcast of rank 0 of two parties, the other on the next die, that has entered its engine; what it keeps of its collective is `c`. -/
def coll2 (c : Coll) (started : Bool) : State :=
  let x : Tensor := ⟨0, true, 0, ⟨0, oneElement, 0x260000⟩, none⟩
  let o : EngOp := { op0 with img := collTmpl 19, started := started, total := 2, tensors := [x, x], coll := some c }
  (withOp o).cacheLeaf 0 ⟨0, 0, 0, leafRW, 0⟩

/-- A collective of a record in another package, whose parties are known or not. -/
def coll0 (known : Bool) : Coll := ⟨none, 5, if known then [(0, 0), (0, 1)] else [], false, [], 0, [], none, false⟩

theorem test_meets_CollectiveEvents_progress :
  (let done (v : State) : Bool := v.eng.ops == [] && v.tags.getLsbD 5 && !v.tagPending 5
   let collOf (v : State) (p : Coll → Bool) : Bool := (v.engOp 0).any (fun o => o.coll.any p)
   ends .collectiveComplete (given (coll2 (coll0 true) true) { flag := true }) done &&
   ends .collectiveComplete (coll2 (coll0 false) true) (fun v => collOf v (fun c => c.parties == [])) &&
   ends .collectiveComplete (given (coll2 (coll0 false) true) { flag2 := true, data := 0x400000 }) (fun v => collOf v (fun c => c.parties == [(0, 0), (0, 1)])) &&
   ends .collectiveComplete (coll2 (coll0 true) false) (fun v => collOf v (fun c => !c.sent) && v.agenda == []) &&
   ends .collectiveComplete (given (coll2 (coll0 true) false) { others := [⟨1, 0, []⟩] }) (fun v => v.agenda.length == 1) &&
   (let s := coll2 (coll0 true) true
    !s.collHeld (((s.engOp 0).getD op0)) (fun x => x.sent) && !s.changing && clSends (collTmpl 19) && s.outsideTiles ⟨0, true, 0, ⟨0, oneElement, 0x260000⟩, none⟩ (wholeTensor ⟨0, true, 0, ⟨0, oneElement, 0x260000⟩, none⟩) == [] &&
    ends .collectiveComplete s (fun v => collOf v (fun c => c.sent && c.landed.isNone) && (v.engOp 0).any (fun o => o.open_ == 1) && v.outbox.length == 1)) &&
   (let held := coll2 (coll0 true) true
    let s : State := { held with eng := { held.eng with ops := [{ op0 with id := 3, coll := some (coll0 true) }] ++ held.eng.ops } }
    s.collHeld ((s.engOp 0).getD op0) (fun x => x.sent) && ends .collectiveComplete s (fun v => v.eng.ops.length == 2 && v.agenda.length == 1)) &&
   (let sent (l : Option Word64) : Coll := { coll0 true with sent := true, landed := l }
    ends .collectiveComplete (given (coll2 (sent (some 0)) true) { flag2 := true }) done &&
    (let s := coll2 (sent (some 0)) true
     let waits : State := { s with eng := { s.eng with ops := s.eng.ops.map (fun o => { o with open_ := 1 }) } }
     ends .collectiveComplete (given waits { flag2 := true }) (fun v => collOf v (fun c => c.agreed))) &&
    ends .collectiveComplete (coll2 (sent (some 0)) true) (fun v => collOf v (fun c => !c.agreed)) && ends .collectiveComplete (coll2 (sent none) true) (fun v => collOf v (fun c => c.landed.isNone)) &&
    ends .collectiveComplete (given (coll2 { sent none with own := [[]] } true) { others := [⟨1, 0, []⟩] }) (fun v => collOf v (fun c => c.landed == some 0)))) = true := by decide +kernel

theorem test_meets_CollectiveEvents_alone :
  nexts (exec .allgather (party 16)) (fun t => t.eng.ops.all (fun o => o.tensors.length == 2 && o.coll.any (fun c => c.parties == [(0, 0)])) && !t.changing &&
     ends .collectiveComplete (given t { n := (t.eng.ops.map (fun o => o.id)).sum }) (fun u => (u.engOp ((t.eng.ops.map (fun o => o.id)).sum)).any (fun o => o.coll.any (fun c => c.sent)) || u.eng.ops == [])) = true := by
  decide +kernel

/-- A send of the one tile of a tensor, whose leaf the layout cache of its die holds, while the region of the tile changes its world. -/
def heldSend : State :=
  let o : EngOp := { op0 with img := put op0.img 0 8 1, started := true, tensors := [⟨0, true, 0, ⟨0, oneElement, 0x260000⟩, none⟩] }
  ((withOp o).setCfg 0xB0 0x8000000000000000).cacheLeaf 0 ⟨0, 0, 0, leafRW, 0⟩

theorem test_meets_CopyAndMatrixEvents_barred :
  ((heldSend.engOp 0).any (fun o => opKind o.img == 1 && o.started && !o.ended && o.sent < o.total && heldSend.packetBarred o.img o.tensors.head? o.sent) &&
   !heldSend.stopsEngines && ends .arrive heldSend (fun t => t.agenda == [⟨.arrive, { side := .load }⟩] && t.eng == heldSend.eng) &&
   (let away : State := heldSend.setCfg 0xB0 0 |>.cacheLeaf 0 ⟨0, 0, 0, leafPeer, 0⟩
    (away.engOp 0).any (fun o => away.packetOutside o.img o.tensors.head? o.sent != []) && ends .arrive away (fun t => (t.engOp 0).any (fun o => o.asked && o.asks.length == 1 && o.sent == 0) && t.outbox.length == 1 &&
      ends .arrive t (fun u => (u.engOp 0).any (fun o => o.sent == 0 && o.asks.length == 1)))) &&
   (let free := heldSend.setCfg 0xB0 0
    !free.changing && ends .arrive free (fun t => t.eng.ops.all (fun o => o.sent == 1 || o.ended)))) = true := by decide +kernel

theorem test_meets_CopyAndMatrixEvents_matrix :
  (base.mat.ops == [] && ends .mma base (fun _ => true) && ends .mmaKStep base (fun _ => true) && ends .mmaRetire base (fun _ => true) &&
   ends .mma (withMma false 0) (fun t => t.mat.ops.all (fun o => o.running)) &&
   (let s := withMma true 0
    let r := landed s
    r.mat.ops.all (fun o => o.running && o.done < mmaNk o.img && r.tilesReady o) && !s.mat.ops.all (fun o => s.tilesReady o) && !s.stopsEngines &&
    (let h : State := { r with disp := { r.disp with saving := some (.fault, true) } }
     !h.stopsEngines || ends .mmaKStep h (fun t => t.mat.ops == h.mat.ops))) &&
   (withMma true 1).mat.ops.all (fun o => o.done == mmaNk o.img) && ends .mmaRetire (withMma true 1) (fun t => t.mat.ops == [])) = true := by decide +kernel

/-- A packet of one FP32 element. -/
def packet1 : Packet := ⟨[0, 0, 0, 0], [1, 1, 1, 1], 0, 0, false, true, true, 0, 0, 0, 1, 7, 0, [⟨0x3F800000, false⟩], []⟩

/-- A packet that lies in the hold, bound or unbound. -/
def inHold (binds : List Bind) (unbound : Bool) (expiry : Nat) : Transit := ⟨packet1, 0, expiry, unbound, binds, true, 0, false, false⟩
def withTransit (x : Transit) (clk : Word64) : State :=
  let s := base.setWharf .core { Wharf.empty with transit := [x] }
  { s with pkg := { s.pkg with clk := [(0, clk)] } }

theorem test_meets_WharfEvents :
  (ends .packetHeader base (fun t => t.wharves == base.wharves) &&
   (let s := given base { packet := some packet1 }
    packet1.world == s.taskSecure && (List.range 16).all (fun n => (s.mapSlot .core n).st != 1) && packet1.heldBytes ≤ s.holdFree .core &&
    ends .packetHeader s (fun t => (t.wharf .core).transit.map (fun x => (x.unbound, x.held, x.expiry)) == [(true, true, s.holdTime .core)])) &&
   ends .packetHeader (given base { packet := some { packet1 with world := false } }) (fun t => (t.wharf .core).transit == []) &&
   !(withTransit (inHold [⟨0, .no, 0⟩] false 9) 0).changing && ends .packetBeat base (fun t => t.wharves == base.wharves) && ends .packetBeat (withTransit (inHold [⟨0, .no, 0⟩] false 9) 0) (fun t => (t.wharf .core).transit == []) &&
   ends .holdTimeout (withTransit (inHold [] true 9) 9) (fun t => (t.wharf .core).transit == []) && ends .holdTimeout (withTransit (inHold [] true 9) 8) (fun t => (t.wharf .core).transit.length == 1)) =
  true := by decide +kernel

theorem test_meets_PortAndLogEvents_ports :
  ((base.inPort 0).bound.isNone && (base.outPort 0).images == [] && ends .portRowRead base (fun t => t.vec == base.vec) && ends .portRowWrite base (fun t => t.vec == base.vec) &&
   (let b : Binding := ⟨⟨0x0010000100000001, 0x00010001, 0⟩, ⟨0, 0, 0⟩, 0, false⟩
    let s := base.setInPort 7 ⟨some b, 0, []⟩
    let u := given { s with pkg := { s.pkg with upper := 0 } } { n := 7 }
    (u.inPort 7).reads && errs (u.goodRow b 0) (fun e => match e with
      | .bad c _ => c == .fieldRange
      | _ => false) &&
    ends .portRowRead u (fun t => (t.inPort 7).images.all (fun i => i.fault == some (.fieldRange, 0)))) &&
   (let b : Binding := ⟨⟨0x0010000100000000, 0x00010001, 0⟩, ⟨0, 0, 0⟩, 0, false⟩
    let u := given ((base.scrWrite 0 4 0x3F800000).setInPort 7 ⟨some b, 0, []⟩) { n := 7 }
    (u.inPort 7).reads && oks (u.goodRow b 0) (fun x => x == 0) &&
    ends .portRowRead u (fun t => (t.inPort 7).images.all (fun i => i.fault.isNone && i.rows == 1 && vlane i.lanes 0 == ⟨0x3F800000, false⟩)))) = true := by decide +kernel

theorem test_meets_PortAndLogEvents_writes :
  (let o (n : Nat) : State := given (base.setOutPort 3 ⟨none, 1, [⟨[(0, ⟨0x3F800000, false⟩)], false, 0, false, 5, List.range 16 |>.map (fun i => 256 * i), n, [], ⟨0, 0, false, true⟩⟩]⟩) { n := 3 }
   ends .portRowWrite (o 0) (fun t => (t.outPort 3).images.all (fun i => i.done == 1) && t.scrRead 0 4 == 0x3F800000) &&
   ends .portRowWrite (o 15) (fun t => (t.outPort 3).images == [])) = true := by decide +kernel

theorem test_meets_PortAndLogEvents_drains :
  (let r := { base with logs := { base.logs with overflow := [5, 6] } }
   let u := { base with logs := { base.logs with unlanded := [5, 6] } }
   base.logs.overflow == [] && ends .overflowLogDrain base (fun _ => true) && base.logs.unlanded == [] && ends .unlandedLogDrain base (fun _ => true) &&
   oks (r.appendLog (logPage (r.csrOf 0x17)) 16 8191 5) (fun _ => true) && ends .overflowLogDrain r (fun t => t.logs.overflow == [6] && t.cell 0x20000 == 0x82) &&
   errs ((r.setCsr 0x17 0x4000000000000001).appendLog (logPage 0x4000000000000001) 16 8191 5) (fun _ => true) &&
   ends .overflowLogDrain (r.setCsr 0x17 0x4000000000000001) (fun t => t.logs.overflow == [] && t.csrOf 0x17 == 0x8000000000000001) &&
   ends .unlandedLogDrain u (fun t => t.logs.unlanded == [6] && t.cell 0x20000 == 0x82) &&
   ends .unlandedLogDrain (u.setCsr 0x18 0x4000000000000001) (fun t => t.logs.unlanded == [] && t.csrOf 0x18 == 0x8000000000000001) &&
   (let m := given { base with logs := { base.logs with memUnlanded := [(3, [5, 6])] } } { die := 3 }
    let a := dieCfg 3 0x10
    (m.appendRecord true 0 32 2047 5).isSome && ends .mwulogDrain m (fun t => mget t.logs.memUnlanded [] 3 == [6]) &&
    ((m.setCfg a 0x400007FFFFFFFFFF).appendRecord true (0x7FFFFFFFFFF * 2 ^ 17) 32 2047 5).isNone &&
    ends .mwulogDrain (m.setCfg a 0x400007FFFFFFFFFF) (fun t => mget t.logs.memUnlanded [] 3 == [] && t.cfgOf a == 0x800007FFFFFFFFFF))) = true := by decide +kernel

theorem test_meets_PortAndLogEvents_gates :
  (let away : State := { base with mu := { base.mu with tlb := [⟨0, 0, 0, leafPeer, 0⟩] } }
   let r (o u : List (BitVec 256)) : State := { away with logs := { away.logs with overflow := o.map (fun x => x.setWidth 128), unlanded := u } }
   ((r [5] []).logGate 5 (logPage 0) 16 8191 5).isSome && ends .overflowLogDrain (r [5] []) (fun t => t.outbox.length == 1 && t.logs.overflow.length == 1 && t.agenda.length == 1) &&
   ((r [] [5]).logGate 6 (logPage 0) 32 2047 5).isSome && ends .unlandedLogDrain (r [] [5]) (fun t => t.outbox.length == 1 && t.logs.unlanded.length == 1 && t.agenda.length == 1) &&
   ends .overflowLogDrain (r [5] [6]) (fun t => t.outbox == [] && t.logs.overflow.length == 1 && t.agenda.length == 1)) = true := by decide +kernel

theorem test_meets_AccessBinding_events :
  (let s := given tables { addr := 8 }
   oks (s.walkAndFill 0 8 .read false s.taskSecure) (fun r => r.1.mu.tlb.head? == some r.2 && r.2.covers 0 8) && ends .translationWalk s (fun t => t.mu.tlb.length == 1) &&
   errs (s.walkAndFill 0 0x20000 .read false s.taskSecure) (fun _ => true) && ends .translationWalk (given tables { addr := 0x20000 }) (fun t => t.mu.tlb == []) &&
   (let p := withEntry 1
    let pins (n : Nat) (t : State) : Bool := oks (t.readSlot 0 0) (fun r => tePin r.entry == n)
    oks (p.readSlot 0 0) (fun r => !entryStale r.entry 0 && entryStale r.entry 1) && ends .pinAtHome p (pins 1) &&
    ends .pinAtHome (given p { v := 0x100000 }) (fun t => t.mem == p.mem) && errs (p.readSlot 5 0) (fun _ => true) && ends .pinAtHome (given p { asid := 5 }) (fun t => t.mem == p.mem) &&
    (let q := withEntry (put (1 : BitVec 512) 344 24 2)
     oks (q.readSlot 0 0) (fun r => 1 < tePin r.entry) && ends .unpinAtHome (given q { addr := 0x260000 }) (pins 1) && 
     (let z : State := { q with mem := { q.mem with gran := [(0x260000 / 64, ⟨false, some (0, 1)⟩)] } }
      errs (z.readTable 0x260000 64) (fun _ => true) && ends .unpinAtHome (given z { addr := 0x260000 }) (fun t => t.mem == z.mem))) &&
    (let q := withEntry (put (3 : BitVec 512) 344 24 1)
     oks (q.readSlot 0 0) (fun r => tePin r.entry ≤ 1 && teRel r.entry) && ends .unpinAtHome (given q { addr := 0x260000 }) (fun t => t.cell 0x260000 == 0)))) = true := by decide +kernel

/-- The free core, and a launch whose stage 0 has been chosen. -/
def withChosen : State :=
  let s := withLaunches { base with task := { base.task with bound := false } } [launch0 9 0 (put stage0 72 72 0x100)]
  { s with disp := { s.disp with chosen := some ⟨9, 0, none, 0, 0⟩ } }

theorem test_meets_TaskEvents_bind :
  (ends .selectionRound { base with pkg := { base.pkg with stopped := true } } (fun t => t.disp == base.disp) && ends .selectionRound base (fun t => t.task.bound && t.seqs == base.seqs) &&
   ends .selectionRound (given base { flag := true }) (fun t => t.disp.others) &&
   (let l := withLaunches base [{ launch0 0 0 stage0 with newPrio := some 7 }]
    l.disp.submitted == [] && ends .selectionRound l (fun t => t.disp.launches.all (fun x => x.newPrio == none && x.prio == 7))) &&
   base.disp.chosen.isNone && ends .bindTask base (fun t => t.task == base.task) &&
   (let c := withChosen
    (c.launchOf 9).isSome && stInq ((launch0 9 0 stage0).stage 0) == 15 && stOutq ((launch0 9 0 stage0).stage 0) == 15 &&
    ends .bindTask c (fun t => t.task.bound && t.task.starting && t.pcOf .control == 4 && t.pcOf .load == 0x100 && t.pcOf .compute == 0 && t.taskLaunch == 9 && t.secure &&
      t.agenda.any (fun p => p.event == .taskStart))) &&
   !base.task.starting && ends .taskStart base (fun t => t.seqs == base.seqs) &&
   (let s := ({ base with task := { base.task with starting := true } }).setPc .load 0
    ends .taskStart s (fun t => !t.task.starting && t.seqs.control.run && !t.seqs.load.run && t.seqs.compute.run && t.phase.first && t.pcOf .control == 0x4000))) = true := by
  decide +kernel

/-- A parked task of launch 9. -/
def parked9 (w : ParkWhy) : Parked := ⟨9, 7, 5, true, w, false, 0, false, none, base.context⟩

theorem test_meets_TaskEvents_parked :
  (let s0 := withChosen
   let s : State := { s0 with disp := { s0.disp with chosen := some ⟨9, 7, some 0, 0, 0⟩, parked := [parked9 .yield] } }
   !s.task.bound && s.disp.parked[0]? == some (parked9 .yield) && ends .bindTask s (fun t => t.disp.chosen.isNone)) = true := by decide +kernel

theorem test_meets_TaskEvents_swap :
  (let s := { base with phase := { base.phase with reached := 7 } }
   !base.allReached && ends .swapRendezvous base (fun t => t.phase == base.phase) && s.allReached && !s.inh && s.disp.saving.isNone && s.phaseCheck.isNone &&
   ends .swapRendezvous (s.setCsr 0xD 5) (fun t => t.phase.reached == 0 && t.phase.first && t.csrOf 0xD == 0 && t.pcOf .compute == 0x2010)) = true := by decide +kernel

theorem test_meets_TaskEvents_gates :
  (let away : State := { base with mu := { base.mu with tlb := [⟨0, 0, 0, leafPeer, 0⟩] } }
   let s : State := ({ away with task := { away.task with starting := true } }).setPc .compute 0
   let r : State := { away with phase := { away.phase with reached := 7 } }
   ends .taskStart s (fun t => t.task.starting && t.outbox.length == 1 && t.agenda.any (fun p => p.event == .taskStart)) &&
   r.allReached && r.phaseCheck.isNone && ends .swapRendezvous r (fun t => t.phase.reached == 7 && t.outbox.length == 1 && t.agenda.any (fun p => p.event == .swapRendezvous))) = true := by
  decide +kernel

theorem test_meets_TaskEvents_saves :
  (base.disp.saving.isNone && ends .taskSave base (fun t => t.disp == base.disp) &&
   (let s := { base with disp := { base.disp with saving := some (.yield, false), frames := [] } }
    s.saveReady && !({ s with mu := { s.mu with storeQ := [row0 .queued none] } } : State).saveReady &&
    ends .taskSave { s with mu := { s.mu with storeQ := [row0 .queued none] } } (fun t => t.task.bound) &&
    (match s.freeFrame s.taskSecure with
      | none => ends .taskSave s (fun t => t.task.bound)
      | some _ => true)) &&
   (let s (w : ParkWhy) : State := given { base with disp := { base.disp with parked := [parked9 w] } } { v := put (put (put (0 : Word64) 40 16 9) 37 3 7) 0 32 5 }
    ends .resumeWrite (s .fault) (fun t => t.disp.parked.all (fun p => p.resumed)) && ends .resumeWrite (s .yield) (fun t => t.disp.parked.all (fun p => !p.resumed))) &&
   ends .preqWrite (given base { die := 3, v := 6 }) (fun t => t.cfgOf (dieCfg 3 0x18) == 6) &&
   ends .dhaltWrite (given base { v := 3 }) (fun t => t.cfgOf (dieCfg 0 0x30) == 2) && ends .dhaltWrite (given base { v := 3, flag := true }) (fun t => t.cfgOf (dieCfg 0 0x30) == 3)) =
  true := by decide +kernel

/-- The core in the last cycle of a freeze, or of the first of two; freezes began `n` times at tick 0. -/
def freezing (frozen n : Nat) : State :=
  { base with trap := { base.trap with frozen := frozen, freezes := List.replicate n (0, some 0) } }

theorem test_meets_ErrorEvents_causes :
  (let a : Async := ⟨.lateStore, .control, 7, 0, none⟩
   let b : Async := ⟨.watchdog, .control, 0, 0, none⟩
   let s := { base with trap := { base.trap with pend := [b, a] } }
   ends .asyncCause base (fun t => t.seqs == base.seqs) && ends .asyncCause s (fun t => t.csrOf 1 == 160 && t.csrOf 6 == 7 && t.trap.pend == [b]) &&
   a.cause.code.toNat < b.cause.code.toNat &&
   ends .watchdogExpiry (base.setCsr 0xD 1048577) (fun t => t.trap.pend == [b]) && ends .watchdogExpiry (base.setCsr 0xD 1048576) (fun t => t.trap.pend == []) &&
   ends .correctableFreeze (given base { n := 3 }) (fun t => t.trap.frozen == 24 && fld (t.csrOf 0xE) 32 32 == 1 && fld (t.csrOf 0xE) 20 4 == 3 && t.trap.freezes == [(0, some 0)]) &&
   ends .freezeEnd (freezing 24 0) (fun t => t.trap == (freezing 24 0).trap) && ends .freezeEnd (freezing 1 64) (fun t => t.trap.frozen == 0 && t.trap.pend == []) &&
   ends .freezeEnd (freezing 25 65) (fun t => t.trap.frozen == 24 && t.trap.pend.map (fun a => a.cause) == [.correctableStorm])) = true := by decide +kernel

theorem test_meets_ErrorEvents_sites :
  (let u (x : UeSite) : State := given base { site := x }
   ends .uncorrectableError (u .cache) (fun t => t.mu.tlb == []) && ends .uncorrectableError (u (.memory 0x20000)) (fun t => (t.granule 0x20000).poison) &&
   ends .uncorrectableError (given { base with mu := { base.mu with lines := [(4, [9])] } } { site := .cache, flag := true, n := 4 }) (fun t => t.mu.lines == []) &&
   ends .uncorrectableError (u (.metadata 2)) (fun t => t.pkg.stopped && t.cfgOf 0x20 == 0x8000000000000223) &&
   ends .uncorrectableError (u .template) (fun t => !t.task.bound) && ends .uncorrectableError (given { base with task := State.reset.task } { site := .wharf }) (fun t => !t.task.bound) &&
   (base.frontHalf (base.bankOf 0)).isNone && ends .uncorrectableError (u (.scratch 7)) (fun t => mget t.scr.poison false 7) &&
   ((u (.vreg 3 9)).damage (.vreg 3 9)).mayRerun &&
   ends .uncorrectableError (given (base.setCsr 0xC 0x80000000) { site := .vreg 3 9 }) (fun t => t.task.bound && (vlane (t.vReg 3) 9).fpPoison) &&
   !((base.setCsr 0xC 0x80000000).damage (.vreg 3 9)).mayRerun && (base.damage (.acc 1 5)).accElem 1 5 == 0x7FFFFFFF && (base.damage (.dreg 1 5)).mayRerun) = true := by decide +kernel

theorem test_meets_StopAndLeaveEvents :
  (let stops (e : Instr) (s : State) (c : Word64) : Bool := ends e s (fun t => t.pkg.stopped && !t.task.bound && t.cfgOf 0x20 == 0x8000000000000100 ||| c)
   let s := given base { die := 1 }
   stops .linkLost s 44 && stops .dieLost s 43 && stops .replayExhausted s 45 && stops .containedStop (given base { die := 1, cause := some .thermalStop }) 42 &&
   (let f (n : Word64) (hot : Bool) (down up : Bool) : State :=
      let s := (base.setCfg (dieCfg 1 0x28) n)
      given { s with pkg := { s.pkg with clk := [(1, 4000005)], hot := if hot then [(1, true)] else [], hotSince := if hot then [(1, some 5)] else [] } } { die := 1, flag := down, flag2 := up }
    ends .thermalStop (f 10 true false false) (fun t => t.pkg.stopped) && ends .thermalStop (f 10 true false true) (fun t => !t.pkg.stopped && t.pkg.hot == []) &&
    ends .thermalStop (f 10 false true false) (fun t => !t.pkg.stopped && t.pkg.hotSince == [(1, some 4000005)]) &&
    ends .thermalStop (f 11 false true false) (fun t => !t.pkg.stopped && t.pkg.hot == [(1, true)] && t.pkg.hotSince == []) &&
    [((10 : Word64), true, 10), (11, true, 10), (33, false, 33), (32, false, 33)].all (fun x => ends .throttleStep (f x.1 false x.2.1 false) (fun t => fld (t.cfgOf (dieCfg 1 0x28)) 0 6 == x.2.2)))) = true := by decide +kernel

theorem test_meets_StopAndLeaveEvents_leave :
  (let a : State := { base with phase := { base.phase with asked := some 0, first := true } }
   let w (n : Word64) (i : Input) : State := (given a i).setCfg 0x18 n
   let other : Input := { n := 5, flag := true, v := 10 }
   a.leaveCost 0 == 0 && a.leaveAsks == [⟨0, 0, 0⟩] && ends .leaveGrant (w 1000 {}) (fun t => t.phase.granted) && base.leaveAsks == [] && ends .leaveGrant base (fun t => !t.phase.granted) &&
   (let full : State := { w 1039 { n := 5, flag := true, v := 1 } with pkg := { (w 1039 {}).pkg with leaves := [(3, 9)], clk := [(0, 1)] } }
    full.leaveFits ⟨0, 0, 0⟩ && !full.leaveFits ⟨0, 5, 1⟩ && ends .leaveGrant full (fun t => t.phase.granted && mget t.pkg.leaves 0 5 == 0 && t.pkg.leaveQueue == [⟨1, 5, 1⟩])) &&
   (let late : State := { w 1000 other with phase := { a.phase with asked := some 7 } }
    ends .leaveGrant late (fun t => !t.phase.granted && t.pkg.leaveQueue == [⟨0, 5, 10⟩]) &&
    ends .leaveGrant { late with input := { n := 5, flag2 := true }, pkg := { late.pkg with leaveQueue := [⟨0, 5, 10⟩] } } (fun t => t.phase.granted)) &&
   !a.leaveLate && ends .leaveTimeout a (fun t => t.phase == a.phase) &&
   (let l : State := { a with pkg := { a.pkg with clk := [(0, 40000000)] } }
    l.leaveLate && raises .leaveTimeout l .leaveTimeout)) = true := by decide +kernel

theorem test_meets_ClockAndResetEvents :
  (let fresh (t : State) : Bool := t.mem == State.reset.mem && t.csr == [] && t.pkg.cfg == [] && !t.task.bound && !t.pkg.clkRuns
   let run : State := { base with pkg := { base.pkg with clkRuns := true } }
   ends .clockTick base (fun t => t.clkOf 3 == 0) && ends .clockTick { run with pkg := { run.pkg with clk := [(3, -1)] } } (fun t => t.clkOf 3 == 0 && t.clkOf 0 == 1) &&
   ends .syncMessage (given run { v := 79 }) (fun t => !t.locked && t.pkg.ptpGood == 0) &&
   ends .syncMessage (given { run with pkg := { run.pkg with ptpGood := 15 } } { v := 78 }) (fun t => t.locked && t.pkg.ptpGood == 16) &&
   ends .syncMessage (given { run with pkg := { run.pkg with ptpGood := 14 } } { v := 78 }) (fun t => !t.locked) &&
   ends .syncMessage (given base { v := 79 }) (fun t => t.cfgOf 0x10 == base.cfgOf 0x10) &&
   ends .syncMessage (given (run.setCfg 0x10 0x8000000000000001) { v := 79 }) (fun t => !t.locked && fld (t.cfgOf 0x10) 0 32 == 2) && ends .lockLoss (base.setCfg 0x10 0x8000000000000001) (fun t => !t.locked && fld (t.cfgOf 0x10) 0 32 == 2) && ends .lockLoss base (fun t => fld (t.cfgOf 0x10) 0 32 == 0) &&
   ends .reset (given base { v := 0 }) (fun t => fresh t && t.pkg.firmware && t.pkg.powered) && ends .reset (given base { flag := true }) (fun t => fresh t && !t.pkg.firmware) &&
   ends .pkgrstWrite (given base { v := 0x80000000000000A5 }) fresh &&
   (let img (n m : Word64) : State := given { base with pkg := { base.pkg with image := ⟨7, n, true⟩, secVersion := m } } { v := 0x80000000000000A5 }
    ends .pkgrstWrite (img 2 2) (fun t => t.pkg.firmware && t.pkg.image == ⟨7, 2, true⟩) && ends .pkgrstWrite (img 1 2) (fun t => fresh t && !t.pkg.firmware)) && ends .pkgrstWrite (given base { v := 0xA5 }) (fun t => t.task.bound) &&
   ends .pkgrstWrite (given base { v := 0x80000000000000A4 }) (fun t => t.task.bound) && ends .powerRemoved base (fun t => fresh t && !t.pkg.powered) &&
   ends .clkinitWrite (given run { v := 9 }) (fun t => t.clkOf 0 == 0) && ends .clkinitWrite (given base { v := 9 }) (fun t => t.pkg.clkRuns && t.clkOf 3 == 9)) = true := by
  decide +kernel

theorem test_meets_RegisterWriteEvents :
  (let w (s : State) (n : Nat) (v : Word64) : State := given s { n := n, v := v }
   ends .bankfmtWrite (w base 63 1) (fun t => t.csrOf 0x7F == 1) && raises .bankfmtWrite (w base 63 28) .fieldRange && ends .dbufWrite (w base 7 1) (fun t => dbufV (t.dbuf 7)) &&
   raises .dbufWrite (w base 7 0x401) .fieldRange && ends .boexpWrite (w base 15 0) (fun t => t.tags.getLsbD 0) && raises .boexpWrite (w (base.setCsr 0x1A 1) 15 0) .tagBusy &&
   ends .registerWrite (w base 0x14 15) (fun t => t.csrOf 0x14 == 7) && raises .registerWrite (w base 7 0) .privilege && raises .cfgdataWrite (w base 0 0) .privilege &&
   ends .cfgdataWrite (w (baseSup.setCsr 0x1D 0x48) 0 0x80) (fun t => t.cfgOf 0x48 == 0x80) && raises .ringdescWrite (w base 0 0) .privilege && ends .ringdescWrite (w baseSup 0 0) (fun _ => true) &&
   raises .cfgdataRead (w base 3 0) .privilege && ends .cfgdataRead (w (baseSup.setCsr 0x1D 0x48) 3 0) (fun t => t.gReg 3 == 0x80) && ends .bankfmtEffect base (fun _ => true) &&
   ends .tagsWrite (w (base.setCsr 0x19 7) 0 5) (fun t => t.tags == 2) &&
   ends .tagsWrite (w { base.setCsr 0x19 7 with cycle := { base.cycle with tags := 1 } } 0 5) (fun t => t.tags == 3)) = true := by decide +kernel

/-- SerDes group 2 at a step, in a personality. -/
def withSerdes (step pers : Nat) (g : Serdes) : State :=
  given ((base.setCfg (sgBase 2 + 8) (put (put (0 : Word64) 33 3 step) 30 2 pers)).setSerdes 2 g) { n := 2 }

theorem test_meets_TableAndPageEvents_tables :
  (ends .ilvFlip base (fun t => t.ilvCur && (t.cfgOf 0x38).getLsbD 2) && ends .ilvFlip (base.setCfg 0x38 4) (fun t => !t.ilvCur) &&
   ends .ilvDrained (base.setCfg 0x38 5) (fun t => t.cfgOf 0x38 == 1) && base.oldOwn == 0 &&
   !base.tableDue 1 && ends .tdmSwitch (given base { die := 1 }) (fun t => t.pkg.cfg == base.pkg.cfg) &&
   (let a := dieCfg 1 0x1008
    let s : State := given { base with pkg := { base.pkg with staged := [(a, some 5)], cycles := 80640 } } { die := 1 }
    s.stagedOf 1 == [(a, some 5)] && s.tableDue 1 && ends .tdmSwitch s (fun t => t.cfgOf a == 5 && t.stagedOf 1 == []))) = true := by decide +kernel

theorem test_meets_LinkEvents_steps :
  (let g (ctl : Word64) : Serdes := { Serdes.off with ctl := ctl }
   let go (step : Nat) : State := let s := withSerdes step 1 .off; { s with input := { s.input with v := 0x83 } }
   ends .sgctlGo (go 6) (fun t => t.sgStep 2 == 2 && (t.serdes 2).ctl == 0x83 && (t.serdes 2).drainEnd == some 400000 && (t.serdes 2).lanes == 0xFF) &&
   ends .sgctlGo (go 0) (fun t => t.sgStep 2 == 2) &&
   ends .sgctlGo (go 4) (fun t => t.sgStep 2 == 4) && ends .groupDrainEnd (withSerdes 4 1 .off) (fun t => t.sgStep 2 == 4) &&
   (withSerdes 2 1 .off).drainDue 2 && (withSerdes 2 1 .off).boundTo 2 == [] && ends .groupDrainEnd (withSerdes 2 1 (g 0x83)) (fun t => t.sgStep 2 == 4 && t.sgCur 2 == 3) &&
   ends .groupDrainEnd (withSerdes 2 1 (g 0x80)) (fun t => t.sgStep 2 == 0 && t.sgCur 2 == 0) &&
   ends .groupRetrainEnd (withSerdes 5 1 .off) (fun t => t.sgStep 2 == 5) &&
   (let t := withSerdes 4 1 { Serdes.off with lanes := 0xFF }
    fld t.input.w 0 8 == 0 && ends .groupRetrainEnd t (fun t => t.sgStep 2 == 5 && fld (t.sgstat 2) 40 8 == 0xFF)) &&
   ends .groupRetrainEnd (given (withSerdes 4 1 .off) { n := 2, v := 1, w := 0xFF }) (fun t => t.sgStep 2 == 0) &&
   ends .groupRekeyEnd (withSerdes 4 1 .off) (fun t => t.sgStep 2 == 4) && ends .groupRekeyEnd (withSerdes 5 1 .off) (fun t => t.sgStep 2 == 6) &&
   ends .groupRekeyEnd (given (withSerdes 5 1 .off) { n := 2, flag := true }) (fun t => t.sgStep 2 == 0) && ends .groupRateFall (withSerdes 5 1 .off) (fun t => t.sgStep 2 == 5) &&
   (let f (v : Word64) : State := given (withSerdes 6 1 .off) { n := 2, v := v }
    ends .groupRateFall (f 1024) (fun t => t.sgStep 2 == 6 && fld (t.sgstat 2) 48 16 == 1024) &&
    ends .groupRateFall (f 1025) (fun t => t.sgStep 2 == 4 && (t.sgstat 2).getLsbD 32))) = true := by decide +kernel

theorem test_meets_LinkEvents_keys :
  (let at_ (v : Word64) (s : State) : State := given s { n := 2, v := v }
   let s := withSerdes 6 3 .off
   !s.keyPend 2 && s.keyWindow 2 == 2160 && ends .keySwitchSchedule (at_ 4320 s) (fun t => t.keyPend 2 && t.keyTime 2 == 4320) &&
   ends .keySwitchSchedule (at_ 4319 s) (fun t => !t.keyPend 2) &&
   (let p := s.setCfg (sgBase 2 + 16) 0x8000000000000000
    let late (x : State) : State := { x with pkg := { x.pkg with clk := [(0, 160)] } }
    p.keyPend 2 && ends .keySwitchSchedule (at_ 1000 p) (fun t => t.keyTime 2 == 0) && !s.phaseDue 2 && ends .keyPhaseSwitch s (fun t => t.pkg.groups == s.pkg.groups) &&
    p.phaseDue 2 && ends .keyPhaseSwitch p (fun t => (t.serdes 2).txPhase && !(t.serdes 2).oldSet) &&
    ends .keyPhaseSwitch ((withSerdes 6 1 .off).setCfg (sgBase 2 + 16) 0x8000000000000000) (fun t => (t.serdes 2).oldSet) &&
    !p.eraseDue 2 && ends .oldKeyErase p (fun t => t.keyPend 2) &&
    (let e := late (p.setSerdes 2 { Serdes.off with txPhase := true })
     e.eraseDue 2 && ends .oldKeyErase e (fun t => t.keyPhase 2 && !t.keyPend 2)) &&
    ends .firstFlitUnderNewSet p (fun t => t.keyPend 2) && ends .firstFlitUnderNewSet (p.setSerdes 2 { Serdes.off with oldSet := true }) (fun t => t.keyPhase 2 && !t.keyPend 2))) = true := by
  decide +kernel

theorem test_meets_WindowEvents :
  (let f (pool : Bool) (g : Option Nat) (w : FabricWhat) : FabricReq := ⟨w, pool, 5, 0, true, g, 0, 0, 3⟩
   let s (x : FabricReq) (clk : Word64) : State := { base with pkg := { base.pkg with fabric := [x], clk := [(0, clk)] }, mu := { base.mu with remote := .waiting 4 3 } }
   base.pkg.fabric == [] && ends .windowStallTimeout base (fun _ => true) && ends .fabricTimeout base (fun _ => true) &&
   (s (f false none .word) 4000000).fabricDue (f false none .word) && !(s (f false none .word) 3999999).fabricDue (f false none .word) && !(s (f true none .word) 4000000).fabricDue (f true none .word) &&
   ends .fabricTimeout (s (f false none .word) 4000000) (fun t => t.mu.remote == .answered 4 0 (some .fabricTimeout) && t.pkg.fabric == []) &&
   ends .fabricTimeout (s (f false none .image) 4000000) (fun t => t.pkg.fabric == []) &&
   ends .windowStallTimeout (s (f true none .word) 400000) (fun t => t.mu.remote == .answered 4 0 (some .windowClosed)) &&
   ends .windowStallTimeout (s (f true none .word) 399999) (fun t => t.mu.remote == .waiting 4 3) &&
   ends .peerWindowPacket base (fun t => t.outbox == []) && ends .peerWindowPacket (given { base with pkg := { base.pkg with stopped := true } } { packet := some packet1 }) (fun t => t.outbox == [.refusal 0 0 1 7 .containedStop]) &&
   (let p (ctl adm : Word64) : State := given ((base.setCfg 0x80 ctl).setCfg 0x100 adm) { packet := some packet1, die := 2, n := 63 }
    ends .peerWindowPacket (p 0 1) (fun t => t.outbox == [.refusal 0 0 1 7 .windowClosed]) && ends .peerWindowPacket (p 5 1) (fun t => t.outbox.length == 1 && t.wharves == []) &&
    ends .peerWindowPacket (p 5 0) (fun t => t.outbox == [.answer 0 0 1 7 true]) &&
    ends .peerWindowPacket (p 3 1) (fun t => t.outbox == [.answer 0 0 1 7 true]))) = true := by decide +kernel

theorem test_meets_TableAndPageEvents_moves :
  (let go (v : Word64) (s : State) : State := given s { v := v }
   let k : State := { base with mem := { base.mem with gran := [(2048, ⟨false, some (0, 1)⟩)] } }
   errs (k.readTable 0x20000 16) (fun c => c == .keyAbsent) && ends .migcmdGo (go 0x2000 k) (fun t => fld (t.cfgOf 0x88) 54 9 == 3 * 64 + 27) &&
   oks (base.readTable 0x20000 16) (fun v => v % 8 == 1) && ends .migcmdGo (go 0x2000 base) (fun t => fld (t.cfgOf 0x88) 54 9 == 3 * 64 + 16) &&
   (let leafAt (e : BitVec 128) (d : Word64) : State := (go 0x2000 (base.writeTable 0x20000 16 e.toNat)).setCfg 0x90 d
    let res (s : State) (r : Nat) : Bool := ends .migcmdGo s (fun t => fld (t.cfgOf 0x88) 60 3 == r)
    -- a checked leaf, a pinned one, a fourth move within the window, a frame with no place, a leaf that changed
    res (leafAt (putBit leafRW 9 true) 4) 3 && res (leafAt (putBit leafRW 10 true) 4) 2 && res (leafAt (put (put leafRW 13 3 4) 38 24 0) 4) 1 &&
    res { leafAt (put (put leafRW 13 3 4) 38 24 0) 4 with input := { v := 0x2000, flag := true } } 4 && res (leafAt leafRW 0xFFFFFFFFFF) 3 &&
    ends .migcmdGo (leafAt leafPeer 4) (fun t => t.outbox.length == 1 && t.pkg.moveAsks.isSome && t.pkg.fabric.length == 1)) &&
   base.pkg.moving.isNone && ends .migrationRetire base (fun t => t.pkg.cfg == base.pkg.cfg) &&
   (let m : State := { base.setCfg 0x88 0xF000000000000000 with pkg := { (base.setCfg 0x88 0xF000000000000000).pkg with moving := some leafRW } }
    !m.moveBusy leafRW && ends .migrationRetire m (fun t => t.cfgOf 0x88 == 0 && t.pkg.moving.isNone) &&
    (m.setStoreQ [row0 .queued none]).moveBusy leafRW && ends .migrationRetire (m.setStoreQ [row0 .queued none]) (fun t => t.pkg.moving.isSome)) &&
   ends .ckctlGo base (fun t => t.agenda.any (fun p => p.event == .checkpointEnd) && t.outbox == []) &&
   base.checkpointGroups == [] && ends .checkpointEnd (base.setCfg 0x98 0x8000000000000000) (fun t => t.cfgOf 0x98 == 0x5C00000000000000)) = true := by decide +kernel

/-- A command register with GO, and its fields as the GO took them. -/
def running (a : Nat) (v : Word64) : State :=
  let s := base.setCfg a v
  { s with pkg := { s.pkg with running := [(a, v)] } }

theorem test_meets_SecurityAndHostEvents :
  (ends .rwcmdGo base (fun t => t.agenda.any (fun p => p.event == .regionWorldApply)) && !base.regionDue && ends .regionWorldApply base (fun t => t.pkg.regions == base.pkg.regions) &&
   (let r := running 0xB0 0x8000000000000000
    r.regionDue && r.changingRegion == 0 && r.cellOf r.ilvCur 0 == some 0 && ends .regionWorldApply r (fun t => !t.regionSecure 5 && t.regionSecure 0x200000 && t.cell 0x20000 == 0 && t.cfgOf 0xB0 == 0) &&
    !(r.setStoreQ [row0 .timedBuffer none]).regionDue && ends .regionWorldApply (running 0xB0 0xC000000000000001) (fun t => t.regionSecure 0x200000 && t.cell 0x20000 == 0x81)) &&
   !base.slotDue && ends .keyLoad base (fun t => t.pkg.cfg == base.pkg.cfg) &&
   (let k := running 0xB8 0x8000000000000003
    let e := (running 0xB8 0xC000000000000003).setCfg 0x20018 0xBF00000000000000
    k.slotDue && ends .keyLoad k (fun t => (t.ksctl 3).getLsbD 63 && fld (t.ksctl 3) 56 6 == 1) && ends .keyErase k (fun t => t.pkg.cfg == k.pkg.cfg) &&
    ends .keyErase e (fun t => !(t.ksctl 3).getLsbD 63 && fld (t.ksctl 3) 56 6 == 63)) &&
   (let f (n : Nat) (t : Tdi) : State := let s := base.setTdi 4 t; given { s with pkg := { s.pkg with ideKeys := [(1, some 5)] } } { n := n, v := 2, w := 1 }
    ends .lockInterface (f 4 ⟨0, 0, false⟩) (fun t => t.tdi 4 == ⟨1, 2, false⟩) && ends .lockInterface (f 4 ⟨2, 1, false⟩) (fun t => t.tdi 4 == ⟨2, 1, false⟩) &&
    ends .startInterface (f 4 ⟨1, 2, false⟩) (fun t => t.tdi 4 == ⟨2, 2, false⟩) && ends .startInterface (f 4 ⟨0, 2, false⟩) (fun t => (t.tdi 4).state == 0) &&
    ends .stopInterface (f 4 ⟨3, 2, true⟩) (fun t => (t.tdi 4).state == 0) &&
    ends .hostRequest { f 4 ⟨0, 0, false⟩ with pkg := { base.pkg with firmware := false } } (fun t => t.outbox == []) &&
    ends .hostRequest (f 4 ⟨3, 0, true⟩) (fun t => t.outbox == [.hostRefused .assignmentLock]) && ends .hostRequest (f 4 ⟨2, 0, false⟩) (fun t => (t.tdi 4).state == 3) &&
    ends .hostRequest (f 4 ⟨2, 1, false⟩) (fun t => (t.tdi 4).state == 2 && t.outbox.length == 1) && ends .hostRequest (f 4 ⟨1, 0, false⟩) (fun t => t.outbox.length == 1) &&
    !(given base { w := 1 }).inStream 4 1 &&
    (let pci (s : State) (w : Bool) : State := { s with input := { s.input with flag := w, flag2 := true, addr := 3 } }
     ends .hostRequest (pci (f 4 ⟨0, 0, false⟩) true) (fun t => mget t.pkg.pci 0 515 == 2) && ends .hostRequest (pci (f 4 ⟨1, 1, false⟩) true) (fun t => t.pkg.pci == [] && (t.tdi 4).state == 3) &&
     ends .hostRequest (pci (f 4 ⟨2, 1, false⟩) false) (fun t => t.outbox == [.host 0])))) = true := by
  decide +kernel

theorem test_meets_SecurityAndHostEvents_spdm :
  (let q (k n : Nat) : State := given base { w := w64 k, n := n, data := 9 }
   let open_ (b : Bool) (s : State) : State := { s with pkg := { s.pkg with session := some ⟨4, b⟩ } }
   [0, 1, 2, 3, 4, 5].all (fun k => ends .spdmMessage (q k 8) (fun t => t.outbox.length == 1)) && ends .spdmMessage (q 3 0) (fun t => t.pkg.session.any (fun x => !x.finished)) &&
   ends .spdmMessage (open_ false (q 4 0)) (fun t => t.pkg.session == some ⟨4, true⟩) && (open_ true base).inSession && !(open_ false base).inSession &&
   ends .spdmMessage (open_ true (q 6 2)) (fun t => t.pkg.ideKeys == [(2, some 9)]) && ends .spdmMessage (open_ false (q 6 2)) (fun t => t.pkg.ideKeys == [] && t.outbox.length == 1)) = true := by
  decide +kernel

/-- Queue 63 of a package whose queues are open, its GO as last taken, and a write of its LQCMD by function `f`. -/
def withQueue63 (stat : Word64) (f : Nat) (v : Word64) : State :=
  let s := base.setCfg 0x17F0 stat
  given { s with pkg := { s.pkg with clkRuns := true } } { n := 63, w := w64 f, v := v }

theorem test_meets_SecurityAndHostEvents_submissions :
  (let go : Word64 := 0x8000000000000000
   let run := withQueue63 0 0 go
   let shut : State := { run with pkg := { run.pkg with clkRuns := false } }
   !shut.queuesOpen && ends .lqcmdGo shut (fun t => !t.submitting 63 && t.cfgOf 0x17F0 == 0) && run.queuesOpen && ends .lqcmdGo (withQueue63 0 0 0x70000000A) (fun t => t.cfgOf 0x17E8 == 0x70000000A) &&
   ends .lqcmdGo ((withQueue63 0 4 0x50000000A).setCfg 0x17E8 0x700000000) (fun t => t.cfgOf 0x17E8 == 0x70000000A) &&
   ends .lqcmdGo (withQueue63 go 0 go) (fun t => t.cfgOf 0x17F0 == go && t.cfgOf 0x17E8 == 0) &&
   ends .lqcmdGo { run with input := { n := 63, flag := true } } (fun t => t.cfgOf 0x17F0 == 0) &&
   (let late : State := { withQueue63 go 0 go with input := { n := 63, flag := true } }
    late.submitting 63 && ends .lqcmdGo late (fun t => !t.submitting 63)) &&
   oks (run.descriptor 0) (fun d => (run.launchGate 71 0 (d.getLsbD 1) true 0).isNone && errs (run.checkLaunch 0 (d.getLsbD 1) true true (d.getLsbD 1) 0 63) (fun _ => true)) &&
   ends .lqcmdGo run (fun t => !(t.cfgOf 0x17F0).getLsbD 63 && !(t.cfgOf 0x17F0).getLsbD 62 && fld (t.cfgOf 0x17F0) 56 6 != 0)) = true := by decide +kernel

theorem test_meets_SecurityAndHostEvents_gate :
  (let s := withQueue63 0 0 0x8000000000000000
   let away : State := { s with mu := { s.mu with tlb := [⟨0, 0, 0, leafPeer &&& ~~~0x80, 0⟩] } }
   oks (away.descriptor 0) (fun d => (away.launchGate 71 0 (d.getLsbD 1) true 0).isSome) && ends .lqcmdGo away (fun t => t.submitting 63 && t.outbox.length == 8 && t.agenda.any (fun p => p.event == .lqcmdGo))) = true := by
  decide +kernel

theorem test_meets_TaskEvents_mismatch :
  (let s := { base with phase := { base.phase with reached := 7, record := .got 0 (putBit (putBit 0 30 true) 0 true) } }
   s.phaseCheck == some .phaseCycles && s.allReached && ends .swapRendezvous s (fun t => (t.csrOf 0xC).getLsbD 30 && t.phase.reached == 0)) = true := by decide +kernel

/-- A free frame: one of one, at 2 MiB; the save into it is too long for a test. -/
theorem test_meets_TaskEvents_frame :
  (let s := (base.setCfg 0x68 (put (put (0 : Word64) 11 43 16) 0 11 1)).setCfg 0x60 0
   s.freeFrame true == some 0 && s.frameAddress true 0 == 0x200000 && (s.freeFrame false).isNone &&
   s.saveReady && s.taskSecure) = true := by decide +kernel

theorem test_meets_MaskAndPortWords_bind :
  (let s := ({ base with vec := { base.vec with records := [(1, ⟨0x0010000100000000, 0x00010001, 0⟩)] } }).setPc .compute 0
   let busy : State := s.setOutPort 7 ⟨none, 1, [⟨[], false, 0, false, 5, [], 0, [], ⟨0, 0, false, true⟩⟩]⟩
   s.recordFault 0 && [(0 : BitVec 1), 1].all (fun d => raises (.sbind d 7 0) s .fieldRange) && !s.recordFault 1 && ends (.sbind 0 7 1) s (fun t => (t.inPort 7).bound.isSome) &&
   !s.outBusy 7 && ends (.sbind 1 7 1) s (fun t => (t.outPort 7).bound.isSome) && busy.outBusy 7 && waits (.sbind 1 7 1) busy && waits (.sunbind 1 7) busy &&
   ends (.sunbind 0 7) s (fun t => (t.inPort 7).bound.isNone)) = true := by decide +kernel

end Sys2Proof.Tests
end

section
/-! PROOF. Binding a write through a leaf that does not show DIRTY: the hardware's write of the table entry (R28) drops the line of the
entry's granule from the scalar data cache (R85, log entry 38), which AccessBinding says stays as it was. -/
namespace Sys2Proof.Machine
open Sys2Proof

/-- Two memory interfaces that differ in the translation cache alone hold the same lines. -/
theorem lineHeld_eq_of_tlb_only {s t : State} (h : { t.mu with tlb := s.mu.tlb } = s.mu) (g : Nat) : t.lineHeld g = s.lineHeld g := by
  have hlines : t.mu.lines = s.mu.lines := by rw [← h]
  simp [State.lineHeld, State.lineSet, hlines]

@[simp] theorem setTlb_lineHeld (s : State) (l : List TlbEntry) (g : Nat) : (s.setTlb l).lineHeld g = s.lineHeld g := rfl

@[simp] theorem dropLine_lineHeld_same (s : State) (g : Nat) : (s.dropLine g).lineHeld g = false := by
  simp [State.lineHeld, State.lineSet, State.dropLine, State.setLines]

/-- A write of the hardware's own tables drops the line of the granule in which it begins. -/
theorem writeTable_lineHeld {s : State} {pa c : Nat} (n v : Nat) (hc : s.cellOf s.ilvCur pa = some c) :
    (s.writeTable pa n v).lineHeld (c / 64) = false := by
  simp only [State.writeTable, State.writeTableAt, hc]
  exact dropLine_lineHeld_same s (c / 64)

/-- A cached leaf that passes the checks of R24 serves the access. -/
theorem leafFor_cached {s : State} {asid : BitVec 11} {va : Addr} {k : AccessKind} {sup secure : Bool} {e : TlbEntry}
    (hfind : s.mu.tlb.find? (fun t => t.covers asid va) = some e) (hcheck : checkLeaf e.leaf k sup secure = none) :
    s.leafFor asid va k sup secure = .ok (s.touch e, e) := by
  simp only [State.leafFor, hfind, hcheck]

/-- A cached leaf with DIRTY showing. -/
def TlbEntry.dirtied (e : TlbEntry) : TlbEntry := { e with leaf := putBit e.leaf 12 true }

/-- Where the table entry still equals the cached leaf, DIRTY is set in both, and the core loses the line that held the entry. -/
theorem dirty_drops_line {s : State} {asid : BitVec 11} {va : Addr} {k : AccessKind} {sup secure : Bool} {e : TlbEntry} {c : Nat}
    (hclean : e.leaf.getLsbD 12 = false) (hentry : s.readTable e.entry 16 = .ok e.leaf.toNat)
    (hcell : s.cellOf s.ilvCur e.entry = some c) :
    ∃ t, s.dirty asid va k sup secure e = .ok (t, e.dirtied) ∧ t.lineHeld (c / 64) = false := by
  refine ⟨(s.writeTable e.entry 16 e.dirtied.leaf.toNat).setTlb (e.dirtied :: s.mu.tlb.filter (fun x => x != e)), ?_, ?_⟩
  · simp only [State.dirty, hclean, hentry, Bool.false_eq_true, ↓reduceIte]
    rfl
  · rw [setTlb_lineHeld]
    exact writeTable_lineHeld 16 _ hcell

/-- A write is bound through the leaf that setting DIRTY leaves, and in its state. -/
theorem bindAccess_write {s s1 t : State} {va : Addr} {e1 e : TlbEntry} (hleaf : s.leafFor s.asid va .write s.sup s.secure = .ok (s1, e1))
    (hdirty : s1.dirty s.asid va .write s.sup s.secure e1 = .ok (t, e))
    (hplaced : (s.cellOf s.ilvCur (leafAddress e.leaf e.level va)).isSome = true) :
    ∃ b, s.bindAccess va .write = .ok (t, b, e.level) := by
  have hnone : (s.cellOf s.ilvCur (leafAddress e.leaf e.level va)).isNone = false := by
    rw [← Option.not_isSome, hplaced]; rfl
  refine ⟨⟨va, s.asid, s.secure, e.leaf, leafAddress e.leaf e.level va, s.ilvCur⟩, ?_⟩
  simp only [State.bindAccess, State.bindAs, hleaf, hdirty, hnone, Bool.and_false, Bool.false_eq_true, ↓reduceIte]

/-- A write bound through a cached leaf without DIRTY takes the line of the leaf's table entry from the scalar data cache. -/
theorem bindAccess_write_drops_line {s : State} {va : Addr} {e : TlbEntry} {c : Nat}
    (hfind : s.mu.tlb.find? (fun t => t.covers s.asid va) = some e) (hcheck : checkLeaf e.leaf .write s.sup s.secure = none)
    (hclean : e.leaf.getLsbD 12 = false) (hentry : s.readTable e.entry 16 = .ok e.leaf.toNat)
    (hcell : s.cellOf s.ilvCur e.entry = some c)
    (hplaced : (s.cellOf s.ilvCur (leafAddress e.dirtied.leaf e.level va)).isSome = true) :
    ∃ t b, s.bindAccess va .write = .ok (t, b, e.level) ∧ t.lineHeld (c / 64) = false := by
  obtain ⟨t, hdirty, hline⟩ := dirty_drops_line (s := s.touch e) (asid := s.asid) (va := va) (k := .write) (sup := s.sup)
    (secure := s.secure) hclean hentry hcell
  obtain ⟨b, hbind⟩ := bindAccess_write (leafFor_cached hfind hcheck) hdirty hplaced
  exact ⟨t, b, hbind, hline⟩

/-- The cached leaf of page 0 of ASID 0, with its table entry at 0x250000: present, readable, writable and executable, secure, ACC set
and DIRTY clear, on frame 1 (R21). -/
def cleanLeaf : TlbEntry := ⟨0, 0, 0, 0x100000000000008BF, 0x250000⟩

/-- A core in the secure world that has `cleanLeaf` cached; memory holds the leaf's table entry, owned by key slot 0, and the scalar data
cache holds the entry's line, as after a load of the entry. -/
def entryLineHeld : State :=
  { State.reset with
    csr := [(0, 4)]
    mu := { State.reset.mu with tlb := [cleanLeaf], lines := [(0, [0x250000 / 64])] }
    mem := { State.reset.mem with bytes := [(0x250000, 0xBF), (0x250001, 0x08), (0x250008, 0x01)]
                                  gran := [(0x250000 / 64, ⟨false, some (0, 0)⟩)] } }

/-- A write to address 8 is bound on `entryLineHeld`, and the line of the table entry is gone. -/
theorem entryLineHeld_bindAccess_write :
    ∃ t b l, entryLineHeld.bindAccess 8 .write = .ok (t, b, l) ∧ t.lineHeld (0x250000 / 64) = false := by
  obtain ⟨t, b, hbind, hline⟩ := bindAccess_write_drops_line (s := entryLineHeld) (va := 8) (e := cleanLeaf) (c := 0x250000)
    (by decide) (by decide) (by decide) (by rfl) (by decide) (by decide)
  exact ⟨t, b, _, hbind, hline⟩

/-- Refutes O8: its frame of a bound access keeps the core's memory interface but for the translation cache, and the scalar data cache is
part of that interface. On `entryLineHeld` a write to address 8 sets DIRTY in the table entry at 0x250000, and this write of the hardware
drops the line that the cache held of the entry (R28, R85, log entry 38). -/
theorem not_accessBinding : ¬ Obligations.AccessBinding := by
  unfold Obligations.AccessBinding
  rintro ⟨⟨-, hframe⟩, -⟩
  obtain ⟨t, b, l, hbind, hdropped⟩ := entryLineHeld_bindAccess_write
  obtain ⟨-, -, hmu, -⟩ := hframe entryLineHeld t 8 .write b l hbind
  have hkept : t.lineHeld (0x250000 / 64) = true := (lineHeld_eq_of_tlb_only hmu _).trans (by decide)
  exact Bool.false_ne_true (hdropped.symm.trans hkept)

end Sys2Proof.Machine
end

section
/-! PROOF. What the operations that land, refuse and drop packets leave as it was. Two views of a state say it: `State.still` for the
operations on CSRs, logs, tags, barrier objects and memory, and `State.atWharf` for those that also write the slots of a wharf or the
scratchpad. -/
namespace Sys2Proof.Machine
open Sys2Proof

/-- The scalar registers, the sequencers, the scratchpad and the wharves. -/
def State.still (s : State) : Scalars × Seqs × Scratch × SMap Wharf := (s.sc, s.seqs, s.scr, s.wharves)

/-- The scalar registers, the sequencers and the packets of a wharf. -/
def State.atWharf (s : State) (w : WharfId) : Scalars × Seqs × List Transit := (s.sc, s.seqs, (s.wharf w).transit)

theorem still_of_fields {s t : State} (hsc : t.sc = s.sc) (hseqs : t.seqs = s.seqs) (hscr : t.scr = s.scr)
    (hwharves : t.wharves = s.wharves) : t.still = s.still := by
  simp only [State.still, hsc, hseqs, hscr, hwharves]

theorem still_fields {s t : State} (h : t.still = s.still) :
    t.sc = s.sc ∧ t.seqs = s.seqs ∧ t.scr = s.scr ∧ t.wharves = s.wharves := by
  simpa [State.still] using h

theorem atWharf_of_still {s t : State} (w : WharfId) (h : t.still = s.still) : t.atWharf w = s.atWharf w := by
  obtain ⟨hsc, hseqs, -, hwharves⟩ := still_fields h
  simp only [State.atWharf, State.wharf, hsc, hseqs, hwharves]

/-- A fold over steps that keep a view of the state keeps it. -/
theorem foldl_keeps {α β : Type} {v : State → α} {f : State → β → State} (hf : ∀ s x, v (f s x) = v s) (l : List β) (s : State) :
    v (l.foldl f s) = v s := by
  induction l generalizing s with
  | nil => rfl
  | cons x l ih => rw [List.foldl_cons, ih, hf]

/-- The same for steps that may fail. -/
theorem foldl_ok_keeps {α β ε : Type} {v : State → α} {f : Except ε State → β → Except ε State}
    (herr : ∀ e x, f (.error e) x = .error e)
    (hok : ∀ s x t, f (.ok s) x = .ok t → v t = v s) (l : List β) {s t : State} (h : l.foldl f (.ok s) = .ok t) : v t = v s := by
  induction l generalizing s with
  | nil => cases h; rfl
  | cons x l ih =>
    rw [List.foldl_cons] at h
    cases hx : f (.ok s) x with
    | ok u => rw [hx] at h; rw [ih h, hok s x u hx]
    | error e =>
      have hstuck : l.foldl f (.error e) = .error e := by
        clear h ih
        induction l with
        | nil => rfl
        | cons y l ih => rw [List.foldl_cons, herr, ih]
      rw [hx, hstuck] at h
      cases h

/-! Events, causes, counters, logs and tags. -/

@[simp] theorem setCsr_still (s : State) (n : Nat) (v : Word64) : (s.setCsr n v).still = s.still := rfl
@[simp] theorem async_still (s : State) (a : Async) : (s.async a).still = s.still := rfl
@[simp] theorem emit_still (s : State) (m : Message) : (s.emit m).still = s.still := rfl
@[simp] theorem postOnce_still (s : State) (e : Instr) (i : Input) : (s.postOnce e i).still = s.still :=
  still_of_fields (by simp) (by simp) (by simp) (by simp)

@[simp] theorem countOne_still (s : State) (e k n : Nat) : (countOne s e k n).still = s.still := by
  unfold countOne
  dsimp only
  split
  · split <;> rfl
  · rfl

@[simp] theorem count_still (s : State) (e k : Nat) : (s.count e k).still = s.still := by simp only [State.count, countOne_still]

@[simp] theorem logUnlanded_still (s : State) (r : BitVec 256) : (s.logUnlanded r).still = s.still := by
  unfold State.logUnlanded
  dsimp only
  split
  · rfl
  · split <;> rfl

@[simp] theorem logMemUnlanded_still (s : State) (d : BitVec 2) (r : BitVec 256) : (s.logMemUnlanded d r).still = s.still := by
  unfold State.logMemUnlanded
  dsimp only
  split
  · rfl
  · split <;> rfl

@[simp] theorem logEvent_still (s : State) (stag origin place tile : Nat) (e : BlockEvent) :
    (s.logEvent stag origin place tile e).still = s.still := by
  unfold State.logEvent
  dsimp only
  split
  · rfl
  · split
    · rfl
    · rw [count_still]; rfl

@[simp] theorem recordDrop_still (s : State) (w : WharfId) (t : Transit) (why : Unlanded) : (s.recordDrop w t why).still = s.still := by
  cases w <;> simp [State.recordDrop]

@[simp] theorem recordRefusal_still (s : State) (w : WharfId) (t : Transit) (slot : Nat) (why : Unlanded) (cause : Nat) :
    (s.recordRefusal w t slot why cause).still = s.still := by
  unfold State.recordRefusal
  dsimp only
  split
  · rfl
  · split <;> simp

@[simp] theorem answerPacket_still (s : State) (p : Packet) (discarded : Bool) : (s.answerPacket p discarded).still = s.still := by
  unfold State.answerPacket
  split <;> rfl

@[simp] theorem tagDone_still (s : State) (t : Nat) : (s.tagDone t).still = s.still := rfl

@[simp] theorem credit_still (s : State) (n bytes stag : Nat) : (s.credit n bytes stag).still = s.still := by
  simp only [State.credit, apply_ite State.still, async_still, tagDone_still, setCsr_still, ite_self]

/-! Memory, and the tags of a parked task. -/

@[simp] theorem setGranule_still (s : State) (c : Nat) (g : Granule) : (s.setGranule c g).still = s.still := rfl
@[simp] theorem poisonCell_still (s : State) (c : Nat) : (s.poisonCell c).still = s.still := rfl

@[simp] theorem takeGranule_still (s : State) (c : Nat) (o : BitVec 10 × BitVec 6) : (s.takeGranule c o).still = s.still := by
  unfold State.takeGranule
  dsimp only
  rw [setGranule_still]
  split
  · simp only [State.still]
  · split
    · rfl
    · exact foldl_keeps (v := State.still) (fun t i => by simp only [State.still]) _ s

@[simp] theorem writeCell_still (s : State) (c n v : Nat) (o : BitVec 10 × BitVec 6) : (s.writeCell c n v o).still = s.still := by
  have htaken := takeGranule_still (s.dropLine (c / 64)) c o
  unfold State.writeCell
  dsimp only
  split
  · exact htaken
  · exact htaken

@[simp] theorem writeTableAt_still (s : State) (ver : Bool) (pa n v : Nat) : (s.writeTableAt ver pa n v).still = s.still := by
  unfold State.writeTableAt
  split <;> rfl

@[simp] theorem writeTable_still (s : State) (pa n v : Nat) : (s.writeTable pa n v).still = s.still := writeTableAt_still s _ pa n v

@[simp] theorem framePut_still (s : State) (key pa n v : Nat) : (s.framePut key pa n v).still = s.still := by
  unfold State.framePut
  split
  · rfl
  · exact writeCell_still _ _ _ _ _

@[simp] theorem setTaskCsr_still (s : State) (task n : Nat) (f : Word64 → Word64) : (s.setTaskCsr task n f).still = s.still := by
  unfold State.setTaskCsr
  split
  · rfl
  · split
    · rfl
    · exact framePut_still s _ _ _ _

@[simp] theorem tagDoneOf_still (s : State) (task t : Nat) : (s.tagDoneOf task t).still = s.still := by
  unfold State.tagDoneOf
  split <;> simp

@[simp] theorem complete_still (s : State) (tag : Nat) (record : Bool) (v : Word64) (fresh : Bool) :
    (s.complete tag record v fresh).still = s.still := by
  unfold State.complete
  cases record <;> rfl

@[simp] theorem completeMap_still (s : State) (t : MapTag) (v : Word64) : (s.completeMap t v).still = s.still := by
  have hdone := tagDoneOf_still s t.task t.tag
  unfold State.completeMap
  split
  · exact complete_still s _ _ _ _
  · dsimp only
    split
    · exact hdone
    · exact hdone

/-! Pins, tile tables and landings in a tensor. -/

@[simp] theorem finishEntry_still (s : State) (ver : Bool) (e : BitVec 512) (pa : Nat) (tag : Option (Nat × Nat)) :
    (s.finishEntry ver e pa tag).still = s.still := by
  cases tag <;> simp [State.finishEntry]

@[simp] theorem unpinAtHome_still (s : State) (pa : Nat) : (s.unpinAtHome pa).still = s.still := by
  unfold State.unpinAtHome
  split
  · rfl
  · dsimp only
    split
    · exact finishEntry_still s _ _ _ _
    · exact writeTable_still s _ _ _

@[simp] theorem unbindTensor_still (s : State) (t : Tensor) : (s.unbindTensor t).still = s.still := by
  unfold State.unbindTensor
  split <;> simp

@[simp] theorem cacheLeaf_still (s : State) (die : BitVec 2) (l : TileLeaf) : (s.cacheLeaf die l).still = s.still := rfl

theorem freshTile_still {s u : State} {t : Tensor} {e : TensorEntry} {tile : Nat} {k : AccessKind} {l : BitVec 128}
    (h : s.freshTile t e tile k = .ok (u, l)) : u.still = s.still := by
  unfold State.freshTile at h
  dsimp only at h
  split at h
  · cases h
  · cases h
    simp only [cacheLeaf_still, apply_ite State.still, writeTable_still, ite_self]

theorem tileEntry_still {s u : State} {t : Tensor} {e : TensorEntry} {tile : Nat} {k : AccessKind} {l : BitVec 128}
    (h : s.tileEntry t e tile k = .ok (u, l)) : u.still = s.still := by
  unfold State.tileEntry at h
  split at h
  · exact freshTile_still h
  · split at h
    · split at h
      · exact freshTile_still h
      · cases h
    · split at h
      · cases h; rfl
      · split at h
        · cases h
        · split at h
          · cases h
            rw [cacheLeaf_still, writeTable_still]
          · exact freshTile_still h

theorem tileLeaf_still {s u : State} {t : Tensor} {e : TensorEntry} {tile : Nat} {k : AccessKind} {b : Bound}
    (h : s.tileLeaf t e tile k = .ok (u, b)) : u.still = s.still := by
  unfold State.tileLeaf at h
  split at h
  · cases h
  next s1 l hentry =>
    dsimp only at h
    split at h
    · cases h
    · split at h
      · cases h
      · cases h
        exact tileEntry_still hentry

theorem tileWrite_still {s u : State} {b : Bound} {e : BitVec 512} {w bit v : Nat} {poison : Bool}
    (h : s.tileWrite b e w bit v poison = .ok u) : u.still = s.still := by
  unfold State.tileWrite at h
  refine foldl_ok_keeps (v := State.still) (fun _ _ => rfl) ?_ _ h
  intro s i u hstep
  dsimp only at hstep
  split at hstep
  · cases hstep
  · split at hstep
    · cases hstep
    · cases hstep
      simp only [apply_ite State.still, poisonCell_still, writeCell_still, ite_self]

@[simp] theorem sendBound_still (s : State) (b : Bound) (what : FabricWhat) : (s.sendBound b what).still = s.still := by
  unfold State.sendBound
  split <;> rfl

theorem writeElem_still {s u : State} {t : Tensor} {k : AccessKind} {x : TensorEntry} {c : Coord} {v : Nat} {poison : Bool}
    (h : s.writeElem t k x c v poison = .ok u) : u.still = s.still := by
  unfold State.writeElem at h
  dsimp only at h
  split at h
  · cases h
  next s1 b hleaf =>
    split at h
    · cases h
      rw [foldl_keeps (v := State.still) (fun s y => by simp), tileLeaf_still hleaf]
    · split at h
      · cases h
      · split at h
        · cases h
        next s2 hwrite =>
          cases h
          rw [tileWrite_still hwrite, tileLeaf_still hleaf]

theorem writeElems_still (t : Tensor) (k : AccessKind) (ws : List ElemWrite) (s : State) : (s.writeElems t k ws).1.still = s.still := by
  induction ws generalizing s with
  | nil => rfl
  | cons y ws ih =>
    obtain ⟨x, c, v, p⟩ := y
    unfold State.writeElems
    split
    · rfl
    · split
      · rfl
      next s1 hwrite => rw [ih, writeElem_still hwrite]

theorem clearCovered_still (s : State) (t : Tensor) (k : AccessKind) (ws : List ElemWrite) : (s.clearCovered t k ws).still = s.still := by
  unfold State.clearCovered
  refine foldl_keeps (v := State.still) (fun s y => ?_) _ s
  dsimp only
  split <;> rfl

theorem landTensor_still (s : State) (t : Tensor) (k : AccessKind) (p : Packet) (rm : Nat) (satd : Bool) (dst : Nat → List Nat) :
    (s.landTensor t k p rm satd dst).1.still = s.still := by
  unfold State.landTensor
  dsimp only
  split
  · rfl
  · split
    · exact writeElems_still t k _ s
    · rw [clearCovered_still]
      exact writeElems_still t k _ s

/-! The slots and packets of a wharf. -/

@[simp] theorem wharf_setWharf (s : State) (w : WharfId) (x : Wharf) : (s.setWharf w x).wharf w = x := mget_mset_same _ _ _ _

/-- A write of a wharf that keeps its packets. -/
theorem setWharf_atWharf (s : State) (w : WharfId) (x : Wharf) (h : x.transit = (s.wharf w).transit) :
    (s.setWharf w x).atWharf w = s.atWharf w := by
  simp [State.atWharf, h]

@[simp] theorem setMapSlot_atWharf (s : State) (w : WharfId) (n : Nat) (m : MapSlot) : (s.setMapSlot w n m).atWharf w = s.atWharf w :=
  setWharf_atWharf s w _ rfl

@[simp] theorem postOnce_atWharf (s : State) (w : WharfId) (e : Instr) (i : Input) : (s.postOnce e i).atWharf w = s.atWharf w :=
  atWharf_of_still w (postOnce_still s e i)

@[simp] theorem freeSlot_atWharf (s : State) (w : WharfId) (n : Nat) : (s.freeSlot w n).atWharf w = s.atWharf w := by
  have htag (u : State) (t : MapTag) : (u.completeMap t 0).atWharf w = u.atWharf w := atWharf_of_still w (completeMap_still u t 0)
  have hpin (t : Tensor) : (s.unbindTensor t).atWharf w = s.atWharf w := atWharf_of_still w (unbindTensor_still s t)
  unfold State.freeSlot
  dsimp only
  split
  · rfl
  · cases (s.mapSlot w n).tensor with
    | none => split <;> simp only [apply_ite (fun u : State => u.atWharf w), htag, setMapSlot_atWharf, ite_self]
    | some t => split <;> simp only [apply_ite (fun u : State => u.atWharf w), htag, hpin, setMapSlot_atWharf, ite_self]

@[simp] theorem unbindPacket_atWharf (s : State) (w : WharfId) (n : Nat) : (s.unbindPacket w n).atWharf w = s.atWharf w := by
  simp only [State.unbindPacket, freeSlot_atWharf, setMapSlot_atWharf]

@[simp] theorem refuseAt_atWharf (s : State) (w : WharfId) (t : Transit) (n : Nat) (why : Unlanded) (cause : Nat) :
    (s.refuseAt w t n why cause).atWharf w = s.atWharf w := by
  have hrecord := atWharf_of_still w (recordRefusal_still s w t n why cause)
  unfold State.refuseAt
  dsimp only
  rw [unbindPacket_atWharf]
  split
  · exact hrecord
  · exact hrecord

@[simp] theorem logLanding_atWharf (s : State) (w : WharfId) (n : Nat) (p : Packet) (evs : List (Nat × Nat × BlockEvent)) :
    (s.logLanding w n p evs).atWharf w = s.atWharf w := by
  have hevent (u : State) (stag origin place tile : Nat) (e : BlockEvent) : (u.logEvent stag origin place tile e).atWharf w = u.atWharf w :=
    atWharf_of_still w (logEvent_still u stag origin place tile e)
  have hlogged (u : State) (l : List Logged) : (u.setWharf w { u.wharf w with logged := l }).atWharf w = u.atWharf w :=
    setWharf_atWharf u w _ rfl
  unfold State.logLanding
  refine foldl_keeps (v := fun u => u.atWharf w) (fun u y => ?_) evs s
  simp only [apply_ite (fun u : State => u.atWharf w), hevent, hlogged, ite_self]

@[simp] theorem credited_atWharf (s : State) (w : WharfId) (p : Packet) (n : Nat) : (s.credited w p n).atWharf w = s.atWharf w := by
  unfold State.credited
  dsimp only
  rw [unbindPacket_atWharf]
  refine atWharf_of_still w ?_
  simp only [apply_ite State.still, count_still, credit_still, ite_self]

/-! Landings in banks and rings. -/

@[simp] theorem wrote_atWharf (s : State) (w : WharfId) (bank : Nat) : (s.wrote bank).atWharf w = s.atWharf w := by
  unfold State.wrote
  split <;> rfl

@[simp] theorem setScrPoison_atWharf (s : State) (w : WharfId) (a : Nat) (b : Bool) : (s.setScrPoison a b).atWharf w = s.atWharf w := rfl

@[simp] theorem setScrByte_atWharf (s : State) (w : WharfId) (a : Nat) (v : Byte) : (s.setScrByte a v).atWharf w = s.atWharf w := rfl

@[simp] theorem setScrBits_atWharf (s : State) (w : WharfId) (bit width v : Nat) : (s.setScrBits bit width v).atWharf w = s.atWharf w := by
  unfold State.setScrBits
  exact foldl_keeps (v := fun u => u.atWharf w) (fun u i => by simp only [setScrByte_atWharf]) _ s

@[simp] theorem storePlaces_atWharf (s : State) (w : WharfId) (ps : List Place) : (s.storePlaces ps).atWharf w = s.atWharf w := by
  unfold State.storePlaces
  dsimp only
  rw [foldl_keeps (v := fun u => u.atWharf w) (fun s g => ?_), foldl_keeps (v := fun u => u.atWharf w) (fun s p => by simp),
    foldl_keeps (v := fun u => u.atWharf w) (fun s b => by simp)]
  split
  · rfl
  · split <;> rfl

@[simp] theorem noteLanding_atWharf (s : State) (w : WharfId) (before : SMap Refetch) (p : Packet) (m : BitVec 512) (slot : Nat)
    (banks : List Nat) : (s.noteLanding before p m slot banks).atWharf w = s.atWharf w := by
  unfold State.noteLanding
  split <;> rfl

theorem landBanks_atWharf (s : State) (w : WharfId) (x : MapSlot) (slot : Nat) (p : Packet) :
    (s.landBanks x slot p).1.atWharf w = s.atWharf w := by
  simp only [State.landBanks, noteLanding_atWharf, storePlaces_atWharf]

@[simp] theorem landTile_atWharf (s : State) (w : WharfId) (n k slot bits : Nat) (old : Bool) :
    (s.landTile w n k slot bits old).atWharf w = s.atWharf w := by
  have hlanded (r j m : Nat) : (s.setLanded r j m).atWharf w = s.atWharf w := rfl
  have hphase (u : State) (x : Phase) : ({ u with phase := x } : State).atWharf w = u.atWharf w := rfl
  simp only [State.landTile, apply_ite (fun u : State => u.atWharf w), postOnce_atWharf, setMapSlot_atWharf, hphase, hlanded, ite_self]

@[simp] theorem newLanding_atWharf (s : State) (w : WharfId) : s.newLanding.atWharf w = s.atWharf w := rfl

/-- A landing at a map keeps the packets at the wharf. -/
theorem landAt_atWharf (s : State) (w : WharfId) (t : Transit) (b : Bind) : (s.landAt w t b).1.atWharf w = s.atWharf w := by
  unfold State.landAt
  dsimp only
  split
  next ten _ =>
    have hland := atWharf_of_still w (landTensor_still s.newLanding ten .write t.packet t.packet.rm.toNat t.packet.satd
      (landPlace (s.mapSlot w b.slot).map t.packet))
    split
    next hres =>
      rw [hres] at hland
      simpa using hland
    next hres =>
      rw [hres] at hland
      split <;> simpa using hland
  next =>
    split <;> simp [landBanks_atWharf]

/-- What a landing leaves of a packet that has one map: nothing to wait for, or the answers of homes outside the package, which the map of
a tensor alone can ask for (R99). -/
theorem landAt_binds (s : State) (w : WharfId) (t : Transit) (b : Bind) (hbinds : t.binds = [b]) :
    (s.landAt w t b).2.binds = [] ∨
      ((s.mapSlot w b.slot).tensor.isSome = true ∧ ∃ n, (s.landAt w t b).2.binds = [⟨b.slot, .home, n⟩]) := by
  have hdone : t.binds.filter (fun x => x.slot != b.slot) = [] := by simp [hbinds]
  unfold State.landAt
  dsimp only
  rw [hdone]
  split
  next ten htensor =>
    split
    · exact .inl rfl
    · split
      · exact .inr ⟨by rw [htensor]; rfl, _, rfl⟩
      · exact .inl rfl
  · exact .inl rfl

theorem landAt_packet (s : State) (w : WharfId) (t : Transit) (b : Bind) :
    (s.landAt w t b).2.packet = t.packet ∧ (s.landAt w t b).2.unbound = t.unbound := by
  unfold State.landAt
  dsimp only
  split
  · split
    · exact ⟨rfl, rfl⟩
    · split <;> exact ⟨rfl, rfl⟩
  · exact ⟨rfl, rfl⟩

/-! Answers and drops. -/

/-- The packets of a wharf, whatever is noted of them. -/
def State.packets (s : State) (w : WharfId) : List Packet := (s.wharf w).transit.map (fun x => x.packet)

theorem packets_of_still {s t : State} (w : WharfId) (h : t.still = s.still) : t.packets w = s.packets w := by
  obtain ⟨-, -, -, hwharves⟩ := still_fields h
  simp only [State.packets, State.wharf, hwharves]

theorem atWharf_of_no_packets {s t : State} {w : WharfId} (hsc : t.sc = s.sc) (hseqs : t.seqs = s.seqs)
    (hpackets : t.packets w = s.packets w) (hempty : (s.wharf w).transit = []) : t.atWharf w = s.atWharf w := by
  have hnone : (t.wharf w).transit = [] := by simpa [State.packets, hempty] using hpackets
  simp only [State.atWharf, hsc, hseqs, hempty, hnone]

/-- A change of one entry of a list that a function does not see. -/
theorem map_modify_of_unseen {α β : Type} {f : α → β} {g : α → α} (h : ∀ a, f (g a) = f a) (l : List α) (i : Nat) :
    (l.modify i g).map f = l.map f := by
  refine List.ext_getElem? (fun j => ?_)
  rw [List.getElem?_map, List.getElem?_map, List.getElem?_modify]
  cases l[j]? with
  | none => rfl
  | some a => by_cases hij : i = j <;> simp [hij, h]

theorem forgetEvents_keeps (s : State) (w : WharfId) (t : Transit) :
    (s.forgetEvents w t).sc = s.sc ∧ (s.forgetEvents w t).seqs = s.seqs ∧ (s.forgetEvents w t).scr = s.scr ∧
      (s.forgetEvents w t).packets w = s.packets w := by
  unfold State.forgetEvents
  dsimp only
  split
  · exact ⟨rfl, rfl, rfl, rfl⟩
  · split
    · refine ⟨rfl, rfl, rfl, ?_⟩
      simp only [State.packets, wharf_setWharf]
      exact map_modify_of_unseen (g := fun u : Transit => { u with last := true }) (fun _ => rfl) _ _
    · exact ⟨rfl, rfl, rfl, by simp [State.packets]⟩

/-- A drop leaves the core, and the other packets of the wharf. -/
theorem dropPacket_keeps (s : State) (w : WharfId) (t : Transit) (why : Unlanded) :
    (s.dropPacket w t why).1.sc = s.sc ∧ (s.dropPacket w t why).1.seqs = s.seqs ∧ (s.dropPacket w t why).1.scr = s.scr ∧
      (s.dropPacket w t why).1.packets w = s.packets w := by
  have hstill : ((s.recordDrop w t why).answerPacket t.packet true).still = s.still := by simp
  obtain ⟨hsc, hseqs, hscr, -⟩ := still_fields hstill
  obtain ⟨fsc, fseqs, fscr, fpackets⟩ := forgetEvents_keeps ((s.recordDrop w t why).answerPacket t.packet true) w t
  exact ⟨fsc.trans hsc, fseqs.trans hseqs, fscr.trans hscr, fpackets.trans (packets_of_still w hstill)⟩

/-- A packet that has bound maps and waits at none of them any more is answered, and is gone. -/
theorem settleTransit_answered {s : State} {w : WharfId} {t : Transit} (hunbound : t.unbound = false) (hbinds : t.binds = [])
    (hempty : (s.wharf w).transit = []) :
    (s.settleTransit w t).1.atWharf w = s.atWharf w ∧ (s.settleTransit w t).2 = none := by
  have hstill := answerPacket_still s t.packet (!t.landed)
  obtain ⟨hsc, hseqs, -, -⟩ := still_fields hstill
  obtain ⟨fsc, fseqs, -, fpackets⟩ := forgetEvents_keeps (s.answerPacket t.packet (!t.landed)) w t
  simp only [State.settleTransit, hunbound, hbinds, List.isEmpty_nil, Bool.false_eq_true, ↓reduceIte, and_true]
  exact atWharf_of_no_packets (fsc.trans hsc) (fseqs.trans hseqs) (fpackets.trans (packets_of_still w hstill)) hempty

/-- One that still has a map stays, with its maps. -/
theorem settleTransit_stays {t : Transit} {b : Bind} (s : State) (w : WharfId) (hunbound : t.unbound = false) (hbinds : t.binds = [b]) :
    ∃ y, s.settleTransit w t = (s, some y) ∧ y.packet = t.packet ∧ y.unbound = false ∧ y.binds = [b] := by
  simp only [State.settleTransit, hunbound, hbinds, List.isEmpty_cons, Bool.false_eq_true, ↓reduceIte]
  exact ⟨_, rfl, rfl, rfl, rfl⟩

/-! The packets of a wharf one after another. -/

/-- The state with the packets of a wharf replaced. -/
def State.withPackets (s : State) (w : WharfId) (l : List Transit) : State := s.setWharf w { s.wharf w with transit := l }

@[simp] theorem withPackets_transit (s : State) (w : WharfId) (l : List Transit) : ((s.withPackets w l).wharf w).transit = l := by
  simp [State.withPackets]

@[simp] theorem withPackets_mapSlot (s : State) (w : WharfId) (l : List Transit) (n : Nat) :
    (s.withPackets w l).mapSlot w n = s.mapSlot w n := by
  simp [State.withPackets, State.mapSlot, Wharf.slot]

@[simp] theorem withPackets_changing (s : State) (w : WharfId) (l : List Transit) : (s.withPackets w l).changing = s.changing := rfl

@[simp] theorem withPackets_atWharf (s : State) (w : WharfId) (l : List Transit) : (s.withPackets w l).atWharf w = (s.sc, s.seqs, l) := by
  simp [State.withPackets, State.atWharf]

theorem allTransits_of_empty {s : State} {w : WharfId} (f : State → Transit → State × Option Transit) (h : (s.wharf w).transit = []) :
    s.allTransits w f = s := by
  simp only [State.allTransits, h, List.length_nil, State.eachTransit]

/-- At a wharf with one packet the pass over its packets is one step. -/
theorem allTransits_of_single {s : State} {w : WharfId} {x : Transit} (f : State → Transit → State × Option Transit)
    (h : (s.wharf w).transit = [x]) : s.allTransits w f = s.withTransit w 0 f := by
  simp only [State.allTransits, h, List.length_singleton, State.eachTransit]

theorem withTransit_some {s u : State} {w : WharfId} {x y : Transit} {f : State → Transit → State × Option Transit}
    (h : (s.wharf w).transit = [x]) (hf : f (s.withPackets w []) x = (u, some y)) :
    s.withTransit w 0 f = u.withPackets w ((u.wharf w).transit.insertIdx 0 y) := by
  have hlift : s.setWharf w { s.wharf w with transit := (s.wharf w).transit.eraseIdx 0 } = s.withPackets w [] := by rw [h]; rfl
  have hfirst : (s.wharf w).transit[0]? = some x := by rw [h]; rfl
  simp only [State.withTransit, hfirst, hlift, hf]
  rfl

theorem withTransit_none {s u : State} {w : WharfId} {x : Transit} {f : State → Transit → State × Option Transit}
    (h : (s.wharf w).transit = [x]) (hf : f (s.withPackets w []) x = (u, none)) : s.withTransit w 0 f = u := by
  have hlift : s.setWharf w { s.wharf w with transit := (s.wharf w).transit.eraseIdx 0 } = s.withPackets w [] := by rw [h]; rfl
  have hfirst : (s.wharf w).transit[0]? = some x := by rw [h]; rfl
  simp only [State.withTransit, hfirst, hlift, hf]

/-- A step on the one packet of a wharf that keeps what is at the wharf beside it. -/
theorem withTransit_atWharf {s u : State} {w : WharfId} {x : Transit} {r : Option Transit} {f : State → Transit → State × Option Transit}
    (h : (s.wharf w).transit = [x]) (hf : f (s.withPackets w []) x = (u, r)) (hu : u.atWharf w = (s.withPackets w []).atWharf w) :
    (s.withTransit w 0 f).atWharf w = (s.sc, s.seqs, r.toList) := by
  rw [withPackets_atWharf] at hu
  obtain ⟨hsc, hseqs, htransit⟩ : u.sc = s.sc ∧ u.seqs = s.seqs ∧ (u.wharf w).transit = [] := by simpa [State.atWharf] using hu
  cases r with
  | none => rw [withTransit_none h hf, hu]; rfl
  | some y => rw [withTransit_some h hf, withPackets_atWharf, hsc, hseqs, htransit]; rfl

/-! The events of a wharf. -/

/-- A header of this world that no LIVE map matches waits unbound in the hold (R97, R101, R102). -/
theorem matchPacket_unmatched {s : State} {w : WharfId} {t : Transit} (hworld : w = .core → t.packet.world = s.taskSecure)
    (hnone : ∀ n, n < wharfSlots w → (s.mapSlot w n).st ≠ 1 ∨ mapMatches (s.mapSlot w n).map t.packet = false) (hheld : t.held = false)
    (hroom : t.packet.heldBytes ≤ s.holdFree w) :
    s.matchPacket w t = (s, some { t with held := true, expiry := t.taken + s.holdTime w, unbound := true }) := by
  have hlive : (List.range (wharfSlots w)).filter (fun n => (s.mapSlot w n).st == 1 && mapMatches (s.mapSlot w n).map t.packet) = [] := by
    refine List.filter_eq_nil_iff.mpr (fun n hn => ?_)
    obtain hst | hmatch := hnone n (List.mem_range.mp hn)
    · simp [hst]
    · simp [hmatch]
  have hadmits : (if w = .core then t.packet.world != s.taskSecure else false) = false := by
    split
    next hcore => simp [hworld hcore]
    next => rfl
  have henter : s.enterHold w t = some { t with held := true, expiry := t.taken + s.holdTime w } := by
    simp [State.enterHold, hheld, Nat.not_lt.mpr hroom]
  simp [State.matchPacket, hlive, hadmits, henter]

/-- A header of another world than the core's is dropped. -/
theorem matchPacket_of_other_world {s : State} {t : Transit} (hworld : t.packet.world ≠ s.taskSecure) :
    s.matchPacket .core t = s.dropPacket .core t .world := by
  simp [State.matchPacket, hworld]

theorem landNext_of_empty {s : State} {w : WharfId} (h : (s.wharf w).transit = []) : s.landNext w = s := by
  simp only [State.landNext, allTransits_of_empty _ h, h, List.findIdx?_nil]

/-- A packet whose one map it need not wait for keeps that map. -/
theorem retryBinds_of_ready {t : Transit} {b : Bind} (s : State) (w : WharfId) (hbinds : t.binds = [b]) (hready : b.waits = .no) :
    s.retryBinds w t = (s, t) := by
  obtain ⟨packet, taken, expiry, unbound, binds, held, stayed, landed, last⟩ := t
  cases hbinds
  simp [State.retryBinds, hready]

/-- The landing of a packet at its one map, and what becomes of the packet (R99, R100). -/
theorem landAt_settled {s : State} {w : WharfId} {t : Transit} {b : Bind} (hunbound : t.unbound = false) (hbinds : t.binds = [b])
    (hempty : (s.wharf w).transit = []) :
    ∃ u r, (s.landAt w t b).1.settleTransit w (s.landAt w t b).2 = (u, r) ∧ u.atWharf w = s.atWharf w ∧
      (r = none ∨ ((s.mapSlot w b.slot).tensor.isSome = true ∧
        ∃ y n, r = some y ∧ y.packet = t.packet ∧ y.binds = [⟨b.slot, .home, n⟩])) := by
  have hkeeps := landAt_atWharf s w t b
  have hempty1 : ((s.landAt w t b).1.wharf w).transit = [] := (congrArg (fun x => x.2.2) hkeeps).trans hempty
  obtain ⟨hpacket, hunbound1⟩ := landAt_packet s w t b
  obtain hdone | ⟨htensor, n, hhome⟩ := landAt_binds s w t b hbinds
  · obtain ⟨hsettled, hgone⟩ := settleTransit_answered (hunbound1.trans hunbound) hdone hempty1
    exact ⟨_, none, Prod.ext rfl hgone, hsettled.trans hkeeps, .inl rfl⟩
  · obtain ⟨y, hy, hypacket, -, hybinds⟩ := settleTransit_stays (s.landAt w t b).1 w (hunbound1.trans hunbound) hhome
    exact ⟨_, some y, hy, hkeeps, .inr ⟨htensor, y, n, rfl, hypacket.trans hpacket, hybinds⟩⟩

/-- The one packet of a wharf lands at its one map: it is gone, or waits for the answers of homes outside the package (R99, R100). -/
theorem landNext_of_single {s : State} {w : WharfId} {x : Transit} {b : Bind} (htransit : (s.wharf w).transit = [x])
    (hbinds : x.binds = [b]) (hready : b.waits = .no) (hchanging : s.changing = false) (hunbound : x.unbound = false) :
    ∃ l, (s.landNext w).atWharf w = (s.sc, s.seqs, l) ∧
      (l = [] ∨ ((s.mapSlot w b.slot).tensor.isSome = true ∧
        ∃ y n, l = [y] ∧ y.packet = x.packet ∧ y.binds = [⟨b.slot, .home, n⟩])) := by
  obtain ⟨y, hsettled, hypacket, hyunbound, hybinds⟩ := settleTransit_stays (s.withPackets w []) w hunbound hbinds
  have hpass : s.allTransits w (fun s t => (s.retryBinds w t).1.settleTransit w (s.retryBinds w t).2) =
      (s.withPackets w []).withPackets w [y] := by
    rw [allTransits_of_single _ htransit, withTransit_some htransit (by rw [retryBinds_of_ready _ w hbinds hready]; exact hsettled),
      withPackets_transit]
    rfl
  have hmay (u : State) (h : u.changing = false) : u.mayLand w y.packet b = true := by simp [State.mayLand, hready, h]
  generalize hs1 : (s.withPackets w []).withPackets w [y] = s1 at hpass
  have htransit1 : (s1.wharf w).transit = [y] := by simp [← hs1]
  have hchanging1 : s1.changing = false := by simp [← hs1, hchanging]
  obtain ⟨u, r, hland, hkeeps, hr⟩ := landAt_settled (s := s1.withPackets w []) hyunbound hybinds (withPackets_transit s1 w [])
  have hready1 : (s1.wharf w).transit.findIdx? (fun t => t.binds.any (s1.mayLand w t.packet)) = some 0 := by
    simp [htransit1, hybinds, hmay s1 hchanging1]
  have hmay0 : (s1.withPackets w []).mayLand w y.packet b = true := hmay _ hchanging1
  refine ⟨r.toList, ?_, ?_⟩
  · unfold State.landNext
    dsimp only
    rw [hpass, hready1]
    simp only [apply_ite (fun u : State => u.atWharf w), postOnce_atWharf, ite_self]
    refine (withTransit_atWharf htransit1 ?_ hkeeps).trans (by rw [← hs1]; rfl)
    simp only [hybinds, List.find?_cons, hmay0, hland]
  · obtain rfl | ⟨htensor, z, n, rfl, hzpacket, hzbinds⟩ := hr
    · exact .inl rfl
    · exact .inr ⟨by simpa [← hs1] using htensor, z, n, rfl, hzpacket.trans hypacket, hzbinds⟩

/-- At the end of its hold time the one packet of a wharf, bound to no map, is dropped (R102). -/
theorem expireHold_of_late {s : State} {w : WharfId} {x : Transit} (htransit : (s.wharf w).transit = [x]) (hheld : x.held = true)
    (hunbound : x.unbound = true) (hlate : x.expiry ≤ s.clk.toNat) : (s.expireHold w).atWharf w = (s.sc, s.seqs, []) := by
  have hclk : (s.withPackets w []).clk = s.clk := rfl
  obtain ⟨hsc, hseqs, -, hpackets⟩ := dropPacket_keeps (s.withPackets w []) w x .noMatch
  have hkeeps := atWharf_of_no_packets hsc hseqs hpackets (withPackets_transit s w [])
  unfold State.expireHold
  dsimp only
  rw [allTransits_of_single _ htransit]
  refine withTransit_atWharf (r := none) htransit ?_ hkeeps
  simp [hclk, hheld, hunbound, hlate, State.dropPacket]

/-- Before the end of its hold time the one packet of a wharf stays (R102). -/
theorem expireHold_of_early {s : State} {w : WharfId} {x : Transit} (htransit : (s.wharf w).transit = [x])
    (hearly : s.clk.toNat < x.expiry) : (s.expireHold w).atWharf w = (s.sc, s.seqs, [x]) := by
  have hclk : (s.withPackets w []).clk = s.clk := rfl
  unfold State.expireHold
  dsimp only
  rw [allTransits_of_single _ htransit]
  refine withTransit_atWharf (r := some x) htransit ?_ rfl
  simp [hclk, Nat.not_le.mpr hearly]

/-- An event that completes, seen at a wharf. -/
theorem completes_atWharf {i : Instr} {s u : State} {w : WharfId} {l : List Transit} (hexec : Completes i s u)
    (hu : u.atWharf w = (s.sc, s.seqs, l)) :
    ∃ t, exec i s = .next t ∧ t.last = .done ∧ (t.wharf w).transit = l ∧ t.sc = s.sc ∧ t.seqs = s.seqs := by
  obtain ⟨hsc, hseqs, htransit⟩ : u.sc = s.sc ∧ u.seqs = s.seqs ∧ (u.wharf w).transit = l := by simpa [State.atWharf] using hu
  exact ⟨u.completed, hexec, rfl, htransit, hsc, hseqs⟩

theorem packetHeader_completes_without_packet {s : State} (h : s.input.packet = none) : Completes .packetHeader s s := by
  show execPacketHeader s = _
  rw [execPacketHeader, h]
  rfl

theorem packetHeader_completes {s : State} {p : Packet} (h : s.input.packet = some p) :
    Completes .packetHeader s (s.takeHeader s.input.wharf p) := by
  show execPacketHeader s = _
  rw [execPacketHeader, h]
  rfl

theorem packetBeat_completes (s : State) : Completes .packetBeat s (s.landNext s.input.wharf) := rfl

theorem holdTimeout_completes (s : State) : Completes .holdTimeout s (s.expireHold s.input.wharf) := rfl

/-- A packet as its header is taken into matching. -/
def State.arriving (s : State) (p : Packet) : Transit := ⟨p, s.clk.toNat, 0, false, [], false, 0, false, p.lastp⟩

theorem takeHeader_of_kept {s u : State} {w : WharfId} {p : Packet} {x : Transit} (h : s.matchPacket w (s.arriving p) = (u, some x)) :
    s.takeHeader w p = u.withPackets w ((u.wharf w).transit ++ [x]) := by
  unfold State.arriving at h
  simp only [State.takeHeader, h]
  rfl

theorem takeHeader_of_dropped {s u : State} {w : WharfId} {p : Packet} (h : s.matchPacket w (s.arriving p) = (u, none)) :
    s.takeHeader w p = u := by
  unfold State.arriving at h
  simp only [State.takeHeader, h]

/-- A header that no map matches waits in the hold, behind the packets of the wharf (R101). -/
theorem takeHeader_unmatched {s : State} {w : WharfId} {p : Packet} (hworld : w = .core → p.world = s.taskSecure)
    (hnone : ∀ n, n < wharfSlots w → (s.mapSlot w n).st ≠ 1 ∨ mapMatches (s.mapSlot w n).map p = false)
    (hroom : p.heldBytes ≤ s.holdFree w) :
    (s.takeHeader w p).atWharf w = (s.sc, s.seqs, (s.wharf w).transit ++
      [{ s.arriving p with held := true, expiry := s.clk.toNat + s.holdTime w, unbound := true }]) := by
  rw [takeHeader_of_kept (matchPacket_unmatched (t := s.arriving p) hworld hnone rfl hroom), withPackets_atWharf]
  rfl

/-- A header of another world than the core's leaves nothing at the core (R97). -/
theorem takeHeader_of_other_world {s : State} {p : Packet} (hworld : p.world ≠ s.taskSecure) :
    s.takeHeader .core p = (s.dropPacket .core (s.arriving p) .world).1 :=
  takeHeader_of_dropped (matchPacket_of_other_world (t := s.arriving p) hworld)

/-- Settles O50: each event is one operation of the wharf, `takeHeader`, `landNext` or `expireHold`, and what such an operation does to the
packets at the wharf and leaves of the core is what `State.atWharf` shows of it. -/
theorem wharfEvents : Obligations.WharfEvents := by
  unfold Obligations.WharfEvents
  intro s p
  dsimp only
  refine ⟨packetHeader_completes_without_packet, fun hpacket => ⟨packetHeader_completes hpacket, ?_, ?_⟩, packetBeat_completes s, ?_, ?_,
    holdTimeout_completes s, ?_⟩
  · intro hworld hnone hroom
    obtain ⟨t, hexec, hlast, htransit, hsc, hseqs⟩ :=
      completes_atWharf (packetHeader_completes hpacket) (takeHeader_unmatched hworld hnone hroom)
    exact ⟨t, _, hexec, hlast, htransit, rfl, rfl, rfl, rfl, hsc, hseqs⟩
  · intro hcore hworld
    have htake := takeHeader_of_other_world hworld
    obtain ⟨hsc, hseqs, hscr, hpackets⟩ := dropPacket_keeps s .core (s.arriving p) .world
    rw [hcore]
    rw [← htake] at hsc hseqs hscr hpackets
    exact ⟨(s.takeHeader .core p).completed, hcore ▸ packetHeader_completes hpacket, rfl, hpackets, hsc, hseqs, hscr⟩
  · intro hempty
    have hbeat := packetBeat_completes s
    rwa [landNext_of_empty hempty] at hbeat
  · intro x b htransit hbinds hready hchanging hunbound
    obtain ⟨l, hland, hl⟩ := landNext_of_single htransit hbinds hready hchanging hunbound
    obtain ⟨t, hexec, hlast, hleft, hsc, hseqs⟩ := completes_atWharf (packetBeat_completes s) hland
    subst hleft
    exact ⟨t, hexec, hlast, hl, hsc, hseqs⟩
  · intro x htransit hheld hunbound
    constructor
    · intro hlate
      exact completes_atWharf (holdTimeout_completes s) (expireHold_of_late htransit hheld hunbound hlate)
    · intro hearly
      exact completes_atWharf (holdTimeout_completes s) (expireHold_of_early htransit hearly)

end Sys2Proof.Machine
end

section
/-! PROOF. Fields of a word after another field was put. -/
namespace Sys2Proof.Machine
open Sys2Proof

theorem testBit_fld {n : Nat} (w : BitVec n) (lo len i : Nat) : (fld w lo len).testBit i = (decide (i < len) && w.getLsbD (lo + i)) := by
  simp only [fld, Nat.testBit_mod_two_pow, Nat.testBit_shiftRight, BitVec.getLsbD]

theorem fld_put_same {n : Nat} (w : BitVec n) (lo len v : Nat) (h : lo + len ≤ n) : fld (put w lo len v) lo len = v % 2 ^ len := by
  refine Nat.eq_of_testBit_eq (fun i => ?_)
  rw [testBit_fld, Nat.testBit_mod_two_pow, getLsbD_put _ _ _ _ _ h]
  by_cases hi : i < len <;> simp [hi]

/-- A field beside the one that was put. -/
theorem fld_put_other {n : Nat} (w : BitVec n) {lo len lo' len' : Nat} (v : Nat) (h : lo + len ≤ n)
    (hbeside : lo' + len' ≤ lo ∨ lo + len ≤ lo') : fld (put w lo len v) lo' len' = fld w lo' len' := by
  refine Nat.eq_of_testBit_eq (fun i => ?_)
  rw [testBit_fld, testBit_fld, getLsbD_put _ _ _ _ _ h]
  by_cases hi : i < len'
  · rw [if_neg (by omega)]
  · simp [hi]

/-- A bit beside the field that was put. -/
theorem getLsbD_put_other {n : Nat} (w : BitVec n) {lo len j : Nat} (v : Nat) (h : lo + len ≤ n) (hbeside : j < lo ∨ lo + len ≤ j) :
    (put w lo len v).getLsbD j = w.getLsbD j := by
  rw [getLsbD_put _ _ _ _ _ h, if_neg (by omega)]

theorem fld_mod {n : Nat} (w : BitVec n) (lo : Nat) {len k : Nat} (h : len ≤ k) : fld w lo len % 2 ^ k = fld w lo len :=
  Nat.mod_eq_of_lt (Nat.lt_of_lt_of_le (Nat.mod_lt _ (Nat.two_pow_pos len)) (Nat.pow_le_pow_right (by decide) h))

end Sys2Proof.Machine
end

section
/-! PROOF. Interleave flips and switches of the time-division tables (R113, R119, R120). -/
namespace Sys2Proof.Machine
open Sys2Proof

@[simp] theorem completed_cfgOf (s : State) (a : Nat) : s.completed.cfgOf a = s.cfgOf a := rfl

theorem ilvFlip_of_busy {s : State} (h : (s.cfgOf 0x38).getLsbD 2 = true) : Completes .ilvFlip s s := by
  show occur (s.flip s.input.n) = _
  rw [State.flip, if_pos h]
  rfl

/-- A flip that finds BUSY clear. -/
theorem flip_of_idle {s : State} (n : Nat) (h : (s.cfgOf 0x38).getLsbD 2 = false) :
    (s.flip n).cfgOf 0x38 = putBit (putBit (s.cfgOf 0x38) 0 (!s.ilvCur)) 2 true ∧ (s.flip n).pkg.oldRequests = n ∧
      (s.flip n).mem = s.mem := by
  simp only [State.flip, h, Bool.false_eq_true, ↓reduceIte, setCfg_mem, and_true]
  exact mget_mset_same _ _ _ _

theorem ilvFlip_of_idle {s : State} (h : (s.cfgOf 0x38).getLsbD 2 = false) :
    ∃ t, exec .ilvFlip s = .next t ∧ t.last = .done ∧ t.ilvCur = !s.ilvCur ∧ (t.cfgOf 0x38).getLsbD 2 = true ∧
      t.pkg.oldRequests = s.input.n ∧ t.mem = s.mem := by
  obtain ⟨hctl, hold, hmem⟩ := flip_of_idle s.input.n h
  refine ⟨(s.flip s.input.n).completed, rfl, rfl, ?_, ?_, hold, hmem⟩
  · show ((s.flip s.input.n).cfgOf 0x38).getLsbD 0 = _
    rw [hctl, getLsbD_putBit _ _ _ _ (by decide), if_neg (by decide), getLsbD_putBit _ _ _ _ (by decide), if_pos rfl]
  · rw [completed_cfgOf, hctl, getLsbD_putBit _ _ _ _ (by decide), if_pos rfl]

/-- The state in which no request of an outside agent is bound to the old version. -/
def State.drained (s : State) : State := { s with pkg := { s.pkg with oldRequests := 0 } }

theorem ilvDrained_clears_busy (s : State) :
    ∃ t, exec .ilvDrained s = .next t ∧ t.last = .done ∧ t.ilvCur = s.ilvCur ∧ t.pkg.oldRequests = 0 ∧
      (s.drained.oldOwn = 0 → (t.cfgOf 0x38).getLsbD 2 = false) := by
  by_cases hown : s.drained.oldOwn = 0
  · have hexec : exec .ilvDrained s = .next (s.drained.setCfg 0x38 (putBit (s.cfgOf 0x38) 2 false)).completed := by
      show occur (if s.drained.oldOwn = 0 then s.drained.setCfg 0x38 (putBit (s.drained.cfgOf 0x38) 2 false) else s.drained) = _
      rw [if_pos hown]
      rfl
    refine ⟨_, hexec, rfl, ?_, rfl, fun _ => ?_⟩
    · show ((s.drained.setCfg 0x38 _).cfgOf 0x38).getLsbD 0 = _
      rw [cfgOf_setCfg, if_pos rfl, getLsbD_putBit _ _ _ _ (by decide)]
      rfl
    · rw [completed_cfgOf, cfgOf_setCfg, if_pos rfl, getLsbD_putBit _ _ _ _ (by decide), if_pos rfl]
  · have hexec : exec .ilvDrained s = .next s.drained.completed := by
      show occur (if s.drained.oldOwn = 0 then s.drained.setCfg 0x38 (putBit (s.drained.cfgOf 0x38) 2 false) else s.drained) = _
      rw [if_neg hown]
      rfl
    exact ⟨_, hexec, rfl, rfl, rfl, fun h => absurd h hown⟩

theorem tdmSwitch_not_due {s : State} (h : s.tableDue s.input.die = false) : Completes .tdmSwitch s s := by
  show occur (if s.tableDue s.input.die then s.switchTable s.input.die else s) = _
  simp only [h, Bool.false_eq_true, ↓reduceIte]
  rfl

theorem tdmSwitch_due {s : State} (h : s.tableDue s.input.die = true) : Completes .tdmSwitch s (s.switchTable s.input.die) := by
  show occur (if s.tableDue s.input.die then s.switchTable s.input.die else s) = _
  simp only [h, ↓reduceIte]
  rfl

/-- A switch leaves nothing staged for its die. -/
theorem switchTable_stagedOf (s : State) (d : BitVec 2) : (s.switchTable d).stagedOf d = [] := by
  have hstaged : (s.switchTable d).pkg.staged = s.pkg.staged.filter (fun x => !(s.stagedOf d).contains x) := by
    simp only [State.switchTable]
    rw [foldl_keeps (v := fun t : State => t.pkg.staged) (fun t x => by split <;> rfl)]
  rw [State.stagedOf, hstaged, List.filter_filter, List.filter_eq_nil_iff]
  intro x hx
  simp only [State.stagedOf, Bool.and_eq_true, Bool.not_eq_true', not_and]
  intro hdie
  simp [hx, hdie]

/-- One staged register takes its value. -/
theorem switchTable_cfgOf {s : State} {d : BitVec 2} {a : Nat} {v : Word64} (h : s.stagedOf d = [(a, some v)]) (b : Nat) :
    (s.switchTable d).cfgOf b = if b = a then v else s.cfgOf b := by
  rw [← cfgOf_setCfg]
  simp only [State.switchTable, h, List.foldl_cons, List.foldl_nil]
  rfl

theorem tdmSwitch_of_one {s : State} {a : Nat} {v : Word64} (hdue : s.tableDue s.input.die = true)
    (h : s.stagedOf s.input.die = [(a, some v)]) :
    ∃ t, exec .tdmSwitch s = .next t ∧ t.last = .done ∧ t.cfgOf a = v ∧ (∀ b, b ≠ a → t.cfgOf b = s.cfgOf b) ∧
      t.stagedOf s.input.die = [] := by
  refine ⟨_, tdmSwitch_due hdue, rfl, ?_, fun b hb => ?_, switchTable_stagedOf s s.input.die⟩
  · rw [completed_cfgOf, switchTable_cfgOf h, if_pos rfl]
  · rw [completed_cfgOf, switchTable_cfgOf h, if_neg hb]

end Sys2Proof.Machine
end

section
/-! PROOF. What requests on the fabric leave as it was. -/
namespace Sys2Proof.Machine
open Sys2Proof

/-- Memory, the scalar registers, the layout units and the translation cache. -/
def State.beside (s : State) : Memory × Scalars × SMap LayoutUnit × List TlbEntry := (s.mem, s.sc, s.layout, s.mu.tlb)

@[simp] theorem post_beside (s : State) (e : Instr) (i : Input) : (s.post e i).beside = s.beside := rfl
@[simp] theorem postOnce_beside (s : State) (e : Instr) (i : Input) : (s.postOnce e i).beside = s.beside := by
  simp only [State.beside, postOnce_mem, postOnce_sc, postOnce_layout, postOnce_mu]
@[simp] theorem setFabric_beside (s : State) (l : List FabricReq) : (s.setFabric l).beside = s.beside := rfl

@[simp] theorem sendBound_beside (s : State) (b : Bound) (what : FabricWhat) : (s.sendBound b what).beside = s.beside := by
  unfold State.sendBound
  split <;> rfl

@[simp] theorem rebindStalled_beside (s : State) : s.rebindStalled.beside = s.beside := by
  unfold State.rebindStalled
  exact foldl_keeps (v := State.beside) (fun t f => by split <;> rfl) _ s

@[simp] theorem answered_beside (s : State) (what : FabricWhat) : (s.answered what).beside = s.beside := by
  unfold State.answered
  split
  · rfl
  · rw [State.settle, rebindStalled_beside, setFabric_beside]

@[simp] theorem kick_beside (s : State) : s.kick.beside = s.beside := by
  simp only [State.kick, apply_ite State.beside, postOnce_beside, ite_self]

@[simp] theorem movedNotBefore_beside (s : State) (e new : BitVec 128) : (s.movedNotBefore e new).beside = s.beside := by
  unfold State.movedNotBefore
  split
  · rfl
  next b n t id _ =>
    have hsent := sendBound_beside s (b.moved e new) .word
    dsimp only
    split
    · rfl
    · exact hsent

/-- Forwarding the accesses of a frame leaves memory and the scalar registers, and the leaves that name another frame (R381, R382). -/
theorem forwardFrame_beside (s : State) (e new : BitVec 128) :
    (s.forwardFrame e new).beside = (s.mem, s.sc,
      s.layout.map (fun x => (x.1, { x.2 with leaves := x.2.leaves.filter (fun l => !sameFrame l.leaf e) })),
      s.mu.tlb.filter (fun t => !sameFrame t.leaf e)) := by
  have hhome (l : List StoreRow) (t : State) : (l.foldl (fun t r => t.answered (.store r.id)) t).beside = t.beside :=
    foldl_keeps (v := State.beside) (fun t r => answered_beside t _) l t
  simp only [State.forwardFrame, post_beside, kick_beside, apply_ite State.beside, hhome, movedNotBefore_beside, ite_self]
  rfl

end Sys2Proof.Machine
end

section
/-! PROOF. Moves of pages (R380 to R382): one equation for each way that a move goes on once its leaf has been read. -/
namespace Sys2Proof.Machine
open Sys2Proof

/-- A move whose leaf has been read: MIGCMD, MIGDST, whether the granules of an outside frame have come, the leaf, the moves in its window,
the leaf to write, and whether another agent changed the leaf meanwhile. -/
structure Move where
  cmd : Word64
  dst : Word64
  asked : Bool
  leaf : BitVec 128
  count : Nat
  new : BitVec 128
  lost : Bool

/-- The address of the leaf. -/
def Move.entry (m : Move) : Nat := fld m.cmd 0 35 * 16

/-- A leaf that is present, readable and writable. -/
abbrev leafOpen (e : BitVec 128) : Prop := e.getLsbD 0 = true ∧ e.getLsbD 1 = true ∧ e.getLsbD 2 = true

/-- The move goes to host memory, or its leaf is checked or sealed. -/
abbrev Move.barred (m : Move) : Prop := fld m.dst 40 2 = 2 ∨ leafChk m.leaf = true ∨ leafSeal m.leaf = true

/-- The frame of a leaf lies outside the package, or in a span that is placed. -/
abbrev State.placed (s : State) (l : BitVec 128) : Prop := s.target l ≠ 0 ∨ (s.cellOf s.ilvCur (leafFrame l * 2 ^ 17)).isSome = true

/-- The frame of a move copied to its new home. -/
def State.copied (s : State) (m : Move) : State := s.copyFrame m.leaf m.new s.input.image

/-- The frame is copied, the leaf is written and the accesses are forwarded; the move waits for those that are not performed. -/
def State.moved (s : State) (m : Move) : State :=
  let t := ((s.copied m).writeTable m.entry 16 m.new.toNat).forwardFrame m.leaf m.new
  { t with pkg := { t.pkg with moving := some m.new } }.post .migrationRetire

/-- What becomes of a move whose leaf has been read. -/
def State.moveBy (s : State) (m : Move) : State :=
  if ¬ leafOpen m.leaf then s.moveEnds 3 (some .notMapped)
  else if m.barred then s.moveEnds 3 (some .fieldRange)
  else if m.leaf.getLsbD 10 = true then s.moveEnds 2 none
  else if m.count = 4 then
    (if m.lost = true then s.moveEnds 4 none else (s.writeTable m.entry 16 (putBit m.leaf 10 true).toNat).moveEnds 1 none)
  else if ¬ (s.placed m.leaf ∧ s.placed m.new) then s.moveEnds 3 (some .notMapped)
  else if s.target m.leaf ≠ 0 ∧ m.asked = false then s.askFrame m.cmd m.leaf
  else if m.lost = true then (s.copied m).moveEnds 4 none
  else s.moved m

section
variable {s : State} {m : Move}

theorem moveBy_of_not_open (h : ¬ leafOpen m.leaf) : s.moveBy m = s.moveEnds 3 (some .notMapped) := by
  rw [State.moveBy, if_pos h]

theorem moveBy_of_barred (hopen : leafOpen m.leaf) (h : m.barred) : s.moveBy m = s.moveEnds 3 (some .fieldRange) := by
  rw [State.moveBy, if_neg (not_not_intro hopen), if_pos h]

theorem moveBy_of_pinned (hopen : leafOpen m.leaf) (hbarred : ¬ m.barred) (h : m.leaf.getLsbD 10 = true) :
    s.moveBy m = s.moveEnds 2 none := by
  rw [State.moveBy, if_neg (not_not_intro hopen), if_neg hbarred, if_pos h]

/-- The leaf may move: what is left depends on its count, on the frames and on other agents. -/
theorem moveBy_of_movable (hopen : leafOpen m.leaf) (hbarred : ¬ m.barred) (hpin : m.leaf.getLsbD 10 = false) :
    (m.count = 4 → m.lost = true → s.moveBy m = s.moveEnds 4 none) ∧
    (m.count = 4 → m.lost = false → s.moveBy m = (s.writeTable m.entry 16 (putBit m.leaf 10 true).toNat).moveEnds 1 none) ∧
    (m.count ≠ 4 → ¬ (s.placed m.leaf ∧ s.placed m.new) → s.moveBy m = s.moveEnds 3 (some .notMapped)) := by
  rw [State.moveBy, if_neg (not_not_intro hopen), if_neg hbarred, if_neg (Bool.eq_false_iff.mp hpin)]
  refine ⟨fun hcount hlost => ?_, fun hcount hlost => ?_, fun hcount hplaced => ?_⟩
  · rw [if_pos hcount, if_pos hlost]
  · rw [if_pos hcount, if_neg (Bool.eq_false_iff.mp hlost)]
  · rw [if_neg hcount, if_pos hplaced]

/-- The leaf may move and both frames have a place: the frame is asked for, or copied. -/
theorem moveBy_of_placed (hopen : leafOpen m.leaf) (hbarred : ¬ m.barred) (hpin : m.leaf.getLsbD 10 = false) (hcount : m.count ≠ 4)
    (hold : s.placed m.leaf) (hnew : s.placed m.new) :
    (s.target m.leaf ≠ 0 → m.asked = false → s.moveBy m = s.askFrame m.cmd m.leaf) ∧
    ((s.target m.leaf = 0 ∨ m.asked = true) →
      (m.lost = true → s.moveBy m = (s.copied m).moveEnds 4 none) ∧ (m.lost = false → s.moveBy m = s.moved m)) := by
  rw [State.moveBy, if_neg (not_not_intro hopen), if_neg hbarred, if_neg (Bool.eq_false_iff.mp hpin), if_neg hcount,
    if_neg (not_not_intro ⟨hold, hnew⟩)]
  refine ⟨fun htarget hasked => if_pos ⟨htarget, hasked⟩, fun hcome => ?_⟩
  have hcopy : ¬ (s.target m.leaf ≠ 0 ∧ m.asked = false) := by
    rintro ⟨htarget, hasked⟩
    exact hcome.elim htarget (Bool.eq_false_iff.mp hasked)
  rw [if_neg hcopy]
  exact ⟨fun hlost => if_pos hlost, fun hlost => if_neg (Bool.eq_false_iff.mp hlost)⟩

end

/-! The move of a GO. -/

/-- The granules that a move has asked for have come: the move as it asked. -/
def State.moveAnswer (s : State) : Option (Word64 × Nat × BitVec 128) := if s.input.flag2 then s.pkg.moveAsks else none

/-- The state in which no move waits for granules. -/
def State.unasked (s : State) : State := { s with pkg := { s.pkg with moveAsks := none } }

/-- MIGCMD of a move. -/
def State.moveCmd (s : State) : Word64 := (s.moveAnswer.map (fun x => x.1)).getD s.input.v

/-- MIGDST of a move. -/
def State.moveDst (s : State) : Word64 := if s.moveAnswer = none then s.cfgOf 0x90 else s.running 0x90

/-- The leaf of a move, where memory holds `x`. -/
def State.leafRead (s : State) (x : Nat) : BitVec 128 := (s.moveAnswer.map (fun y => y.2.2)).getD (BitVec.ofNat 128 x)

/-- The stamp of the present (R381). -/
def State.moveStamp (s : State) : Nat := fld s.clk 24 24

/-- The window of a leaf's moves has passed, or holds none (R381). -/
def State.windowOver (s : State) (e : BitVec 128) : Bool :=
  decide (fld e 13 3 = 0 ∨ 3 ≤ (s.moveStamp + 2 ^ 24 - fld e 38 24) % 2 ^ 24)

/-- The move of a GO, where memory holds `x` as its leaf, MIGDST is `dst`, and `fresh` says whether the leaf's window has passed. -/
def State.moveWith (s : State) (x : Nat) (dst : Word64) (fresh : Bool) : Move :=
  let e := s.leafRead x
  let n := if fresh then 0 else fld e 13 3
  { cmd := s.moveCmd, dst := dst, asked := s.moveAnswer.isSome, leaf := e, count := n
    new := movedLeaf e dst (n + 1) (if fresh then s.moveStamp else fld e 38 24)
    lost := s.input.flag || x != e.toNat }

/-- The move of a GO, where memory holds `x` as its leaf. -/
def State.moveOf (s : State) (x : Nat) : Move := s.moveWith x s.moveDst (s.windowOver (s.leafRead x))

theorem moveOf_lost_iff (s : State) (x : Nat) : (s.moveOf x).lost = true ↔ s.input.flag = true ∨ x ≠ (s.leafRead x).toNat := by
  simp [State.moveOf, State.moveWith]

theorem moveDst_eq (s : State) : (if s.moveAnswer.isSome then s.running 0x90 else s.cfgOf 0x90) = s.moveDst := by
  cases h : s.moveAnswer <;> simp [State.moveDst, h]

theorem windowOver_eq (s : State) (e : BitVec 128) :
    (decide (fld e 13 3 = 0) || decide (3 ≤ (s.moveStamp + 2 ^ 24 - fld e 38 24) % 2 ^ 24)) = s.windowOver e :=
  (Bool.decide_or _ _).symm

/-- A move whose leaf cannot be read ends with the cause. -/
theorem migcmdGo_of_unread {s : State} {c : Cause} (h : s.unasked.readTable (fld s.moveCmd 0 35 * 16) 16 = .error c) :
    Completes .migcmdGo s (s.unasked.moveEnds 3 (some c)) := by
  show execMigcmdGo s = _
  unfold execMigcmdGo
  dsimp only
  split
  next d hd => cases h.symm.trans hd; rfl
  next x hx => cases h.symm.trans hx

theorem not_leafOpen_iff (e : BitVec 128) : (!e.getLsbD 0 || !e.getLsbD 1 || !e.getLsbD 2) = true ↔ ¬ leafOpen e := by
  rw [← Bool.not_and, ← Bool.not_and, Bool.not_eq_true', ← Bool.not_eq_true, Bool.and_eq_true, Bool.and_eq_true, and_assoc]

theorem barred_iff (m : Move) : (decide (fld m.dst 40 2 = 2) || leafChk m.leaf || leafSeal m.leaf) = true ↔ m.barred := by
  simp [Move.barred, or_assoc]

theorem placed_iff (s : State) (l : BitVec 128) :
    (s.target l != 0 || (s.cellOf s.ilvCur (leafFrame l * 2 ^ 17)).isSome) = true ↔ s.placed l := by
  simp [State.placed]

theorem not_placed_iff (s : State) (e new : BitVec 128) :
    (!(s.target e != 0 || (s.cellOf s.ilvCur (leafFrame e * 2 ^ 17)).isSome) ||
      !(s.target new != 0 || (s.cellOf s.ilvCur (leafFrame new * 2 ^ 17)).isSome)) = true ↔ ¬ (s.placed e ∧ s.placed new) := by
  rw [← placed_iff, ← placed_iff, ← Bool.not_and, Bool.not_eq_true', ← Bool.and_eq_true, Bool.not_eq_true]

/-- Two choices whose conditions are equivalent and whose branches are equal. -/
theorem ite_eq_of_iff {α : Type} {P Q : Prop} [Decidable P] [Decidable Q] {x y x' y' : α} (h : P ↔ Q) (hx : x = x') (hy : y = y') :
    (if P then x else y) = if Q then x' else y' :=
  ite_congr (propext h) (fun _ => hx) (fun _ => hy)

/-- A move whose leaf can be read. -/
theorem migcmdGo_of_read {s : State} {x : Nat} (h : s.unasked.readTable (fld s.moveCmd 0 35 * 16) 16 = .ok x) :
    Completes .migcmdGo s (s.unasked.moveBy (s.moveOf x)) := by
  rw [State.moveOf, ← moveDst_eq, ← windowOver_eq]
  generalize hm : s.moveWith x _ _ = m
  have hopen := not_leafOpen_iff m.leaf
  have hbarred := barred_iff m
  have hplaced := not_placed_iff s.unasked m.leaf m.new
  have hasks : (s.unasked.target m.leaf != 0 && s.moveAnswer.isNone) = true ↔
      s.unasked.target m.leaf ≠ 0 ∧ s.moveAnswer.isSome = false := by
    rw [Bool.and_eq_true, bne_iff_ne, Option.isNone_iff_eq_none, Option.isSome_eq_false_iff, Option.isNone_iff_eq_none]
  show execMigcmdGo s = _
  unfold execMigcmdGo
  dsimp only
  split
  next c hc => cases h.symm.trans hc
  next y hy =>
    obtain rfl : x = y := Except.ok.inj (h.symm.trans hy)
    rw [State.moveBy]
    subst hm
    exact congrArg occur (ite_eq_of_iff hopen rfl (ite_eq_of_iff hbarred rfl (ite_eq_of_iff Iff.rfl rfl
      (ite_eq_of_iff Iff.rfl rfl (ite_eq_of_iff hplaced rfl (ite_eq_of_iff hasks rfl (ite_eq_of_iff Iff.rfl rfl rfl)))))))

/-! What a move leaves. -/

/-- The leaf that a move writes names the frame, the target, the chip and the key of MIGDST (R381). -/
theorem movedLeaf_names (e : BitVec 128) (dst : Word64) (n st : Nat) :
    leafFrame (movedLeaf e dst n st) = fld dst 0 40 ∧ leafTarget (movedLeaf e dst n st) = fld dst 40 2 ∧
      (leafChip (movedLeaf e dst n st)).toNat = fld dst 42 10 ∧ leafKey (movedLeaf e dst n st) = fld dst 52 10 := by
  have hchip : fld (movedLeaf e dst n st) 18 10 = fld dst 42 10 := by
    simp (disch := omega) only [movedLeaf, fld_put_same, fld_put_other, fld_mod]
  refine ⟨?_, ?_, ?_, ?_⟩
  · simp (disch := omega) only [leafFrame, movedLeaf, fld_put_same, fld_put_other, fld_mod]
  · simp (disch := omega) only [leafTarget, movedLeaf, fld_put_same, fld_put_other, fld_mod]
  · rw [leafChip, BitVec.toNat_ofNat, hchip, fld_mod _ _ (Nat.le_refl _)]
  · simp (disch := omega) only [leafKey, movedLeaf, fld_put_same, fld_put_other, fld_mod]

@[simp] theorem drawBytes_still (s : State) (n : Nat) : (s.drawBytes n).2.still = s.still := by
  induction n generalizing s with
  | zero => rfl
  | succ n ih => exact ih s.draw.2

@[simp] theorem putGranule_still (s : State) (c v : Nat) (g : Granule) : (s.putGranule c v g).still = s.still := rfl

@[simp] theorem granuleFrom_still (s : State) (e : BitVec 128) (image : List (Nat × Bool)) (i : Nat) :
    (s.granuleFrom e image i).2.2.still = s.still := by
  unfold State.granuleFrom
  split
  · split
    · dsimp only
      split
      · rfl
      · exact drawBytes_still s 64
    · rfl
  · rfl

/-- A copy of a frame leaves the scalar registers, the sequencers, the scratchpad and the wharves. -/
@[simp] theorem copyFrame_still (s : State) (e new : BitVec 128) (image : List (Nat × Bool)) :
    (s.copyFrame e new image).still = s.still := by
  rw [State.copyFrame]
  extract_lets
  generalize List.range 2048 = granules
  split
  · refine foldl_keeps (v := State.still) (fun t i => ?_) granules s
    have hfrom := granuleFrom_still t e image i
    split
    next v p u hu =>
      rw [hu] at hfrom
      split
      · exact hfrom
      · exact (putGranule_still _ _ _ _).trans hfrom
  · split
    next l u hu =>
      rw [emit_still, sendBound_still]
      have hlast : u.still = _ := (congrArg (fun p => p.2.still) hu).symm
      refine hlast.trans ?_
      exact List.foldlRecOn (motive := fun p : List (Nat × Granule) × State => p.2.still = s.still) granules _ rfl
        (fun p hp i _ => (granuleFrom_still p.2 e image i).trans hp)

/-- A move that is made: memory takes the leaf, and no cached leaf names the old frame (R381, R382). -/
theorem moved_beside (s : State) (m : Move) :
    ∃ layout tlb, (s.moved m).beside = (((s.copied m).writeTable m.entry 16 m.new.toNat).mem, s.sc, layout, tlb) ∧
      (∀ r ∈ tlb, sameFrame r.leaf m.leaf = false) ∧ (∀ y ∈ layout, ∀ l ∈ y.2.leaves, sameFrame l.leaf m.leaf = false) := by
  have hstill : ((s.copied m).writeTable m.entry 16 m.new.toNat).still = s.still := by simp [State.copied]
  obtain ⟨hsc, -, -, -⟩ := still_fields hstill
  have hforward := forwardFrame_beside ((s.copied m).writeTable m.entry 16 m.new.toNat) m.leaf m.new
  rw [hsc] at hforward
  refine ⟨_, _, hforward, fun r hr => ?_, fun y hy l hl => ?_⟩
  · simpa using (List.mem_filter.mp hr).2
  · obtain ⟨x, -, rfl⟩ := List.mem_map.mp hy
    simpa using (List.mem_filter.mp hl).2

/-- GO of a move that is made. -/
theorem migcmdGo_moved {s u : State} {m : Move} (h : Completes .migcmdGo s (u.moved m)) (hsc : u.sc = s.sc) :
    ∃ t, exec .migcmdGo s = .next t ∧ t.last = .done ∧ t.pkg.moving = some m.new ∧
      t.mem = ((u.copied m).writeTable m.entry 16 m.new.toNat).mem ∧ (∀ r ∈ t.mu.tlb, sameFrame r.leaf m.leaf = false) ∧
      (∀ y ∈ t.layout, ∀ l ∈ y.2.leaves, sameFrame l.leaf m.leaf = false) ∧ Pending.mk .migrationRetire {} ∈ t.agenda ∧
      t.sc = s.sc := by
  obtain ⟨layout, tlb, hbeside, htlb, hlayout⟩ := moved_beside u m
  simp only [State.beside, Prod.mk.injEq] at hbeside
  obtain ⟨hmem, hscalars, rfl, rfl⟩ := hbeside
  exact ⟨_, h, rfl, rfl, hmem, htlb, hlayout, by simp [State.moved, State.post], hscalars.trans hsc⟩

/-! The end of a move. -/

/-- MIGCMD of a move that has ended: GO is clear, and RES holds the result (R380). -/
theorem moveEnds_cfgOf (s : State) (result : Nat) (c : Option Cause) (h : result < 8) :
    ((s.moveEnds result c).cfgOf 0x88).getLsbD 63 = false ∧ fld ((s.moveEnds result c).cfgOf 0x88) 60 3 = result := by
  rw [State.moveEnds, cfgOf_setCfg, if_pos rfl]
  constructor
  · rw [getLsbD_put_other _ _ (by decide) (by decide), getLsbD_put_other _ _ (by decide) (by decide), getLsbD_putBit _ _ _ _ (by decide),
      if_pos rfl]
  · rw [fld_put_other _ _ (by decide) (by decide), fld_put_same _ _ _ _ (by decide)]
    exact Nat.mod_eq_of_lt h

/-- The state in which no move waits for accesses of its old frame. -/
def State.unmoved (s : State) : State := { s with pkg := { s.pkg with moving := none } }

theorem migrationRetire_of_none {s : State} (h : s.pkg.moving = none) : Completes .migrationRetire s s := by
  show execMigrationRetire s = _
  rw [execMigrationRetire, h]
  rfl

theorem migrationRetire_of_some {s : State} {l : BitVec 128} (h : s.pkg.moving = some l) :
    Completes .migrationRetire s (if s.moveBusy l then s else s.unmoved.moveEnds 0 none) := by
  show execMigrationRetire s = _
  rw [execMigrationRetire, h]
  rfl

theorem migrationRetire_of_busy {s : State} {l : BitVec 128} (h : s.pkg.moving = some l) (hbusy : s.moveBusy l = true) :
    Completes .migrationRetire s s := by
  have hretire := migrationRetire_of_some h
  rwa [if_pos hbusy] at hretire

theorem migrationRetire_of_idle {s : State} {l : BitVec 128} (h : s.pkg.moving = some l) (hidle : s.moveBusy l = false) :
    ∃ t, exec .migrationRetire s = .next t ∧ t.last = .done ∧ t.pkg.moving = none ∧ (t.cfgOf 0x88).getLsbD 63 = false ∧
      fld (t.cfgOf 0x88) 60 3 = 0 ∧ t.mem = s.mem := by
  have hretire := migrationRetire_of_some h
  rw [if_neg (Bool.eq_false_iff.mp hidle)] at hretire
  obtain ⟨hgo, hresult⟩ := moveEnds_cfgOf s.unmoved 0 none (by decide)
  exact ⟨_, hretire, rfl, rfl, hgo, hresult, rfl⟩

end Sys2Proof.Machine
end

section
/-! PROOF. Checkpoints (R384). -/
namespace Sys2Proof.Machine
open Sys2Proof

/-- The writes of a checkpoint's regions, each with its place. -/
def State.sendRegions (s : State) (mode dst size : Nat) (l : List (Nat × Nat)) : State :=
  l.foldl (fun s x => s.sendRegion mode dst size x.1 x.2) s

theorem sendRegions_beside (s : State) (mode dst size : Nat) (l : List (Nat × Nat)) :
    (s.sendRegions mode dst size l).beside = s.beside :=
  foldl_keeps (v := State.beside) (f := fun s (x : Nat × Nat) => s.sendRegion mode dst size x.1 x.2) (fun _ _ => rfl) l s

/-- Each region is one request. -/
theorem sendRegions_fabric (s : State) (mode dst size : Nat) (l : List (Nat × Nat)) :
    (s.sendRegions mode dst size l).pkg.fabric.length = s.pkg.fabric.length + l.length := by
  induction l generalizing s with
  | nil => rfl
  | cons x l ih =>
    have hone : (s.sendRegion mode dst size x.1 x.2).pkg.fabric.length = s.pkg.fabric.length + 1 := List.length_append
    rw [State.sendRegions, List.foldl_cons]
    refine (ih _).trans ?_
    rw [hone, List.length_cons]
    omega

/-- The writes of a checkpoint, where a group carries it. -/
def State.checkpointSent (s : State) : State :=
  let mode := fld (s.running 0x98) 54 2
  if s.checkpointGroups.isEmpty then s
  else s.sendRegions mode (fld (s.cfgOf 0xA8) 0 (if mode = 0 then 32 else 16)) (if mode = 0 then 2097152 else 2101248) s.markedRegions.zipIdx

theorem checkpointSent_beside (s : State) : s.checkpointSent.beside = s.beside := by
  simp only [State.checkpointSent, apply_ite State.beside, sendRegions_beside, ite_self]

theorem checkpointSent_fabric {s : State} (h : s.checkpointGroups ≠ []) :
    s.checkpointSent.pkg.fabric.length = s.pkg.fabric.length + s.markedRegions.length := by
  simp only [State.checkpointSent, List.isEmpty_iff, h, ↓reduceIte, sendRegions_fabric, List.length_zipIdx]

/-- The state in which no write of a checkpoint has been refused. -/
def State.unrefused (s : State) : State := { s with pkg := { s.pkg with ckRefused := none } }

theorem ckctlGo_completes (s : State) : Completes .ckctlGo s (s.checkpointSent.unrefused.post .checkpointEnd) := by
  show execCkctlGo s = _
  unfold execCkctlGo State.checkpointSent State.sendRegions
  generalize s.markedRegions.zipIdx = regions
  rfl

/-- GO of a checkpoint sends the marked regions where a group carries it. -/
theorem ckctlGo_sends (s : State) :
    ∃ t, exec .ckctlGo s = .next t ∧ t.last = .done ∧ t.mem = s.mem ∧ t.sc = s.sc ∧ Pending.mk .checkpointEnd {} ∈ t.agenda ∧
      t.pkg.ckRefused = none ∧ (s.checkpointGroups ≠ [] → t.pkg.fabric.length = s.pkg.fabric.length + s.markedRegions.length) := by
  have hbeside := checkpointSent_beside s
  simp only [State.beside, Prod.mk.injEq] at hbeside
  obtain ⟨hmem, hsc, -, -⟩ := hbeside
  exact ⟨_, ckctlGo_completes s, rfl, hmem, hsc, by simp [State.post], rfl, checkpointSent_fabric⟩

/-- The cause of a checkpoint that is short. -/
def State.checkpointShort (s : State) : Option Cause := if s.checkpointGroups = [] then some .windowClosed else s.pkg.ckRefused

/-- CKCTL of a checkpoint that has ended: GO is clear, SHORT is set where there is a cause, and the cause stands beside it. -/
def State.checkpointWord (s : State) : Word64 :=
  put (putBit (putBit (s.cfgOf 0x98) 63 false) 62 s.checkpointShort.isSome) 56 6 ((s.checkpointShort.map (fun c => c.code.toNat)).getD 0)

theorem checkpointWord_fields (s : State) :
    s.checkpointWord.getLsbD 63 = false ∧ s.checkpointWord.getLsbD 62 = s.checkpointShort.isSome ∧
      fld s.checkpointWord 56 6 = (s.checkpointShort.map (fun c => c.code.toNat)).getD 0 := by
  refine ⟨?_, ?_, ?_⟩
  · rw [State.checkpointWord, getLsbD_put_other _ _ (by decide) (by decide), getLsbD_putBit _ _ _ _ (by decide), if_neg (by decide),
      getLsbD_putBit _ _ _ _ (by decide), if_pos rfl]
  · rw [State.checkpointWord, getLsbD_put_other _ _ (by decide) (by decide), getLsbD_putBit _ _ _ _ (by decide), if_pos rfl]
  · rw [State.checkpointWord, fld_put_same _ _ _ _ (by decide)]
    cases s.checkpointShort with
    | none => rfl
    | some c => exact Nat.mod_eq_of_lt c.code.isLt

/-- Groups carry the checkpoint, and a write of it is not answered. -/
def State.checkpointBusy (s : State) : Prop := s.checkpointGroups ≠ [] ∧ s.pkg.fabric.any (fun f => f.what == .image) = true

theorem checkpointBusy_iff (s : State) :
    (!s.checkpointGroups.isEmpty && s.pkg.fabric.any (fun f => f.what == .image)) = true ↔ s.checkpointBusy := by
  rw [Bool.and_eq_true, Bool.not_eq_true', List.isEmpty_eq_false_iff]
  rfl

theorem checkpointEnd_of_busy {s : State} (h : s.checkpointBusy) : Completes .checkpointEnd s (s.post .checkpointEnd) := by
  show execCheckpointEnd s = _
  simp only [execCheckpointEnd, (checkpointBusy_iff s).mpr h, ↓reduceIte]
  rfl

theorem checkpointEnd_of_answered {s : State} (h : ¬ s.checkpointBusy) : Completes .checkpointEnd s (s.setCfg 0x98 s.checkpointWord) := by
  have hidle := Bool.eq_false_iff.mpr (mt (checkpointBusy_iff s).mp h)
  show execCheckpointEnd s = _
  simp only [execCheckpointEnd, hidle, Bool.false_eq_true, ↓reduceIte, List.isEmpty_iff]
  rfl

/-- A checkpoint that ends clears GO, and shows whether and why it is short. -/
theorem checkpointEnd_ends {s : State} (h : ¬ s.checkpointBusy) :
    ∃ t, exec .checkpointEnd s = .next t ∧ t.last = .done ∧ (t.cfgOf 0x98).getLsbD 63 = false ∧
      ((t.cfgOf 0x98).getLsbD 62 = s.checkpointShort.isSome ∧
        fld (t.cfgOf 0x98) 56 6 = (s.checkpointShort.map (fun c => c.code.toNat)).getD 0) ∧ t.mem = s.mem := by
  have hword : (s.setCfg 0x98 s.checkpointWord).completed.cfgOf 0x98 = s.checkpointWord := by
    rw [completed_cfgOf, cfgOf_setCfg, if_pos rfl]
  obtain ⟨hgo, hshort, hcause⟩ := checkpointWord_fields s
  rw [← hword] at hgo hshort hcause
  exact ⟨_, checkpointEnd_of_answered h, rfl, hgo, ⟨hshort, hcause⟩, rfl⟩

end Sys2Proof.Machine
end

section
/-! PROOF. TableAndPageEvents (O57). -/
namespace Sys2Proof.Machine
open Sys2Proof

theorem completes_of_eq {i : Instr} {s t u : State} (h : Completes i s t) (heq : t = u) : Completes i s u := heq ▸ h

/-- Settles O57: a move is `State.moveBy` of the move that its GO reads, case by case; the other events are their operations. -/
theorem tableAndPageEvents : Obligations.TableAndPageEvents := by
  unfold Obligations.TableAndPageEvents
  intro s
  refine ⟨ilvFlip_of_busy, ilvFlip_of_idle, ilvDrained_clears_busy s, tdmSwitch_not_due, fun hdue _ _ hone => tdmSwitch_of_one hdue hone,
    ⟨fun _ hread => migcmdGo_of_unread hread, fun x hread => ?_⟩, migrationRetire_of_none,
    fun _ hmoving => ⟨migrationRetire_of_busy hmoving, migrationRetire_of_idle hmoving⟩, ckctlGo_sends s, checkpointEnd_of_busy,
    checkpointEnd_ends⟩
  have hmove := migcmdGo_of_read hread
  have hasked : (s.moveOf x).asked = true ↔ s.moveAnswer ≠ none := Option.isSome_iff_ne_none
  have hlost := moveOf_lost_iff s x
  refine ⟨movedLeaf_names _ _ _ _, fun hleaf => ?_, fun hleaf hbarred => ?_, fun hleaf hbarred hpin => ?_, fun hleaf hbarred hpin => ?_⟩
  · exact completes_of_eq hmove (moveBy_of_not_open hleaf)
  · exact completes_of_eq hmove (moveBy_of_barred hleaf hbarred)
  · exact completes_of_eq hmove (moveBy_of_pinned hleaf hbarred hpin)
  · obtain ⟨hfourthLost, hfourth, hunplaced⟩ := moveBy_of_movable (s := s.unasked) (m := s.moveOf x) hleaf hbarred hpin
    have hplaced := moveBy_of_placed (s := s.unasked) (m := s.moveOf x) hleaf hbarred hpin
    refine ⟨fun hcount h => ?_, fun hcount h => ?_, fun hcount h => ?_, fun hcount hold hnew htarget h => ?_,
      fun hcount hold hnew h => ?_⟩
    · exact completes_of_eq hmove (hfourthLost hcount (hlost.mpr h))
    · exact completes_of_eq hmove (hfourth hcount (Bool.eq_false_iff.mpr (mt hlost.mp h)))
    · exact completes_of_eq hmove (hunplaced hcount h)
    · obtain ⟨hask, -⟩ := hplaced hcount hold hnew
      exact completes_of_eq hmove (hask htarget (Bool.eq_false_iff.mpr (fun hcome => hasked.mp hcome h)))
    · obtain ⟨-, hcopy⟩ := hplaced hcount hold hnew
      obtain ⟨hlate, hmade⟩ := hcopy (h.imp_right hasked.mpr)
      refine ⟨fun h => completes_of_eq hmove (hlate (hlost.mpr h)), fun h => ?_⟩
      exact migcmdGo_moved (completes_of_eq hmove (hmade (Bool.eq_false_iff.mpr (mt hlost.mp h)))) rfl

end Sys2Proof.Machine
end

section
/-! PROOF. What makes events due and does nothing else: `Posts s t` says that `t` is `s` with events added to those due. -/
namespace Sys2Proof.Machine
open Sys2Proof

/-- `t` is `s` with events due after those already due. -/
def Posts (s t : State) : Prop := ∃ l, t = { s with agenda := s.agenda ++ l }

theorem posts_refl (s : State) : Posts s s := ⟨[], by rw [List.append_nil]⟩

theorem posts_trans {s t u : State} : Posts s t → Posts t u → Posts s u := by
  rintro ⟨l, rfl⟩ ⟨l', rfl⟩
  exact ⟨l ++ l', by rw [← List.append_assoc]⟩

theorem posts_postOnce (s : State) (e : Instr) (i : Input) : Posts s (s.postOnce e i) := by
  unfold State.postOnce
  split
  · exact posts_refl s
  · exact ⟨[⟨e, i⟩], rfl⟩

theorem posts_ite {s t u : State} {p : Prop} [Decidable p] (ht : Posts s t) (hu : Posts s u) : Posts s (if p then t else u) := by
  split
  · exact ht
  · exact hu

theorem posts_postIf {s t : State} (h : Posts s t) (b : Bool) (e : Instr) (i : Input) : Posts s (t.postIf b e i) :=
  posts_trans h (posts_ite (posts_postOnce t e i) (posts_refl t))

theorem posts_foldl {α : Type} {f : State → α → State} (hf : ∀ s x, Posts s (f s x)) (l : List α) {s t : State} (h : Posts s t) :
    Posts s (l.foldl f t) :=
  List.foldlRecOn (motive := Posts s) l f h (fun u hu x _ => posts_trans hu (hf u x))

theorem posts_kick (s : State) : Posts s s.kick := by
  have hput (b : Bool) (e : Instr) {t : State} (h : Posts s t) : Posts s (if b then t.postOnce e else t) :=
    posts_ite (posts_trans h (posts_postOnce t e {})) h
  exact hput _ _ (hput _ _ (hput _ _ (posts_refl s)))

/-- An event posted where its condition holds is due. -/
theorem mem_agenda_postIf (s : State) {b : Bool} (e : Instr) (i : Input) (h : b = true) : ⟨e, i⟩ ∈ (s.postIf b e i).agenda := by
  rw [State.postIf, if_pos h, State.postOnce]
  split
  next hdue => exact List.contains_iff_mem.mp hdue
  · exact List.mem_append_right _ (List.mem_singleton_self _)

/-- What is due stays due. -/
theorem mem_agenda_of_posts {s t : State} {p : Pending} (h : Posts s t) (hp : p ∈ s.agenda) : p ∈ t.agenda := by
  obtain ⟨l, rfl⟩ := h
  exact List.mem_append_left l hp

/-! What time makes due. -/

theorem posts_storesDue (s : State) : Posts s s.storesDue :=
  posts_postIf (posts_postIf (posts_postIf (posts_refl s) _ _ _) _ _ _) _ _ _

theorem posts_dueOnCore (s : State) : Posts s s.dueOnCore := by
  have hcore := posts_postIf (posts_postIf (posts_storesDue s) s.disp.saving.isSome .taskSave {}) (!s.scr.fmtPend.isEmpty) .bankfmtEffect {}
  have hholds := posts_foldl (fun (t : State) w => posts_postIf (posts_refl t) (t.holdDue w) .holdTimeout { wharf := w })
    [WharfId.core, .mem 0, .mem 1, .mem 2, .mem 3] hcore
  exact posts_postIf (posts_postIf (posts_postIf hholds _ _ _) _ _ _) _ _ _

theorem posts_dueInHub (s : State) : Posts s s.dueInHub := by
  have hgroup (t : State) (n : Nat) : Posts t (((t.postIf (t.drainDue n) .groupDrainEnd { n := n }).postIf (t.phaseDue n) .keyPhaseSwitch
      { n := n }).postIf (t.eraseDue n) .oldKeyErase { n := n }) :=
    posts_postIf (posts_postIf (posts_postIf (posts_refl t) _ _ _) _ _ _) _ _ _
  have hheat (t : State) (d : BitVec 2) : Posts t (t.postIf (t.heatLate d) .thermalStop { die := d }) := posts_postIf (posts_refl t) _ _ _
  have hfabric := posts_postIf (posts_postIf (posts_refl s) (s.pkg.fabric.any s.fabricDue) .fabricTimeout {})
    (s.pkg.fabric.any (fun f => f.pool && f.group.isNone && f.sent + 400000 ≤ s.clk.toNat)) .windowStallTimeout {}
  have hdies := posts_foldl hheat [0, 1, 2, 3] (posts_foldl hgroup (List.range 16) hfabric)
  exact posts_postIf (posts_postIf (posts_postIf (posts_postIf (posts_postIf hdies _ _ _) _ _ _) _ _ _) _ _ _) _ _ _

/-- Every sixteenth tick makes a selection round due (R336). -/
theorem selectionRound_due {s : State} (h : s.clk.toNat % 16 = 0) :
    Pending.mk .selectionRound { flag := s.disp.others } ∈ s.dueOnCore.agenda := by
  unfold State.dueOnCore
  exact mem_agenda_postIf _ .selectionRound { flag := s.disp.others } (beq_iff_eq.mpr h)

end Sys2Proof.Machine
end

section
/-! PROOF. What performing stores leaves as it was. -/
namespace Sys2Proof.Machine
open Sys2Proof

/-- The scalar registers, the sequencers, the die, the mark of other cores' requests, and the package. -/
def State.aside (s : State) : Scalars × Seqs × BitVec 2 × Bool × Package := (s.sc, s.seqs, s.die, s.disp.others, s.pkg)

@[simp] theorem setCsr_aside (s : State) (n : Nat) (v : Word64) : (s.setCsr n v).aside = s.aside := rfl
@[simp] theorem setGranule_aside (s : State) (c : Nat) (g : Granule) : (s.setGranule c g).aside = s.aside := rfl
@[simp] theorem tagDone_aside (s : State) (t : Nat) : (s.tagDone t).aside = s.aside := rfl
@[simp] theorem removeRow_aside (s : State) (r : StoreRow) : (s.removeRow r).aside = s.aside := rfl

@[simp] theorem takeGranule_aside (s : State) (c : Nat) (o : BitVec 10 × BitVec 6) : (s.takeGranule c o).aside = s.aside := by
  unfold State.takeGranule
  dsimp only
  rw [setGranule_aside]
  split
  · simp only [State.aside]
  · split
    · rfl
    · exact foldl_keeps (v := State.aside) (fun t i => by simp only [State.aside]) _ s

@[simp] theorem writeCell_aside (s : State) (c n v : Nat) (o : BitVec 10 × BitVec 6) : (s.writeCell c n v o).aside = s.aside := by
  have htaken := takeGranule_aside (s.dropLine (c / 64)) c o
  unfold State.writeCell
  dsimp only
  split
  · exact htaken
  · exact htaken

@[simp] theorem framePut_aside (s : State) (key pa n v : Nat) : (s.framePut key pa n v).aside = s.aside := by
  unfold State.framePut
  split
  · rfl
  · exact writeCell_aside s _ _ _ _

@[simp] theorem setTaskCsr_aside (s : State) (task n : Nat) (f : Word64 → Word64) : (s.setTaskCsr task n f).aside = s.aside := by
  unfold State.setTaskCsr
  split
  · rfl
  · split
    · rfl
    · exact framePut_aside s _ _ _ _

@[simp] theorem tagDoneOf_aside (s : State) (task t : Nat) : (s.tagDoneOf task t).aside = s.aside := by
  unfold State.tagDoneOf
  split <;> simp

@[simp] theorem refuseStore_aside (s : State) (r : StoreRow) (c : Cause) (tv : Option Word64) : (s.refuseStore r c tv).aside = s.aside := by
  have htag (g : BitVec 6) : (s.tagDoneOf r.task g.toNat).aside = s.aside := tagDoneOf_aside s _ _
  unfold State.refuseStore
  generalize r.timed.bind (fun t => t.tag) = tag
  cases tag with
  | none =>
    dsimp only
    split <;> rfl
  | some g =>
    dsimp only
    split
    · exact htag g
    · exact htag g

@[simp] theorem poisonAt_aside (s : State) (b : Bound) : (s.poisonAt b).aside = s.aside := by
  unfold State.poisonAt
  split <;> rfl

theorem writeHome_aside {s t : State} {b : Bound} {pa n v : Nat} (h : s.writeHome b pa n v = .ok t) : t.aside = s.aside := by
  unfold State.writeHome at h
  split at h
  · cases h
  · split at h
    · cases h
    · cases h
      exact writeCell_aside s _ _ _ _

@[simp] theorem performStore_aside (s : State) (r : StoreRow) : (s.performStore r).aside = s.aside := by
  unfold State.performStore
  dsimp only
  generalize (if r.timed.isSome && s.checked r.bound then s.claimRefusal .control (s.granuleOf r.bound) true else none) = race
  cases race with
  | some refused => exact refuseStore_aside s r _ _
  | none =>
    cases hwrite : s.writeHome r.bound r.bound.pa r.size r.data.toNat with
    | error c => exact refuseStore_aside s r c none
    | ok s1 =>
      have hlines : ({ s1 with mu := { s1.mu with lines := s.mu.lines } } : State).aside = s.aside := (writeHome_aside hwrite : s1.aside = _)
      dsimp only
      split
      · rw [tagDoneOf_aside, apply_ite State.aside, poisonAt_aside, ite_self, hlines]
      · rw [apply_ite State.aside, poisonAt_aside, ite_self, hlines]

theorem performDue_aside (n : Nat) (s : State) : (s.performDue n).aside = s.aside := by
  induction n generalizing s with
  | zero => rfl
  | succ n ih =>
    rw [State.performDue]
    split
    · rfl
    · rw [ih, performStore_aside, removeRow_aside]

theorem aside_of_posts {s t : State} (h : Posts s t) : t.aside = s.aside := by
  obtain ⟨l, rfl⟩ := h
  rfl

@[simp] theorem performTimed_aside (s : State) : s.performTimed.aside = s.aside := by
  unfold State.performTimed
  split
  · rfl
  · rw [aside_of_posts (posts_kick _), performDue_aside]

/-- Without stores on their way a tick performs none. -/
theorem performTimed_of_empty {s : State} (h : s.mu.storeQ = []) : s.performTimed = s := by
  have hnone : s.dueStore = none := by rw [State.dueStore, h]; rfl
  rw [State.performTimed, hnone]
  rfl

end Sys2Proof.Machine
end

section
/-! PROOF. Timed stores at their homes and not-before loads (R128 to R134). -/
namespace Sys2Proof.Machine
open Sys2Proof

@[simp] theorem tagEnds_csrOf (s : State) (t : Nat) (done : Bool) (n : Nat) : (s.tagEnds t done).csrOf n = s.csrOf n := rfl

/-- A timed store of the bound task without late-fault that is late: LATE takes it and counts it (R132). -/
theorem late_of_untagged {s : State} {r : StoreRow} {x : Timed} (n : Nat) (hbound : s.isBound r.task = true) (htag : x.tag = none) :
    s.late r x n = s.setCsr 0x12 (lateUpdate (s.csrOf 0x12) x.scope n true) := by
  simp only [State.late, State.setTaskCsr, hbound, htag, ↓reduceIte, Option.isNone_none]

/-- One under late-fault: its tag is set, and LATE and LATEMASK show it (R132). -/
theorem late_of_tagged {s : State} {r : StoreRow} {x : Timed} {g : BitVec 6} (n : Nat) (hbound : s.isBound r.task = true)
    (htag : x.tag = some g) :
    s.late r x n = (((s.setCsr 0x12 (lateUpdate (s.csrOf 0x12) x.scope n false)).tagDone g.toNat).setCsr 0x13
      (putBit (s.csrOf 0x13) g.toNat true)) := by
  have hkept (u : State) (h : u.task = s.task) : u.isBound r.task = true := by rw [State.isBound, h]; exact hbound
  have hmask (u : State) : (u.tagDone g.toNat).csrOf 0x13 = u.csrOf 0x13 := by
    simp only [State.tagDone, csrOf_setCsr]
    rfl
  simp only [State.late, htag, State.setTaskCsr, State.tagDoneOf, hbound, ↓reduceIte, Option.isNone_some,
    hkept (s.setCsr _ _) rfl, hkept ((s.setCsr _ _).tagDone _) rfl, hmask, csrOf_setCsr]
  rfl

theorem late_of_tagged_csrOf {s : State} {r : StoreRow} {x : Timed} {g : BitVec 6} (n : Nat) (hbound : s.isBound r.task = true)
    (htag : x.tag = some g) :
    ((s.late r x n).csrOf 0x13).getLsbD g.toNat = true ∧ (s.late r x n).csrOf 0x12 = lateUpdate (s.csrOf 0x12) x.scope n false ∧
      (s.late r x n).csrOf 0x19 = putBit (s.csrOf 0x19) g.toNat true := by
  rw [late_of_tagged n hbound htag]
  refine ⟨?_, ?_, ?_⟩
  · rw [csrOf_setCsr, if_pos rfl, getLsbD_putBit _ _ _ _ g.isLt, if_pos rfl]
  · simp [State.tagDone, csrOf_setCsr]
  · simp [State.tagDone, csrOf_setCsr]

theorem late_of_tagged_keeps {s : State} {r : StoreRow} {x : Timed} {g : BitVec 6} (n : Nat) (hbound : s.isBound r.task = true)
    (htag : x.tag = some g) : (s.late r x n).mem = s.mem ∧ (s.late r x n).mu = s.mu := by
  simp [late_of_tagged n hbound htag, State.tagDone, State.tagEnds]

/-- The ticks by which a timed store is late at its home. -/
def State.lateBy (s : State) (r : StoreRow) (x : Timed) : Nat := s.homeClk r.bound - x.due.toNat - skew x.scope

/-- The row that arrives next: the oldest timed store on its way that its home takes. -/
def State.arrivingRow (s : State) : Option StoreRow :=
  s.mu.storeQ.find? (fun r => r.place == .sent && r.timed.isSome && s.arrives r.bound)

/-- What becomes of a timed store at its arrival (R128, R130, R132, R134). -/
def State.arrival (s : State) (r : StoreRow) (x : Timed) : State :=
  if x.scope = 2 ∧ s.locked = false then (s.removeRow r).refuseStore r .clockUnlocked none
  else if s.homeClk r.bound ≤ x.due.toNat + skew x.scope then
    if s.homeClk r.bound < x.due.toNat ∨ s.atHome r = false then s.buffer r else (s.removeRow r).performStore r
  else if x.tag.isSome then (s.removeRow r).late r x (s.lateBy r x)
  else if s.atHome r then ((s.late r x (s.lateBy r x)).removeRow r).performStore r else (s.late r x (s.lateBy r x)).buffer r

section
variable {s : State} {r : StoreRow} {x : Timed}

theorem timedStoreArrival_completes (hfirst : s.arrivingRow = some r) (htimed : r.timed = some x) :
    Completes .timedStoreArrival s (s.arrival r x).kick := by
  unfold State.arrivingRow at hfirst
  show execTimedStoreArrival s = _
  rw [execTimedStoreArrival, hfirst]
  dsimp only
  rw [htimed]
  unfold State.arrival
  dsimp only
  simp only [Bool.and_eq_true, decide_eq_true_eq, Bool.or_eq_true, Bool.not_eq_true']
  cases x.tag with
  | none => rfl
  | some g => rfl

theorem arrival_of_unlocked (hscope : x.scope = 2) (hlocked : s.locked = false) :
    s.arrival r x = (s.removeRow r).refuseStore r .clockUnlocked none := if_pos ⟨hscope, hlocked⟩

/-- The home's clock is known: the store is not of pod scope, or the chip is locked to pod time. -/
abbrev State.timeKnown (s : State) (x : Timed) : Prop := x.scope ≠ 2 ∨ s.locked = true

theorem not_unlocked_of_timeKnown (h : s.timeKnown x) : ¬ (x.scope = 2 ∧ s.locked = false) := by
  rintro ⟨hscope, hlocked⟩
  exact h.elim (fun hother => hother hscope) (fun hlock => Bool.noConfusion (hlocked.symm.trans hlock))

theorem arrival_in_time (hknown : s.timeKnown x) (htime : s.homeClk r.bound ≤ x.due.toNat + skew x.scope) :
    s.arrival r x = if s.homeClk r.bound < x.due.toNat ∨ s.atHome r = false then s.buffer r else (s.removeRow r).performStore r :=
  (if_neg (not_unlocked_of_timeKnown hknown)).trans (if_pos htime)

theorem arrival_late (hknown : s.timeKnown x) (hlate : x.due.toNat + skew x.scope < s.homeClk r.bound) :
    s.arrival r x = if x.tag.isSome then (s.removeRow r).late r x (s.lateBy r x)
      else if s.atHome r then ((s.late r x (s.lateBy r x)).removeRow r).performStore r
      else (s.late r x (s.lateBy r x)).buffer r :=
  (if_neg (not_unlocked_of_timeKnown hknown)).trans (if_neg (Nat.not_le.mpr hlate))

theorem arrival_early (hknown : s.timeKnown x) (htime : s.homeClk r.bound ≤ x.due.toNat + skew x.scope)
    (hwaits : s.homeClk r.bound < x.due.toNat ∨ s.atHome r = false) : s.arrival r x = s.buffer r :=
  (arrival_in_time hknown htime).trans (if_pos hwaits)

theorem arrival_due (hknown : s.timeKnown x) (htime : s.homeClk r.bound ≤ x.due.toNat + skew x.scope)
    (hdue : x.due.toNat ≤ s.homeClk r.bound) (hhome : s.atHome r = true) : s.arrival r x = (s.removeRow r).performStore r := by
  refine (arrival_in_time hknown htime).trans (if_neg ?_)
  rw [hhome]
  rintro (hearly | hfalse)
  · exact absurd hearly (Nat.not_lt.mpr hdue)
  · cases hfalse

theorem arrival_late_untagged (hknown : s.timeKnown x) (hlate : x.due.toNat + skew x.scope < s.homeClk r.bound)
    (hbound : s.isBound r.task = true) (htag : x.tag = none) :
    s.arrival r x =
      let late := s.setCsr 0x12 (lateUpdate (s.csrOf 0x12) x.scope (s.lateBy r x) true)
      if s.atHome r then (late.removeRow r).performStore r else late.buffer r := by
  rw [arrival_late hknown hlate, htag, late_of_untagged _ hbound htag]
  rfl

/-- A late store under late-fault is not performed (R132). -/
theorem timedStoreArrival_late_tagged {g : BitVec 6} (hfirst : s.arrivingRow = some r) (htimed : r.timed = some x)
    (hknown : s.timeKnown x) (hlate : x.due.toNat + skew x.scope < s.homeClk r.bound) (hbound : s.isBound r.task = true)
    (htag : x.tag = some g) :
    ∃ t, exec .timedStoreArrival s = .next t ∧ t.last = .done ∧ KeepsMemory s t ∧ t.mem.gran = s.mem.gran ∧
      t.mu.storeQ = s.mu.storeQ.filter (fun y => y.id != r.id) ∧ (t.csrOf 0x13).getLsbD g.toNat = true ∧
      t.csrOf 0x12 = lateUpdate (s.csrOf 0x12) x.scope (s.lateBy r x) false ∧
      t.csrOf 0x19 = putBit (s.csrOf 0x19) g.toNat true := by
  have hexec := timedStoreArrival_completes hfirst htimed
  rw [arrival_late hknown hlate, htag, Option.isSome_some, if_pos rfl] at hexec
  have hbound1 : (s.removeRow r).isBound r.task = true := hbound
  have hcsrs := late_of_tagged_csrOf (s.lateBy r x) hbound1 htag
  obtain ⟨hmem, hmu⟩ := late_of_tagged_keeps (s.lateBy r x) hbound1 htag
  generalize (s.removeRow r).late r x (s.lateBy r x) = u at hexec hcsrs hmem hmu
  obtain ⟨l, hkick⟩ := posts_kick u
  rw [hkick] at hexec
  refine ⟨_, hexec, rfl, fun c => ?_, ?_, ?_, hcsrs⟩
  · show mget u.mem.bytes 0 c = _
    rw [hmem]
    rfl
  · show u.mem.gran = _
    rw [hmem]
    rfl
  · show u.mu.storeQ = _
    rw [hmu]
    rfl

end

theorem buffer_storeQ (s : State) (r : StoreRow) :
    (s.buffer r).mu.storeQ = s.mu.storeQ.filter (fun y => y.id != r.id) ++ [{ r with place := .timedBuffer }] := rfl

/-! The timed buffers. -/

theorem timedStoreDue_of_none {s : State} (h : s.dueStore = none) : Completes .timedStoreDue s s := by
  show execTimedStoreDue s = _
  rw [execTimedStoreDue, h]
  rfl

theorem timedStoreDue_of_some {s : State} {r : StoreRow} (h : s.dueStore = some r) :
    Completes .timedStoreDue s (s.performDue s.mu.storeQ.length).kick := by
  show execTimedStoreDue s = _
  rw [execTimedStoreDue, h]
  rfl

/-- The store that a buffer performs next lies in the buffer, is due, and waits behind nothing (R130). -/
theorem dueStore_some {s : State} {r : StoreRow} {x : Timed} (h : s.dueStore = some r) (htimed : r.timed = some x) :
    r.place = .timedBuffer ∧ x.due.toNat ≤ s.homeClk r.bound ∧ s.atHome r = true := by
  have hfound := List.find?_some h
  rw [htimed, Bool.and_eq_true, Bool.and_eq_true] at hfound
  obtain ⟨⟨hplace, hhome⟩, hdue⟩ := hfound
  exact ⟨beq_iff_eq.mp hplace, of_decide_eq_true hdue, hhome⟩

theorem performDue_succ {s : State} {r : StoreRow} (h : s.dueStore = some r) (k : Nat) :
    s.performDue (k + 1) = ((s.removeRow r).performStore r).performDue k := by
  rw [State.performDue, h]

/-! Not-before loads. -/

/-- The state in which no not-before load waits at its home. -/
def State.notBeforeDone (s : State) : State := { s with mu := { s.mu with notBefore := none } }

theorem answer_of_waiting {s : State} {pc : Addr} {id : Nat} (v : Word64) (c : Option Cause) (h : s.mu.remote = .waiting pc id) :
    s.answer id v c = { s with mu := { s.mu with remote := .answered pc v c } } := by
  rw [State.answer, h]
  exact if_pos rfl

theorem answer_of_other {s : State} {pc : Addr} {id k : Nat} (v : Word64) (c : Option Cause) (h : s.mu.remote = .waiting pc k)
    (hother : k ≠ id) : s.answer id v c = s := by
  rw [State.answer, h]
  exact if_neg hother

/-- What a home answers a not-before load: its value, or its refusal. -/
def State.notBeforeAnswer (s : State) (b : Bound) (n : Nat) : Word64 × Option Cause :=
  match s.loadHome b n false with
  | .ok (v, _) => (BitVec.ofNat 64 v, none)
  | .error (c, tv) => (tv, some c)

/-- A not-before load waits at its home, whose clock has reached its tick, behind no earlier access to the granule (R129, R130). -/
structure State.NotBeforeDue (s : State) (b : Bound) (n : Nat) (due : Word64) (id : Nat) : Prop where
  waits : s.mu.notBefore = some (b, n, due, id)
  due : due.toNat ≤ s.homeClk b
  free : s.pendingBefore s.task.id s.mu.nextId (s.granuleOf b) = false

theorem notBeforePerform_completes {s : State} {b : Bound} {n : Nat} {due : Word64} {id : Nat} (h : s.NotBeforeDue b n due id) :
    Completes .notBeforePerform s (s.notBeforeDone.answer id (s.notBeforeAnswer b n).1 (s.notBeforeAnswer b n).2) := by
  obtain ⟨hwaits, hdue, hfree⟩ := h
  have hticked : decide ((s.clkOf (s.homeDie b.ver b.pa)).toNat < due.toNat) = false := decide_eq_false (Nat.not_lt.mpr hdue)
  show occur s.performNotBefore = _
  rw [State.performNotBefore, hwaits]
  dsimp only
  rw [hticked, hfree, State.notBeforeAnswer]
  cases s.loadHome b n false with
  | ok p => rfl
  | error p => rfl

/-- The answer reaches the control sequencer where that waits for it (R129). -/
theorem notBeforePerform_of_waiting {s : State} {b : Bound} {n : Nat} {due : Word64} {id : Nat} {pc : Addr} (h : s.NotBeforeDue b n due id)
    (hremote : s.mu.remote = .waiting pc id) :
    Completes .notBeforePerform s { s with mu := { s.mu with
      remote := .answered pc (s.notBeforeAnswer b n).1 (s.notBeforeAnswer b n).2, notBefore := none } } := by
  have hperform := notBeforePerform_completes h
  rwa [answer_of_waiting (s := s.notBeforeDone) _ _ hremote] at hperform

/-- It is discarded where the control sequencer waits for another request (R378). -/
theorem notBeforePerform_of_other {s : State} {b : Bound} {n : Nat} {due : Word64} {id k : Nat} {pc : Addr} (h : s.NotBeforeDue b n due id)
    (hremote : s.mu.remote = .waiting pc k) (hother : k ≠ id) : Completes .notBeforePerform s s.notBeforeDone := by
  have hperform := notBeforePerform_completes h
  rwa [answer_of_other (s := s.notBeforeDone) _ _ hremote hother] at hperform

end Sys2Proof.Machine
end

section
/-! PROOF. TimedStoreAtHome (O14). -/
namespace Sys2Proof.Machine
open Sys2Proof

/-- Settles O14: an arrival is `State.arrival`, case by case; the buffers perform `State.dueStore`, and a not-before load whose tick has
come takes `State.notBeforeAnswer`. The statement puts its last clause under the hypotheses of the clause before;
`notBeforePerform_of_other` does not need them. -/
theorem timedStoreAtHome : Obligations.TimedStoreAtHome := by
  unfold Obligations.TimedStoreAtHome
  intro s r x htimed
  refine ⟨fun hfirst => ?_, buffer_storeQ s r, timedStoreDue_of_none, fun hdue => ?_, fun b n due pc id hwaits hremote hdue hfree =>
    ⟨⟨fun v u hload => ?_, fun c tv hload => ?_⟩, fun b n due pc id k hwaits hremote hother hdue hfree =>
      notBeforePerform_of_other ⟨hwaits, hdue, hfree⟩ hremote hother⟩⟩
  · have harrives := timedStoreArrival_completes hfirst htimed
    refine ⟨fun hscope hlocked => ?_, fun hknown => ⟨fun htime => ⟨fun hwaits => ?_, fun hdue hhome => ?_⟩, fun hlate hbound =>
      ⟨fun htag => ?_, fun g htag => timedStoreArrival_late_tagged hfirst htimed hknown hlate hbound htag⟩⟩⟩
    · rwa [arrival_of_unlocked hscope hlocked] at harrives
    · rwa [arrival_early hknown htime hwaits] at harrives
    · rwa [arrival_due hknown htime hdue hhome] at harrives
    · rwa [arrival_late_untagged hknown hlate hbound htag] at harrives
  · obtain ⟨hplace, htick, hhome⟩ := dueStore_some hdue htimed
    exact ⟨hplace, htick, hhome, timedStoreDue_of_some hdue, performDue_succ hdue⟩
  · have hperform := notBeforePerform_of_waiting ⟨hwaits, hdue, hfree⟩ hremote
    rwa [State.notBeforeAnswer, hload] at hperform
  · have hperform := notBeforePerform_of_waiting ⟨hwaits, hdue, hfree⟩ hremote
    rwa [State.notBeforeAnswer, hload] at hperform

end Sys2Proof.Machine
end

section
/-! PROOF. Ticks of the architected clock (R111, R124, R336). -/
namespace Sys2Proof.Machine
open Sys2Proof

/-- The counters of the dies after a tick. -/
def State.counters (s : State) : SMap Word64 :=
  if s.pkg.clkRuns then [0, 1, 2, 3].foldl (fun m d => mset m 0 d (mget m 0 d + 1)) s.pkg.clk else s.pkg.clk

theorem tick_eq (s : State) : s.tick = { s with pkg := { s.pkg with clk := s.counters } } := by
  unfold State.tick State.counters
  split <;> rfl

/-- A die is one of the four. -/
theorem die_cases (d : BitVec 2) : d.toNat = 0 ∨ d.toNat = 1 ∨ d.toNat = 2 ∨ d.toNat = 3 := by
  have hlt := d.isLt
  omega

/-- A tick moves every die's counter by one once the clock runs (R124). -/
theorem mget_counters (s : State) (d : BitVec 2) :
    mget s.counters 0 d.toNat = if s.pkg.clkRuns then s.clkOf d + 1 else s.clkOf d := by
  unfold State.counters State.clkOf
  split
  · obtain hd | hd | hd | hd := die_cases d <;> simp [hd, mget_mset]
  · rfl

/-- `t` is `s` with other configuration registers in force and staged. -/
def Configures (s t : State) : Prop := ∃ cfg staged, t = { s with pkg := { s.pkg with cfg := cfg, staged := staged } }

theorem configures_refl (s : State) : Configures s s := ⟨s.pkg.cfg, s.pkg.staged, rfl⟩

theorem configures_trans {s t u : State} : Configures s t → Configures t u → Configures s u := by
  rintro ⟨cfg, staged, rfl⟩ ⟨cfg', staged', rfl⟩
  exact ⟨cfg', staged', rfl⟩

theorem configures_setCfg (s : State) (a : Nat) (v : Word64) : Configures s (s.setCfg a v) := ⟨_, s.pkg.staged, rfl⟩

theorem configures_switchTable (s : State) (d : BitVec 2) : Configures s (s.switchTable d) := by
  refine configures_trans (List.foldlRecOn (motive := Configures s) (s.stagedOf d) _ (configures_refl s) (fun t ht x _ => ?_)) ⟨_, _, rfl⟩
  split
  · exact configures_trans ht (configures_setCfg t _ _)
  · exact ht

/-- A cycle of the rings is counted, and changes no more than the tables in force (R111, R113). -/
theorem configures_revolve (s : State) : Configures { s with pkg := { s.pkg with cycles := s.pkg.cycles + 1 } } s.revolve := by
  unfold State.revolve
  dsimp only
  split
  · exact configures_refl _
  · refine List.foldlRecOn (motive := Configures _) _ _ (configures_refl _) (fun t ht n _ => ?_)
    split
    · exact configures_trans ht (configures_switchTable t _)
    · exact ht

/-- What a tick does before stores are performed: launches and parked tasks note what has become ready, the counters of the dies move, and
the rings turn. -/
theorem ticked_eq (s : State) : ∃ launches parked cfg staged, s.noteReady.tick.revolve =
    { s with disp := { s.disp with launches := launches, parked := parked }
             pkg := { s.pkg with clk := s.counters, cycles := s.pkg.cycles + 1, cfg := cfg, staged := staged } } := by
  obtain ⟨cfg, staged, hrevolve⟩ := configures_revolve s.noteReady.tick
  rw [hrevolve, tick_eq]
  exact ⟨_, _, cfg, staged, rfl⟩

theorem clockTick_completes (s : State) : Completes .clockTick s s.noteReady.tick.revolve.performTimed.dueOnCore.dueInHub := rfl

/-- A tick (R124, R336): stores are performed and events become due after the counters have moved. -/
theorem clockTick_ticks (s : State) :
    ∃ t, exec .clockTick s = .next t ∧ t.last = .done ∧ (∀ d : BitVec 2, t.clkOf d = if s.pkg.clkRuns then s.clkOf d + 1 else s.clkOf d) ∧
      t.pkg.cycles = s.pkg.cycles + 1 ∧ (t.clk.toNat % 16 = 0 → Pending.mk .selectionRound { flag := s.disp.others } ∈ t.agenda) ∧
      t.sc = s.sc ∧ t.seqs = s.seqs ∧ (s.mu.storeQ = [] → t.mem = s.mem ∧ t.csr = s.csr) := by
  have hexec := clockTick_completes s
  obtain ⟨launches, parked, cfg, staged, hticked⟩ := ticked_eq s
  have haside := performTimed_aside s.noteReady.tick.revolve
  have hempty := performTimed_of_empty (s := s.noteReady.tick.revolve)
  generalize s.noteReady.tick.revolve.performTimed = u at hexec haside hempty
  rw [hticked] at haside hempty
  simp only [State.aside, Prod.mk.injEq] at haside
  obtain ⟨hsc, hseqs, -, hothers, hpkg⟩ := haside
  have hround := selectionRound_due (s := u)
  rw [hothers] at hround
  have hstays : ∀ p ∈ u.dueOnCore.agenda, p ∈ u.dueOnCore.dueInHub.agenda := fun p => mem_agenda_of_posts (posts_dueInHub _)
  obtain ⟨l, hdue⟩ := posts_trans (posts_dueOnCore u) (posts_dueInHub u.dueOnCore)
  have hclk : u.dueOnCore.dueInHub.clk = u.clk := by rw [hdue]; rfl
  refine ⟨_, hexec, rfl, fun d => ?_, ?_, fun hsixteen => hstays _ (hround ?_), ?_, ?_, fun hstores => ?_⟩
  · rw [← mget_counters, hdue]
    show mget u.pkg.clk 0 d.toNat = _
    rw [hpkg]
  · rw [hdue]
    show u.pkg.cycles = _
    rw [hpkg]
  · rw [← hclk]
    exact hsixteen
  · rw [hdue]
    exact hsc
  · rw [hdue]
    exact hseqs
  · rw [hdue, hempty hstores]
    exact ⟨rfl, rfl⟩

end Sys2Proof.Machine
end

section
/-! PROOF. Synchronisation with pod time, and CLKINIT (R126, R402). -/
namespace Sys2Proof.Machine
open Sys2Proof

/-- LOSSES of CLKSTAT after a loss, where the chip was locked. -/
def State.lossesAfter (s : State) : Nat :=
  if s.locked then min (fld (s.cfgOf 0x10) 0 32 + 1) (2 ^ 32 - 1) else fld (s.cfgOf 0x10) 0 32

/-- A loss unlocks the clock and counts, and ends the run of good intervals. -/
theorem lose_unlocks (s : State) : s.lose.locked = false ∧ s.lose.pkg.ptpGood = 0 ∧ fld (s.lose.cfgOf 0x10) 0 32 = s.lossesAfter := by
  unfold State.lose State.lossesAfter
  dsimp only
  split
  next hlocked =>
    refine ⟨?_, rfl, ?_⟩
    · rw [State.locked, cfgOf_setCfg, if_pos rfl, getLsbD_put_other _ _ (by decide) (by decide), getLsbD_putBit _ _ _ _ (by decide), if_pos rfl]
    · have hsmall : min (fld (s.cfgOf 0x10) 0 32 + 1) (2 ^ 32 - 1) < 2 ^ 32 := by omega
      rw [cfgOf_setCfg, if_pos rfl, fld_put_same _ _ _ _ (by decide), Nat.mod_eq_of_lt hsmall, State.locked, if_pos hlocked]
  next hlocked =>
    refine ⟨Bool.eq_false_iff.mpr hlocked, rfl, ?_⟩
    rw [State.locked, if_neg hlocked]
    rfl

theorem lose_keeps (s : State) : s.lose.sc = s.sc ∧ s.lose.mem = s.mem := by
  unfold State.lose
  dsimp only
  split <;> exact ⟨rfl, rfl⟩

theorem lockLoss_completes (s : State) : Completes .lockLoss s s.lose := rfl

/-- The offset of a synchronisation message in CLKSTAT. -/
def State.offsetNoted (s : State) : State :=
  s.setCfg 0x10 (put (s.cfgOf 0x10) 32 16 (max (-32767) (min 32767 s.input.w.toInt) % 2 ^ 16).toNat)

@[simp] theorem offsetNoted_locked (s : State) : s.offsetNoted.locked = s.locked := by
  rw [State.locked, State.offsetNoted, cfgOf_setCfg, if_pos rfl, getLsbD_put_other _ _ (by decide) (by decide), State.locked]

@[simp] theorem offsetNoted_losses (s : State) : fld (s.offsetNoted.cfgOf 0x10) 0 32 = fld (s.cfgOf 0x10) 0 32 := by
  rw [State.offsetNoted, cfgOf_setCfg, if_pos rfl, fld_put_other _ _ (by decide) (by decide)]

theorem offsetNoted_lossesAfter (s : State) : s.offsetNoted.lossesAfter = s.lossesAfter := by
  simp only [State.lossesAfter, offsetNoted_locked, offsetNoted_losses]

/-- An interval ends within the bound: the sixteenth in a row locks the clock (log entry 39). -/
def State.goodInterval (s : State) : State :=
  let t : State := { s with pkg := { s.pkg with ptpGood := min (s.pkg.ptpGood + 1) 16 } }
  if min (s.pkg.ptpGood + 1) 16 = 16 then t.setCfg 0x10 (putBit (s.cfgOf 0x10) 63 true) else t

theorem goodInterval_locks (s : State) :
    fld (s.goodInterval.cfgOf 0x10) 0 32 = fld (s.cfgOf 0x10) 0 32 ∧ s.goodInterval.pkg.ptpGood = min (s.pkg.ptpGood + 1) 16 ∧
      s.goodInterval.locked = (s.locked || decide (15 ≤ s.pkg.ptpGood)) := by
  unfold State.goodInterval
  dsimp only
  split
  next hfull =>
    have hlong : 15 ≤ s.pkg.ptpGood := by omega
    refine ⟨?_, rfl, ?_⟩
    · rw [cfgOf_setCfg, if_pos rfl, putBit, fld_put_other _ _ (by decide) (by decide)]
    · rw [State.locked, cfgOf_setCfg, if_pos rfl, getLsbD_putBit _ _ _ _ (by decide), if_pos rfl, decide_eq_true hlong, Bool.or_true]
  next hshort =>
    have hlong : ¬ 15 ≤ s.pkg.ptpGood := by omega
    refine ⟨rfl, rfl, ?_⟩
    rw [decide_eq_false hlong, Bool.or_false]
    rfl

theorem goodInterval_keeps (s : State) : s.goodInterval.sc = s.sc ∧ s.goodInterval.mem = s.mem := by
  unfold State.goodInterval
  dsimp only
  split <;> exact ⟨rfl, rfl⟩

theorem syncMessage_of_stopped {s : State} (h : s.pkg.clkRuns = false) : Completes .syncMessage s s := by
  show execSyncMessage s = _
  unfold execSyncMessage
  rw [h]
  rfl

/-- What a synchronisation message does to a clock that runs. -/
def State.synchronised (s : State) : State := if 78 < s.input.v.toNat then s.offsetNoted.lose else s.offsetNoted.goodInterval

theorem syncMessage_of_running {s : State} (h : s.pkg.clkRuns = true) : Completes .syncMessage s s.synchronised := by
  show execSyncMessage s = _
  unfold execSyncMessage
  rw [h]
  rfl

theorem synchronised_keeps (s : State) : s.synchronised.sc = s.sc ∧ s.synchronised.mem = s.mem := by
  unfold State.synchronised
  split
  · exact lose_keeps s.offsetNoted
  · exact goodInterval_keeps s.offsetNoted

theorem synchronised_of_far {s : State} (h : 78 < s.input.v.toNat) :
    s.synchronised.locked = false ∧ s.synchronised.pkg.ptpGood = 0 ∧ fld (s.synchronised.cfgOf 0x10) 0 32 = s.lossesAfter := by
  rw [State.synchronised, if_pos h, ← offsetNoted_lossesAfter]
  exact lose_unlocks s.offsetNoted

theorem synchronised_of_near {s : State} (h : s.input.v.toNat ≤ 78) :
    fld (s.synchronised.cfgOf 0x10) 0 32 = fld (s.cfgOf 0x10) 0 32 ∧ s.synchronised.pkg.ptpGood = min (s.pkg.ptpGood + 1) 16 ∧
      s.synchronised.locked = (s.locked || decide (15 ≤ s.pkg.ptpGood)) := by
  have hgood := goodInterval_locks s.offsetNoted
  rw [offsetNoted_losses, offsetNoted_locked] at hgood
  rw [State.synchronised, if_neg (Nat.not_lt.mpr h)]
  exact hgood

theorem clkinitWrite_of_running {s : State} (h : s.pkg.clkRuns = true) : Completes .clkinitWrite s s := by
  show execClkinitWrite s = _
  unfold execClkinitWrite
  rw [h]
  rfl

/-- The first write of CLKINIT starts the counter of every die (R402). -/
theorem clkinitWrite_of_stopped {s : State} (h : s.pkg.clkRuns = false) :
    ∃ t, exec .clkinitWrite s = .next t ∧ t.last = .done ∧ t.pkg.clkRuns = true ∧ ∀ d : BitVec 2, t.clkOf d = s.input.v := by
  have hexec : exec .clkinitWrite s = execClkinitWrite s := rfl
  unfold execClkinitWrite at hexec
  rw [h] at hexec
  refine ⟨_, hexec, rfl, rfl, fun d => ?_⟩
  show mget ([0, 1, 2, 3].foldl (fun m d => mset m 0 d s.input.v) s.pkg.clk) 0 d.toNat = _
  obtain hd | hd | hd | hd := die_cases d <;> simp [hd, mget_mset]

end Sys2Proof.Machine
end

section
/-! PROOF. Resets and the loss of power (R397, R400, R403, R407). -/
namespace Sys2Proof.Machine
open Sys2Proof

/-- `t` is in the reset state, with the fuses of `s`. -/
def FreshFrom (s t : State) : Prop :=
  t.mem = State.reset.mem ∧ t.sc = State.reset.sc ∧ t.csr = [] ∧ t.seqs = State.reset.seqs ∧ t.task.bound = false ∧
    t.pkg.cfg = [] ∧ t.pkg.clk = [] ∧ t.pkg.clkRuns = false ∧ t.pkg.stopped = false ∧ t.pkg.regions = [] ∧ t.pkg.fused = s.pkg.fused ∧
    t.pkg.upper = s.pkg.upper

theorem restart_fresh (s : State) (f : Firmware) (want : Word64) : FreshFrom s (s.restart f want).completed :=
  ⟨rfl, rfl, rfl, rfl, rfl, rfl, rfl, rfl, rfl, rfl, rfl, rfl⟩

/-- A reset never takes the security counter back (R397). -/
theorem restart_secVersion (s : State) (f : Firmware) (want : Word64) : s.pkg.secVersion.toNat ≤ (s.restart f want).pkg.secVersion.toNat := by
  show _ ≤ (if s.accepts f && s.pkg.secVersion.toNat < want.toNat then want else s.pkg.secVersion).toNat
  split
  next hadvance =>
    rw [Bool.and_eq_true] at hadvance
    exact Nat.le_of_lt (of_decide_eq_true hadvance.2)
  · exact Nat.le_refl _

theorem reset_completes (s : State) :
    Completes .reset s (s.restart ⟨BitVec.ofNat 512 s.input.data, s.input.v, !s.input.flag⟩ s.input.w) := rfl

theorem pkgrstWrite_of_reset {s : State} (hbit : s.input.v.getLsbD 63 = true) (hcode : fld s.input.v 0 8 = 0xA5) (hpower : s.pkg.powered = true) :
    Completes .pkgrstWrite s (s.restart s.pkg.image s.input.w) := by
  show execPkgrstWrite s = _
  rw [execPkgrstWrite, hbit, hcode, hpower]
  rfl

theorem pkgrstWrite_of_other {s : State} (h : s.input.v.getLsbD 63 = false ∨ fld s.input.v 0 8 ≠ 0xA5 ∨ s.pkg.powered = false) :
    Completes .pkgrstWrite s s := by
  show execPkgrstWrite s = _
  unfold execPkgrstWrite
  rw [if_neg]
  · rfl
  · rw [Bool.and_eq_true, Bool.and_eq_true, decide_eq_true_eq]
    rintro ⟨⟨hbit, hcode⟩, hpower⟩
    obtain hno | hno | hno := h
    · exact Bool.noConfusion (hno.symm.trans hbit)
    · exact hno hcode
    · exact Bool.noConfusion (hno.symm.trans hpower)

/-- The state without power: fuses and flash, and no firmware (R407). -/
def State.unpowered (s : State) : State :=
  { s.restart s.pkg.image 0 with pkg := { (s.restart s.pkg.image 0).pkg with powered := false, firmware := false } }

theorem powerRemoved_completes (s : State) : Completes .powerRemoved s s.unpowered := rfl

end Sys2Proof.Machine
end

section
/-! PROOF. ClockAndResetEvents (O55). -/
namespace Sys2Proof.Machine
open Sys2Proof

/-- Settles O55: each event is one operation, `State.tick` and what follows it, `State.synchronised`, `State.lose` or `State.restart`. -/
theorem clockAndResetEvents : Obligations.ClockAndResetEvents := by
  unfold Obligations.ClockAndResetEvents
  intro s
  refine ⟨clockTick_ticks s, syncMessage_of_stopped, fun hruns => ?_, ?_, ⟨?_, fun hbit hcode hpower => ?_, pkgrstWrite_of_other, ?_⟩,
    clkinitWrite_of_running, clkinitWrite_of_stopped⟩
  · obtain ⟨hsc, hmem⟩ := synchronised_keeps s
    exact ⟨_, syncMessage_of_running hruns, rfl, hsc, hmem, synchronised_of_far, synchronised_of_near⟩
  · obtain ⟨hlocked, -, hlosses⟩ := lose_unlocks s
    exact ⟨_, lockLoss_completes s, rfl, hlocked, hlosses⟩
  · exact ⟨_, reset_completes s, rfl, restart_fresh s _ _, rfl, rfl, rfl, restart_secVersion s _ _⟩
  · exact ⟨_, pkgrstWrite_of_reset hbit hcode hpower, rfl, restart_fresh s _ _, rfl, rfl⟩
  · exact ⟨_, powerRemoved_completes s, rfl, restart_fresh s s.pkg.image 0, rfl, rfl⟩

end Sys2Proof.Machine
end

section
/-! PROOF. Fences, and refusals of earlier stores that a word raises in its own place (R26, R141). -/
namespace Sys2Proof.Machine
open Sys2Proof

theorem withDeferred_of_none {s : State} (h : s.mu.deferred = []) (r : Res) : s.withDeferred r = r := by
  rw [State.withDeferred, h]

/-- A refusal that is held is raised in place of the word, with the store as FAULTPC (R26, R350). -/
theorem finish_withDeferred_of_held {s : State} {f : Deferred} {fs : List Deferred} (h : s.mu.deferred = f :: fs) (r : Res) :
    finish .control s (s.withDeferred r) =
      .next { ({ s with mu := { s.mu with deferred := fs } }).raise f.cause .control f.pc true f.tvalue f.addr with
        last := .raised f.cause f.tvalue f.addr } := by
  rw [State.withDeferred, h]
  rfl

/-- What a fence comes to once it has waited: a refusal that is held, or the close of the region. -/
def State.closes (s : State) : Result := finish .control s (s.withDeferred (.ok ((s.closeRegion .control).advance .control)))

theorem fence_of_waiting {s : State} {n : Nat} (h : s.quiet n = false) : fence n s = .next { s with last := .waits } := by
  rw [fence, State.fenced, h]
  rfl

theorem fence_of_quiet {s : State} {n : Nat} (h : s.quiet n = true) : fence n s = s.closes := by
  rw [fence, State.fenced, h]
  rfl

/-- fence.core acknowledges as fence.die (R141). -/
theorem exec_fence {i : Instr} {n : Nat} (h : (i, n) ∈ [(Instr.fenceCore, 0), (.fenceDie, 0), (.fencePkg, 1), (.fencePod, 2)]) (s : State) :
    exec i s = fence n s := by
  simp only [List.mem_cons, Prod.mk.injEq, List.not_mem_nil, or_false] at h
  obtain ⟨rfl, rfl⟩ | ⟨rfl, rfl⟩ | ⟨rfl, rfl⟩ | ⟨rfl, rfl⟩ := h <;> rfl

theorem ffence_of_waiting {s : State} (h : s.ownOps ≠ [] ∨ s.acked 0 = false) : Waits .ffence s := by
  have hwait : (!s.ownOps.isEmpty || !s.acked 0) = true := by simpa using h
  show execFfence s = _
  rw [execFfence, hwait]
  rfl

theorem ffence_of_performed {s : State} (hops : s.ownOps = []) (hacked : s.acked 0 = true) : exec .ffence s = s.closes := by
  show execFfence s = _
  rw [execFfence, hops, hacked]
  rfl

/-- A word that has come to the close of its region completes, or raises a refusal that is held. -/
theorem closes_ends {i : Instr} {s : State} (h : exec i s = s.closes) :
    (s.mu.deferred = [] → Completes i s ((s.closeRegion .control).advance .control)) ∧
      ∀ f fs, s.mu.deferred = f :: fs →
        exec i s = .next { ({ s with mu := { s.mu with deferred := fs } }).raise f.cause .control f.pc true f.tvalue f.addr with
          last := .raised f.cause f.tvalue f.addr } := by
  refine ⟨fun hnone => h.trans ?_, fun f fs hheld => h.trans (finish_withDeferred_of_held hheld _)⟩
  rw [State.closes, withDeferred_of_none hnone]
  rfl

end Sys2Proof.Machine
end

section
/-! PROOF. What a translation and the end of a word leave as they were. -/
namespace Sys2Proof.Machine
open Sys2Proof

/-- What neither a walk nor a fill of the translation cache touches: the scalar registers, the sequencers, the frames' marks of sealing,
and what the control sequencer waits for. -/
def State.untranslated (s : State) : Scalars × Seqs × SMap Bool × Remote := (s.sc, s.seqs, s.mem.sealed, s.mu.remote)

@[simp] theorem countOne_untranslated (s : State) (e k n : Nat) : (countOne s e k n).untranslated = s.untranslated := by
  unfold countOne
  dsimp only
  split
  · split <;> rfl
  · rfl

@[simp] theorem count_untranslated (s : State) (e k : Nat) : (s.count e k).untranslated = s.untranslated := by
  simp only [State.count, countOne_untranslated]

@[simp] theorem writeTable_untranslated (s : State) (pa n v : Nat) : (s.writeTable pa n v).untranslated = s.untranslated := by
  unfold State.writeTable State.writeTableAt
  split <;> rfl

theorem fill_untranslated (s : State) (asid : BitVec 11) (va : Addr) (l : Leaf) : (s.fill asid va l).1.untranslated = s.untranslated := by
  have hwrite := writeTable_untranslated s l.entry 16 (putBit l.leaf 11 true).toNat
  unfold State.fill
  dsimp only
  split
  · rfl
  · exact hwrite

theorem walkAndFill_untranslated {s t : State} {asid : BitVec 11} {va : Addr} {k : AccessKind} {sup secure : Bool} {e : TlbEntry}
    (h : s.walkAndFill asid va k sup secure = .ok (t, e)) : t.untranslated = s.untranslated := by
  unfold State.walkAndFill at h
  split at h
  · cases h
  next l hwalk =>
    split at h
    · cases h
    · have hfill := fill_untranslated (s.missed asid va) asid va l
      rw [Except.ok.inj h] at hfill
      simpa only [State.missed, count_untranslated] using hfill

theorem leafFor_untranslated {s t : State} {asid : BitVec 11} {va : Addr} {k : AccessKind} {sup secure : Bool} {e : TlbEntry}
    (h : s.leafFor asid va k sup secure = .ok (t, e)) : t.untranslated = s.untranslated := by
  unfold State.leafFor at h
  split at h
  · exact walkAndFill_untranslated h
  · split at h
    · cases h
      rfl
    · split at h
      · exact walkAndFill_untranslated h
      · cases h

theorem bindAccess_read_untranslated {s t : State} {va : Addr} {b : Bound} {l : Nat} (h : s.bindAccess va .read = .ok (t, b, l)) :
    t.untranslated = s.untranslated := by
  unfold State.bindAccess State.bindAs at h
  split at h
  · cases h
  next t1 e hleaf =>
    dsimp only at h
    split at h
    · cases h
    · cases h
      exact leafFor_untranslated hleaf

theorem untranslated_fields {s t : State} (h : t.untranslated = s.untranslated) :
    t.sc = s.sc ∧ t.seqs = s.seqs ∧ t.mem.sealed = s.mem.sealed ∧ t.mu.remote = s.mu.remote := by
  simpa [State.untranslated] using h

theorem seqOf_of_seqs {s t : State} (h : t.seqs = s.seqs) (q : Seq) : t.seqOf q = s.seqOf q := by
  cases q <;> simp only [State.seqOf, h]

theorem pcOf_of_seqs {s t : State} (h : t.seqs = s.seqs) (q : Seq) : t.pcOf q = s.pcOf q := by
  rw [State.pcOf, State.pcOf, seqOf_of_seqs h]

/-- A control word that ends past itself, on a state whose sequencers are those it met. -/
theorem advance_keepsSequencers {s u : State} (h : u.seqs = s.seqs) :
    (u.advance .control).completed.pcOf .control = s.pcOf .control + 4 ∧ KeepsSequencers s (u.advance .control).completed := by
  refine ⟨?_, fun q => ?_, fun q hq => ?_⟩
  · rw [← pcOf_of_seqs h]
    exact pcOf_advance_same u .control
  · rw [← seqOf_of_seqs h]
    exact setPc_seq u .control q _
  · rw [← pcOf_of_seqs h]
    exact pcOf_setPc_other u _ hq

end Sys2Proof.Machine
end

section
/-! PROOF. Seals (R239): one equation for each way that seal and unseal end. -/
namespace Sys2Proof.Machine
open Sys2Proof

/-- The mark of sealing of a frame takes a value. -/
def State.markFrame (s : State) (frame : Nat) (on : Bool) : State :=
  { s with mem := { s.mem with sealed := mset s.mem.sealed false frame on } }

theorem markFrame_readTable (s : State) (frame : Nat) (on : Bool) (pa n : Nat) :
    (s.markFrame frame on).readTable pa n = s.readTable pa n := rfl

theorem markFrame_sealed (s : State) (frame : Nat) (on : Bool) (k : Nat) :
    mget (s.markFrame frame on).mem.sealed false k = if k = frame then on else mget s.mem.sealed false k :=
  mget_mset s.mem.sealed false on frame k

theorem markFrame_writeTable_bytes (s : State) (frame : Nat) (on : Bool) (pa n v : Nat) :
    ((s.markFrame frame on).writeTable pa n v).mem.bytes = (s.writeTable pa n v).mem.bytes := by
  have hcell : (s.markFrame frame on).cellOf (s.markFrame frame on).ilvCur pa = s.cellOf s.ilvCur pa := rfl
  simp only [State.writeTable, State.writeTableAt, hcell]
  split <;> rfl

theorem writeTable_tlb (s : State) (pa n v : Nat) : (s.writeTable pa n v).mu.tlb = s.mu.tlb := by
  unfold State.writeTable State.writeTableAt
  split <;> rfl

/-- SEAL is set or cleared in a leaf that shows DIRTY and equals its table entry. -/
theorem putSeal_of_unchanged {s : State} {on : Bool} {va : Addr} {t : TlbEntry} (hdirty : t.leaf.getLsbD 12 = true)
    (hentry : s.readTable t.entry 16 = .ok t.leaf.toNat) :
    s.putSeal on va t = .ok (s.writeTable t.entry 16 (putBit t.leaf 8 on).toNat) := by
  have hmarked : s.dirty s.asid va .seal s.sup s.secure t = .ok (s, t) := by
    rw [State.dirty, if_pos hdirty]
  simp only [State.putSeal, hmarked, hentry, ↓reduceIte]

theorem exec_sealWord (a : BitVec 5) (on : Bool) (s : State) :
    exec (if on then .sealPage a else .unsealPage a) s = sealOrUnseal on a s := by
  cases on <;> rfl

section
variable {s s1 : State} {a : BitVec 5} {on : Bool} {t : TlbEntry}

theorem sealOrUnseal_of_refused {c : Cause} {tv : Word64} (h : s.leafFor s.asid (s.aReg a) .seal s.sup s.secure = .error (c, tv)) :
    sealOrUnseal on a s = finish .control s (.trap c tv (s.aReg a)) := by
  simp only [sealOrUnseal, h]

/-- The access of a seal has its leaf, whose frame is placed where it lies in the package. -/
structure State.SealsThrough (s s1 : State) (a : BitVec 5) (t : TlbEntry) : Prop where
  leaf : s.leafFor s.asid (s.aReg a) .seal s.sup s.secure = .ok (s1, t)
  placed : s1.target t.leaf = 0 → (s1.cellOf s1.ilvCur (leafAddress t.leaf t.level (s.aReg a))).isSome = true

theorem State.SealsThrough.not_unplaced (h : s.SealsThrough s1 a t) :
    (s1.target t.leaf = 0 && (s1.cellOf s1.ilvCur (leafAddress t.leaf t.level (s.aReg a))).isNone) = false := by
  by_cases htarget : s1.target t.leaf = 0
  · obtain ⟨c, hc⟩ := Option.isSome_iff_exists.mp (h.placed htarget)
    simp [hc]
  · simp [htarget]

theorem sealOrUnseal_of_large (h : s.SealsThrough s1 a t) (hlevel : t.level ≠ 0) :
    sealOrUnseal on a s = finish .control s (.fail .fieldRange) := by
  have hlarge : (t.level != 0) = true := bne_iff_ne.mpr hlevel
  simp only [sealOrUnseal, h.leaf, h.not_unplaced, hlarge, Bool.false_eq_true, ↓reduceIte]

theorem sealOrUnseal_of_outside (h : s.SealsThrough s1 a t) (hlevel : t.level = 0) (htarget : s1.target t.leaf ≠ 0) :
    sealOrUnseal on a s = finish .control s (.fail .atomicTarget) := by
  have hsmall : (t.level != 0) = false := bne_eq_false_iff_eq.mpr hlevel
  have houtside : (s1.target t.leaf != 0) = true := bne_iff_ne.mpr htarget
  simp only [sealOrUnseal, h.leaf, h.not_unplaced, hsmall, houtside, Bool.false_eq_true, ↓reduceIte]

theorem sealOrUnseal_of_busy (h : s.SealsThrough s1 a t) (hlevel : t.level = 0) (htarget : s1.target t.leaf = 0)
    (hbusy : s1.quiet 2 = false) : sealOrUnseal on a s = finish .control s (.wait s) := by
  have hsmall : (t.level != 0) = false := bne_eq_false_iff_eq.mpr hlevel
  have hinside : (s1.target t.leaf != 0) = false := bne_eq_false_iff_eq.mpr htarget
  simp only [sealOrUnseal, h.leaf, h.not_unplaced, hsmall, hinside, hbusy, Bool.false_eq_true, Bool.not_false, ↓reduceIte]

/-- The access of a seal through a small local leaf has waited as fence.pod does, and meets no refusal of an earlier store. -/
structure State.MaySeal (s s1 : State) (a : BitVec 5) (t : TlbEntry) : Prop extends s.SealsThrough s1 a t where
  small : (t.level != 0) = false
  inside : (s1.target t.leaf != 0) = false
  quiet : s1.quiet 2 = true
  unrefused : s.mu.deferred = []

theorem sealOrUnseal_of_same (h : s.MaySeal s1 a t) (hsame : leafSeal t.leaf = on) :
    sealOrUnseal on a s = finish .control s (.ok ((s1.closeRegion .control).pin.advance .control)) := by
  have hon : (leafSeal t.leaf == on) = true := beq_iff_eq.mpr hsame
  simp only [sealOrUnseal, h.leaf, h.not_unplaced, h.small, h.inside, h.quiet, withDeferred_of_none h.unrefused, hon,
    Bool.false_eq_true, Bool.not_true, ↓reduceIte]

theorem sealOrUnseal_of_race {cell k : Nat} {cs : List Claim} (h : s.MaySeal s1 a t) (hother : leafSeal t.leaf ≠ on) (hon : on = true)
    (hcell : (s1.closeRegion .control).cellOf (s1.closeRegion .control).ilvCur (leafFrame t.leaf * 2 ^ 17) = some cell)
    (hrace : (s1.closeRegion .control).sealRace cell = some (k, cs)) :
    sealOrUnseal on a s = finish .control s (.trap .race (raceTvalue cs true k 0) (s.aReg a)) := by
  subst hon
  have hoff : (leafSeal t.leaf == true) = false := beq_eq_false_iff_ne.mpr hother
  simp only [sealOrUnseal, h.leaf, h.not_unplaced, h.small, h.inside, h.quiet, withDeferred_of_none h.unrefused, hoff, hcell, hrace,
    Bool.false_eq_true, Bool.not_true, ↓reduceIte]

/-- The frame is marked, and bit 8 of the leaf entry follows. -/
theorem sealOrUnseal_of_free {cell : Nat} (h : s.MaySeal s1 a t) (hother : leafSeal t.leaf ≠ on)
    (hcell : (s1.closeRegion .control).cellOf (s1.closeRegion .control).ilvCur (leafFrame t.leaf * 2 ^ 17) = some cell)
    (hfree : on = false ∨ (s1.closeRegion .control).sealRace cell = none) (hdirty : t.leaf.getLsbD 12 = true)
    (hentry : (s1.closeRegion .control).readTable t.entry 16 = .ok t.leaf.toNat) :
    sealOrUnseal on a s = finish .control s (.ok (((((s1.closeRegion .control).markFrame (cell / 2 ^ 17) on).writeTable t.entry 16
      (putBit t.leaf 8 on).toNat).invalVa s.asid (s.aReg a)).pin.advance .control)) := by
  have hoff : (leafSeal t.leaf == on) = false := beq_eq_false_iff_ne.mpr hother
  have hnone : (if on then (s1.closeRegion .control).sealRace cell else none) = none := by
    obtain rfl | hclear := hfree
    · rfl
    · rw [hclear, ite_self]
  have hput := putSeal_of_unchanged (on := on) (va := s.aReg a) hdirty
    ((markFrame_readTable (s1.closeRegion .control) (cell / 2 ^ 17) on t.entry 16).trans hentry)
  unfold State.markFrame at hput ⊢
  simp only [sealOrUnseal, h.leaf, h.not_unplaced, h.small, h.inside, h.quiet, withDeferred_of_none h.unrefused, hoff, hcell, hnone, hput,
    Bool.false_eq_true, Bool.not_true, ↓reduceIte]

end

/-- What a seal leaves: the mark of the frame, the bytes of the table entry, and the translation cache without the address. -/
theorem sealed_state {s s1 : State} {va : Addr} {frame pa v : Nat} {on : Bool} (hkeeps : s1.untranslated = s.untranslated) :
    let u := (((((s1.closeRegion .control).markFrame frame on).writeTable pa 16 v).invalVa s.asid va).pin.advance .control).completed
    mget u.mem.sealed false frame = on ∧ (∀ k, k ≠ frame → mget u.mem.sealed false k = mget s.mem.sealed false k) ∧
      u.mem.bytes = ((s1.closeRegion .control).writeTable pa 16 v).mem.bytes ∧
      u.mu.tlb = s1.mu.tlb.filter (fun e => !e.covers s.asid va) ∧ u.sc = s.sc ∧ u.pcOf .control = s.pcOf .control + 4 ∧
      KeepsSequencers s u := by
  obtain ⟨hsc, hseqs, hsealed, -⟩ := untranslated_fields hkeeps
  generalize hm : (s1.closeRegion .control).markFrame frame on = m
  have hmarks (k : Nat) : mget m.mem.sealed false k = if k = frame then on else mget s.mem.sealed false k := by
    rw [← hm, markFrame_sealed, ← hsealed]
    rfl
  obtain ⟨wsc, wseqs, wsealed, -⟩ := untranslated_fields (writeTable_untranslated m pa 16 v)
  have hends := advance_keepsSequencers (s := s) (u := ((m.writeTable pa 16 v).invalVa s.asid va).pin)
    (by rw [pin_seqs]; exact wseqs.trans (by rw [← hm]; exact hseqs))
  obtain ⟨hpc, hseq⟩ := hends
  have hsealedEnd : ((((m.writeTable pa 16 v).invalVa s.asid va).pin.advance .control).completed).mem.sealed = m.mem.sealed := by
    show ((m.writeTable pa 16 v).invalVa s.asid va).pin.mem.sealed = _
    rw [pin_mem]
    exact wsealed
  refine ⟨?_, fun k hk => ?_, ?_, ?_, ?_, hpc, hseq⟩
  · rw [hsealedEnd, hmarks, if_pos rfl]
  · rw [hsealedEnd, hmarks, if_neg hk]
  · show ((m.writeTable pa 16 v).invalVa s.asid va).pin.mem.bytes = _
    rw [pin_mem, ← markFrame_writeTable_bytes _ frame on, hm]
    rfl
  · show ((m.writeTable pa 16 v).invalVa s.asid va).pin.mu.tlb = _
    rw [pin_mu]
    show (m.writeTable pa 16 v).mu.tlb.filter _ = _
    rw [writeTable_tlb, ← hm]
    rfl
  · show ((m.writeTable pa 16 v).invalVa s.asid va).pin.sc = _
    rw [pin_sc]
    exact wsc.trans (by rw [← hm]; exact hsc)

end Sys2Proof.Machine
end

section
/-! PROOF. Claim inspection (R240). -/
namespace Sys2Proof.Machine
open Sys2Proof

/-- The word of clmq: CHK, OTHX, OTHS, BLK, OWNX and OWN, from bit 5 down. -/
def claimWord (chk othx oths blk ownx own : Bool) : Word64 :=
  putBit (putBit (putBit (putBit (putBit (putBit (0 : Word64) 5 chk) 4 othx) 3 oths) 2 blk) 1 ownx) 0 own

theorem claimWord_lt (chk othx oths blk ownx own : Bool) : (claimWord chk othx oths blk ownx own).toNat < 64 := by
  revert chk othx oths blk ownx own
  decide

theorem claimWord_bits (chk othx oths blk ownx own : Bool) :
    let v := claimWord chk othx oths blk ownx own
    v.getLsbD 5 = chk ∧ v.getLsbD 4 = othx ∧ v.getLsbD 3 = oths ∧ v.getLsbD 2 = blk ∧ v.getLsbD 1 = ownx ∧ v.getLsbD 0 = own := by
  revert chk othx oths blk ownx own
  decide

theorem claimWord_unclaimed (chk : Bool) : putBit (0 : Word64) 5 chk = claimWord chk false false false false false := by
  revert chk
  decide

theorem claimWord_unclaimed_other (chk : Bool) {k : Nat} (hk : k ≠ 5) : (claimWord chk false false false false false).getLsbD k = false := by
  rw [← claimWord_unclaimed, getLsbD_putBit _ _ _ _ (by decide), if_neg hk]
  exact BitVec.getLsbD_zero

/-- The claims of other regions that cover a granule (R146). -/
def State.othersOn (s : State) (g : Nat) : List Claim :=
  s.mem.claims.filter (fun c => !s.owns .control c && unitsMeet c.unit c.block g false)

/-- The claims of the control sequencer's open region on a granule. -/
def State.ownOn (s : State) (g : Nat) : List Claim :=
  s.mem.claims.filter (fun c => s.owns .control c && c.closed.isNone && !c.block && c.unit == g)

theorem conflicts_excl_eq_othersOn (s : State) (g : Nat) : s.conflicts .control g false true = s.othersOn g := by
  simp only [State.conflicts, State.othersOn, Bool.true_or, Bool.and_true]

theorem ownClaims_filter_eq_ownOn (s : State) (g : Nat) :
    (s.ownClaims .control).filter (fun c => !c.block && c.unit == g) = s.ownOn g := by
  rw [State.ownClaims, List.filter_filter, State.ownOn]
  refine List.filter_congr (fun c _ => ?_)
  rw [Bool.and_comm, Bool.and_assoc (s.owns .control c && c.closed.isNone)]

/-- What clmq finds of a granule at a local home (R240). -/
def State.claimsFound (s : State) (chk : Bool) (g : Nat) : Word64 :=
  claimWord chk ((s.othersOn g).any (fun c => c.excl)) ((s.othersOn g).any (fun c => !c.excl)) ((s.othersOn g).any (fun c => c.block))
    ((s.ownOn g).any (fun c => c.excl)) (!(s.ownOn g).isEmpty)

theorem claimsFound_bits (s : State) (chk : Bool) (g : Nat) :
    let v := s.claimsFound chk g
    v.getLsbD 5 = chk ∧ v.getLsbD 4 = (s.othersOn g).any (fun c => c.excl) ∧ v.getLsbD 3 = (s.othersOn g).any (fun c => !c.excl) ∧
      v.getLsbD 2 = (s.othersOn g).any (fun c => c.block) ∧ v.getLsbD 1 = (s.ownOn g).any (fun c => c.excl) ∧
      v.getLsbD 0 = !(s.ownOn g).isEmpty :=
  claimWord_bits _ _ _ _ _ _

section
variable {s s1 : State} {d a : BitVec 5} {b : Bound} {l : Nat}

theorem clmq_of_refused {c : Cause} {tv : Word64} (h : s.bindAccess (s.aReg a) .read = .error (c, tv)) :
    Raises (.clmq d a) .control s c tv (s.aReg a) := by
  show execClmq d a s = _
  simp only [execClmq, h]
  rfl

/-- On an unchecked or a sealed page no claim is looked at. -/
theorem clmq_of_unclaimed (h : s.bindAccess (s.aReg a) .read = .ok (s1, b, l)) (hfree : s1.checked b = false ∨ leafSeal b.leaf = true) :
    Completes (.clmq d a) s ((s1.setG d (claimWord (leafChk b.leaf) false false false false false)).advance .control) := by
  have hopen : (!s1.checked b || leafSeal b.leaf) = true := by simpa using hfree
  show execClmq d a s = _
  simp only [execClmq, h, hopen, ↓reduceIte, claimWord_unclaimed]
  rfl

theorem clmq_of_local (h : s.bindAccess (s.aReg a) .read = .ok (s1, b, l)) (hchecked : s1.checked b = true) (hseal : leafSeal b.leaf = false)
    (htarget : s1.target b.leaf = 0) :
    Completes (.clmq d a) s ((s1.setG d (s1.claimsFound (leafChk b.leaf) (s1.granuleOf b))).advance .control) := by
  show execClmq d a s = _
  simp only [execClmq, h, hchecked, hseal, htarget, Bool.not_true, Bool.or_self, Bool.false_eq_true, ↓reduceIte,
    conflicts_excl_eq_othersOn, ownClaims_filter_eq_ownOn]
  rfl

theorem leafChk_of_checked (h : s1.checked b = true) : leafChk b.leaf = true := (Bool.and_eq_true_iff.mp h).1

theorem askOutside_of_answered {m : Message} {k : State → Word64 → Res} {va : Addr} {w : Word64}
    (h : s.mu.remote = .answered (s.pcOf .control) w none) :
    s.askOutside b m k va = k { s with mu := { s.mu with remote := .idle } } w := by
  simp only [State.askOutside, h, ↓reduceIte]

/-- At a peer home the answer is taken (R25). -/
theorem clmq_of_peer {w : Word64} (h : s.bindAccess (s.aReg a) .read = .ok (s1, b, l)) (hchecked : s1.checked b = true)
    (hseal : leafSeal b.leaf = false) (htarget : s1.target b.leaf = 1) (hanswer : s.mu.remote = .answered (s.pcOf .control) w none) :
    Completes (.clmq d a) s ((({ s1 with mu := { s1.mu with remote := .idle } }).setG d (putBit (w &&& 0x1F) 5 true)).advance .control) := by
  obtain ⟨-, hseqs, -, hremote⟩ := untranslated_fields (bindAccess_read_untranslated h)
  have hanswer1 : s1.mu.remote = .answered (s1.pcOf .control) w none := by rw [hremote, pcOf_of_seqs hseqs, hanswer]
  show execClmq d a s = _
  simp only [execClmq, h, hchecked, hseal, htarget, Bool.not_true, Bool.or_self, Bool.false_eq_true, Nat.one_ne_zero, ↓reduceIte,
    askOutside_of_answered hanswer1, leafChk_of_checked hchecked]
  rfl

end

/-- A control word that writes gD of a state whose scalar registers and sequencers are those it met. -/
theorem setG_advance_keeps {s s1 : State} (d : BitVec 5) (v : Word64) (hsc : s1.sc = s.sc) (hseqs : s1.seqs = s.seqs) :
    let t := ((s1.setG d v).advance .control).completed
    t.gReg d = (if d = 0 then 0 else v) ∧ t.mem = s1.mem ∧ t.csr = s1.csr ∧ (∀ r, r ≠ d → t.gReg r = s.gReg r) ∧
      (∀ r, t.aReg r = s.aReg r) ∧ t.pcOf .control = s.pcOf .control + 4 := by
  have hg (r : BitVec 5) : (((s1.setG d v).advance .control).completed).gReg r = if r = 0 then 0 else if r = d then v else s.gReg r := by
    rw [← gReg_of_sc hsc r, ← gReg_setG]
    rfl
  refine ⟨?_, setG_mem s1 d v, setG_csr s1 d v, fun r hr => ?_, fun r => ?_, ?_⟩
  · simp only [hg, ↓reduceIte]
  · rw [hg, if_neg hr]
    split
    next hzero => rw [hzero, gReg_zero]
    · rfl
  · have ha : (s1.setG d v).sc.a = s.sc.a := by
      rw [← hsc]
      unfold State.setG
      split <;> rfl
    show mget (s1.setG d v).sc.a 0 r.toNat = _
    rw [ha]
    rfl
  · exact (advance_keepsSequencers ((setG_seqs s1 d v).trans hseqs)).1

end Sys2Proof.Machine
end

section
/-! PROOF. FenceAndSealWords (O16). -/
namespace Sys2Proof.Machine
open Sys2Proof

/-- Settles O16: fences come to the close of their region, seals end as `sealOrUnseal_of_…` says case by case, and clmq writes
`State.claimsFound` at a local home. -/
theorem fenceAndSealWords : Obligations.FenceAndSealWords := by
  unfold Obligations.FenceAndSealWords
  refine ⟨fun s => ⟨fun i n hword => ⟨fun hbusy => ?_, fun hquiet => ?_, fun f fs hheld hquiet => ?_⟩, ffence_of_waiting,
    fun hops hacked => closes_ends (ffence_of_performed hops hacked)⟩, fun s a on => ?_, fun s d a => ?_⟩
  · exact (exec_fence hword s).trans (fence_of_waiting hbusy)
  · exact (closes_ends ((exec_fence hword s).trans (fence_of_quiet hquiet))).1
  · exact (closes_ends ((exec_fence hword s).trans (fence_of_quiet hquiet))).2 f fs hheld
  · refine ⟨fun e tv hrefused => ?_, fun s1 t hleaf hplaced => ?_⟩
    · exact (exec_sealWord a on s).trans (sealOrUnseal_of_refused hrefused)
    have hthrough : s.SealsThrough s1 a t := ⟨hleaf, hplaced⟩
    refine ⟨fun hlarge => ?_, fun hsmall houtside => ?_, fun hsmall hinside hbusy => ?_, fun hsmall hinside hquiet hnone => ?_⟩
    · exact (exec_sealWord a on s).trans (sealOrUnseal_of_large hthrough hlarge)
    · exact (exec_sealWord a on s).trans (sealOrUnseal_of_outside hthrough hsmall houtside)
    · exact (exec_sealWord a on s).trans (sealOrUnseal_of_busy hthrough hsmall hinside hbusy)
    have hmay : s.MaySeal s1 a t :=
      ⟨hthrough, bne_eq_false_iff_eq.mpr hsmall, bne_eq_false_iff_eq.mpr hinside, hquiet, hnone⟩
    refine ⟨fun hsame => ?_, fun hother cell hcell => ⟨fun k cs hon hrace => ?_, fun hfree hdirty hentry => ?_⟩⟩
    · exact (exec_sealWord a on s).trans (sealOrUnseal_of_same hmay hsame)
    · exact (exec_sealWord a on s).trans (sealOrUnseal_of_race hmay hother hon hcell hrace)
    · exact ⟨_, (exec_sealWord a on s).trans (sealOrUnseal_of_free hmay hother hcell hfree hdirty hentry), rfl,
        sealed_state (leafFor_untranslated hleaf)⟩
  · refine ⟨fun e tv hrefused => clmq_of_refused hrefused, fun s1 b l hbind => ⟨fun hplace => ?_, fun hchecked hseal htarget w hanswer =>
      clmq_of_peer hbind hchecked hseal htarget hanswer⟩⟩
    obtain ⟨hsc, hseqs, -, -⟩ := untranslated_fields (bindAccess_read_untranslated hbind)
    by_cases hfree : s1.checked b = false ∨ leafSeal b.leaf = true
    · obtain ⟨hg, hmem, hcsr, hothers, ha, hpc⟩ := setG_advance_keeps d (claimWord (leafChk b.leaf) false false false false false) hsc hseqs
      obtain ⟨hchk, -⟩ := claimWord_bits (leafChk b.leaf) false false false false false
      refine ⟨_, _, clmq_of_unclaimed hbind hfree, rfl, hg, hmem, hcsr, hothers, ha, hpc, claimWord_lt _ _ _ _ _ _, hchk,
        fun _ k hk => claimWord_unclaimed_other _ hk, fun hchecked hseal => ?_⟩
      simp [hchecked, hseal] at hfree
    · have hchecked : s1.checked b = true := by simpa using fun h => hfree (.inl h)
      have hseal : leafSeal b.leaf = false := by simpa using fun h => hfree (.inr h)
      have htarget : s1.target b.leaf = 0 := by simpa [hchecked, hseal] using hplace
      obtain ⟨hg, hmem, hcsr, hothers, ha, hpc⟩ :=
        setG_advance_keeps d (s1.claimsFound (leafChk b.leaf) (s1.granuleOf b)) hsc hseqs
      obtain ⟨hchk, hbits⟩ := claimsFound_bits s1 (leafChk b.leaf) (s1.granuleOf b)
      exact ⟨_, _, clmq_of_local hbind hchecked hseal htarget, rfl, hg, hmem, hcsr, hothers, ha, hpc, claimWord_lt _ _ _ _ _ _, hchk,
        fun h => absurd h hfree, fun _ _ => hbits⟩

end Sys2Proof.Machine
end

section
/-! PROOF. What a write at a home in the package does: the bytes, the granule, and nothing else (R90, R396). -/
namespace Sys2Proof.Machine
open Sys2Proof

/-- `t` is `s` with another memory; free values may have been drawn, and lines of the scalar data cache dropped. -/
def OnlyMemory (s t : State) : Prop :=
  ∃ mem draws lines, t = { s with mem := mem, draws := draws, mu := { s.mu with lines := lines } }

theorem onlyMemory_refl (s : State) : OnlyMemory s s := ⟨s.mem, s.draws, s.mu.lines, rfl⟩

theorem onlyMemory_trans {s t u : State} : OnlyMemory s t → OnlyMemory t u → OnlyMemory s u := by
  rintro ⟨_, _, _, rfl⟩ ⟨mem, draws, lines, rfl⟩
  exact ⟨mem, draws, lines, rfl⟩

theorem onlyMemory_setGranule (s : State) (c : Nat) (g : Granule) : OnlyMemory s (s.setGranule c g) := ⟨_, s.draws, s.mu.lines, rfl⟩

theorem onlyMemory_takeGranule (s : State) (c : Nat) (o : BitVec 10 × BitVec 6) : OnlyMemory s (s.takeGranule c o) := by
  unfold State.takeGranule
  refine onlyMemory_trans ?_ (onlyMemory_setGranule _ c _)
  split
  · exact ⟨_, s.draws, s.mu.lines, rfl⟩
  · split
    · exact onlyMemory_refl s
    · exact List.foldlRecOn _ _ (onlyMemory_refl s) (fun t ht i _ => onlyMemory_trans ht ⟨_, t.draws + 1, t.mu.lines, rfl⟩)

theorem onlyMemory_writeCell (s : State) (c n v : Nat) (o : BitVec 10 × BitVec 6) : OnlyMemory s (s.writeCell c n v o) := by
  have hdrop : OnlyMemory s (s.dropLine (c / 64)) := ⟨s.mem, s.draws, _, rfl⟩
  have hbytes (t : State) (m : SMap Byte) : OnlyMemory t { t with mem := { t.mem with bytes := m } } := ⟨_, t.draws, t.mu.lines, rfl⟩
  have hwrite := onlyMemory_trans (onlyMemory_trans hdrop (onlyMemory_takeGranule _ c o)) 
    (hbytes _ (putBytes ((s.dropLine (c / 64)).takeGranule c o).mem.bytes c n v))
  unfold State.writeCell
  dsimp only
  split
  · exact onlyMemory_trans hwrite (onlyMemory_setGranule _ c _)
  · exact hwrite

/-- A granule that changes its owner leaves the bytes of the others. -/
theorem takeGranule_cell_outside (s : State) {c x : Nat} (o : BitVec 10 × BitVec 6) (h : x < c / 64 * 64 ∨ c / 64 * 64 + 64 ≤ x) :
    (s.takeGranule c o).cell x = s.cell x := by
  have hset (t : State) (g : Granule) : (t.setGranule c g).cell x = t.cell x := rfl
  have hzero := mget_putBytes_other s.mem.bytes (c / 64 * 64) 64 0 x h
  generalize hbytes : putBytes s.mem.bytes (c / 64 * 64) 64 0 = bytes at hzero
  unfold State.takeGranule
  dsimp only
  rw [hset, hbytes]
  split
  · exact hzero
  · split
    · rfl
    · refine List.foldlRecOn (motive := fun t : State => t.cell x = s.cell x) _ _ rfl (fun t ht i hi => ?_)
      have hlt := List.mem_range.mp hi
      have hother : x ≠ c / 64 * 64 + i := by omega
      exact (mget_mset_other t.mem.bytes 0 ((freeValue t.draws).setWidth 8) hother).trans ht

theorem setGranule_granule_same (s : State) (c : Nat) (g : Granule) : (s.setGranule c g).granule c = g := mget_mset_same _ _ _ _

theorem takeGranule_granule (s : State) (c : Nat) (o : BitVec 10 × BitVec 6) :
    (s.takeGranule c o).granule c = { s.granule c with owner := some o } := setGranule_granule_same _ _ _

/-- A write within a granule leaves the bytes of the others. -/
theorem writeCell_cell_outside (s : State) {c n x : Nat} (v : Nat) (o : BitVec 10 × BitVec 6) (hfit : c % 64 + n ≤ 64)
    (h : x < c / 64 * 64 ∨ c / 64 * 64 + 64 ≤ x) : (s.writeCell c n v o).cell x = s.cell x := by
  have hother : x < c ∨ c + n ≤ x := by omega
  have htaken := takeGranule_cell_outside (s.dropLine (c / 64)) o h
  have hwrite := (mget_putBytes_other ((s.dropLine (c / 64)).takeGranule c o).mem.bytes c n v x hother).trans htaken
  unfold State.writeCell
  dsimp only
  split
  · exact hwrite
  · exact hwrite

/-- A write gives its granule to the writer. -/
theorem writeCell_owner (s : State) (c n v : Nat) (o : BitVec 10 × BitVec 6) : ((s.writeCell c n v o).granule c).owner = some o := by
  have htaken : (((s.dropLine (c / 64)).takeGranule c o).granule c).owner = some o := by rw [takeGranule_granule]
  unfold State.writeCell
  dsimp only
  split
  · exact (congrArg Granule.owner (setGranule_granule_same _ _ _)).trans htaken
  · exact htaken

theorem writeHome_ok {s u : State} {b : Bound} {pa n v c : Nat} (h : s.writeHome b pa n v = .ok u) (hcell : s.cellOf b.ver pa = some c) :
    u = s.writeCell c n v (s.slotEpoch (leafKey b.leaf)) := by
  unfold State.writeHome at h
  split at h
  · cases h
  · rw [hcell] at h
    exact (Except.ok.inj h).symm

end Sys2Proof.Machine
end

section
/-! PROOF. Untimed stores at their homes (R26, R138). -/
namespace Sys2Proof.Machine
open Sys2Proof

/-- The state with a row's bytes written at a cell, the granule marked where the row is poisoned (R89), and the lines of the core's scalar
data cache kept (R85). -/
def State.rowWritten (s : State) (r : StoreRow) (c : Nat) : State :=
  let u := s.writeCell c r.size r.data.toNat (s.slotEpoch (leafKey r.bound.leaf))
  let v : State := { u with mu := { u.mu with lines := s.mu.lines } }
  if r.poison then v.setGranule c { v.granule c with poison := true } else v

theorem performStore_of_ok {s u : State} {r : StoreRow} {c : Nat} (htimed : r.timed = none)
    (hwrite : s.writeHome r.bound r.bound.pa r.size r.data.toNat = .ok u) (hcell : s.cellOf r.bound.ver r.bound.pa = some c) :
    s.performStore r = s.rowWritten r c := by
  have hu := writeHome_ok hwrite hcell
  obtain ⟨mem, draws, lines, hmem⟩ := onlyMemory_writeCell s c r.size r.data.toNat (s.slotEpoch (leafKey r.bound.leaf))
  rw [← hu] at hmem
  have hcell1 : ({ u with mu := { u.mu with lines := s.mu.lines } } : State).cellOf r.bound.ver r.bound.pa = some c := by
    rw [hmem]
    exact hcell
  simp only [State.performStore, htimed, hwrite, Option.isSome_none, Bool.false_and, Bool.false_eq_true, ↓reduceIte, Option.bind_none,
    State.poisonAt, hcell1, State.rowWritten, ← hu]

theorem performStore_of_error {s : State} {r : StoreRow} {e : Cause} (htimed : r.timed = none)
    (hwrite : s.writeHome r.bound r.bound.pa r.size r.data.toNat = .error e) : s.performStore r = s.refuseStore r e none := by
  simp only [State.performStore, htimed, hwrite, Option.isSome_none, Bool.false_and, Bool.false_eq_true, ↓reduceIte]

section
variable (s : State) (r : StoreRow) (c : Nat)

theorem onlyMemory_rowWritten : OnlyMemory s (s.rowWritten r c) := by
  have hlines (t : State) (l : SMap (List Nat)) : OnlyMemory t { t with mu := { t.mu with lines := l } } := ⟨t.mem, t.draws, l, rfl⟩
  have hwrite := onlyMemory_trans (onlyMemory_writeCell s c r.size r.data.toNat (s.slotEpoch (leafKey r.bound.leaf))) (hlines _ s.mu.lines)
  unfold State.rowWritten
  dsimp only
  split
  · exact onlyMemory_trans hwrite (onlyMemory_setGranule _ c _)
  · exact hwrite

theorem rowWritten_cell (x : Nat) :
    (s.rowWritten r c).cell x = (s.writeCell c r.size r.data.toNat (s.slotEpoch (leafKey r.bound.leaf))).cell x := by
  unfold State.rowWritten
  dsimp only
  split <;> rfl

theorem rowWritten_owner : ((s.rowWritten r c).granule c).owner = some (s.slotEpoch (leafKey r.bound.leaf)) := by
  have howner := writeCell_owner s c r.size r.data.toNat (s.slotEpoch (leafKey r.bound.leaf))
  unfold State.rowWritten
  dsimp only
  split
  · exact (congrArg Granule.owner (setGranule_granule_same _ _ _)).trans howner
  · exact howner

theorem rowWritten_poison (h : r.poison = true) : ((s.rowWritten r c).granule c).poison = true := by
  unfold State.rowWritten
  dsimp only
  rw [if_pos h]
  exact congrArg Granule.poison (setGranule_granule_same _ _ _)

end

/-- The refusal of a store as its task holds it (R26). -/
def StoreRow.refusal (r : StoreRow) (c : Cause) (tv : Option Word64) : Deferred :=
  ⟨c, r.pc, r.bound.va, tv.getD (BitVec.ofNat 64 r.row)⟩

theorem refuseStore_untimed_of_bound {s : State} {r : StoreRow} (c : Cause) (tv : Option Word64) (htimed : r.timed = none)
    (hbound : s.isBound r.task = true) :
    s.refuseStore r c tv = { s with mu := { s.mu with deferred := s.mu.deferred ++ [r.refusal c tv] } } := by
  simp only [State.refuseStore, htimed, Option.bind_none, hbound, ↓reduceIte]
  rfl

theorem refuseStore_untimed_of_parked {s : State} {r : StoreRow} (c : Cause) (tv : Option Word64) (htimed : r.timed = none)
    (hparked : s.isBound r.task = false) :
    s.refuseStore r c tv = { s with disp := { s.disp with parked := s.disp.parked.map (fun p =>
      if p.context.task.id == r.task then { p with context := { p.context with deferred := p.context.deferred ++ [r.refusal c tv] } } else p) } } := by
  simp only [State.refuseStore, htimed, Option.bind_none, hparked, Bool.false_eq_true, ↓reduceIte]
  rfl

/-- The row whose home access is due: the oldest untimed store on its way that its home takes. -/
def State.homeRow (s : State) : Option StoreRow := s.mu.storeQ.find? (fun r => r.place == .sent && r.timed.isNone && s.atHome r)

theorem homeRow_untimed {s : State} {r : StoreRow} (h : s.homeRow = some r) : r.timed = none := by
  have hfound := List.find?_some h
  simp only [Bool.and_eq_true, Option.isNone_iff_eq_none] at hfound
  exact hfound.1.2

theorem homeAccess_completes {s : State} {r : StoreRow} (hown : s.input.flag2 = false) (h : s.homeRow = some r) :
    Completes .homeAccess s ((s.removeRow r).performStore r).kick := by
  unfold State.homeRow at h
  show execHomeAccess s = _
  rw [execHomeAccess, hown, h]
  rfl

/-- The home access that is performed (R138). -/
theorem homeAccess_of_ok {s u : State} {r : StoreRow} {c : Nat} (hown : s.input.flag2 = false) (h : s.homeRow = some r)
    (hwrite : (s.removeRow r).writeHome r.bound r.bound.pa r.size r.data.toNat = .ok u)
    (hcell : s.cellOf r.bound.ver r.bound.pa = some c) (hfit : c % 64 + r.size ≤ 64) :
    ∃ t, exec .homeAccess s = .next t ∧ t.last = .done ∧
      (∀ i, i < r.size → t.cell (c + i) = BitVec.ofNat 8 (r.data.toNat / 256 ^ i)) ∧ KeepsMemoryBut (c / 64 * 64) 64 s t ∧
      ((s.granule c).owner = some (s.slotEpoch (leafKey r.bound.leaf)) → KeepsMemoryBut c r.size s t) ∧
      (t.granule c).owner = some (s.slotEpoch (leafKey r.bound.leaf)) ∧ (r.poison = true → (t.granule c).poison = true) ∧
      t.sc = s.sc ∧ t.seqs = s.seqs ∧ t.csr = s.csr ∧ t.mu.storeQ = s.mu.storeQ.filter (fun x => x.id != r.id) ∧
      t.mu.deferred = s.mu.deferred := by
  have hexec := homeAccess_completes hown h
  rw [performStore_of_ok (homeRow_untimed h) hwrite hcell] at hexec
  have hcells := rowWritten_cell (s.removeRow r) r c
  have howner := rowWritten_owner (s.removeRow r) r c
  have hpoison := rowWritten_poison (s.removeRow r) r c
  obtain ⟨mem, draws, lines, hwritten⟩ := onlyMemory_rowWritten (s.removeRow r) r c
  obtain ⟨l, hkick⟩ := posts_kick ((s.removeRow r).rowWritten r c)
  rw [hkick] at hexec
  refine ⟨_, hexec, rfl, fun i hi => ?_, fun x hx => ?_, fun hsame x hx => ?_, howner, hpoison, ?_⟩
  · exact (hcells (c + i)).trans (cell_writeCell_same _ c _ _ i _ hi)
  · exact (hcells x).trans (writeCell_cell_outside (s.removeRow r) _ _ hfit hx)
  · exact (hcells x).trans (cell_writeCell_other (s := s.removeRow r) hsame hx)
  · rw [hwritten]
    exact ⟨rfl, rfl, rfl, rfl, rfl⟩

/-- The home access that is refused (R26). -/
theorem homeAccess_of_error {s : State} {r : StoreRow} {e : Cause} (hown : s.input.flag2 = false) (h : s.homeRow = some r)
    (hwrite : (s.removeRow r).writeHome r.bound r.bound.pa r.size r.data.toNat = .error e) :
    ∃ t, exec .homeAccess s = .next t ∧ t.last = .done ∧ KeepsMemory s t ∧ t.mem.gran = s.mem.gran ∧ t.sc = s.sc ∧ t.seqs = s.seqs ∧
      t.csr = s.csr ∧ t.mu.storeQ = s.mu.storeQ.filter (fun x => x.id != r.id) ∧
      (s.isBound r.task = true → t.mu.deferred = s.mu.deferred ++ [r.refusal e none]) ∧
      (s.isBound r.task = false → t.mu.deferred = s.mu.deferred ∧ t.disp.parked = s.disp.parked.map (fun p =>
        if p.context.task.id == r.task then { p with context := { p.context with deferred := p.context.deferred ++ [r.refusal e none] } } else p)) := by
  have hexec := homeAccess_completes hown h
  rw [performStore_of_error (homeRow_untimed h) hwrite] at hexec
  obtain ⟨l, hkick⟩ := posts_kick ((s.removeRow r).refuseStore r e none)
  rw [hkick] at hexec
  refine ⟨_, hexec, rfl, ?_⟩
  cases hbound : s.isBound r.task with
  | true =>
    rw [refuseStore_untimed_of_bound (s := s.removeRow r) e none (homeRow_untimed h) hbound]
    exact ⟨fun _ => rfl, rfl, rfl, rfl, rfl, rfl, fun _ => rfl, fun hother => Bool.noConfusion hother⟩
  | false =>
    rw [refuseStore_untimed_of_parked (s := s.removeRow r) e none (homeRow_untimed h) hbound]
    exact ⟨fun _ => rfl, rfl, rfl, rfl, rfl, rfl, fun hother => Bool.noConfusion hother, fun _ => ⟨rfl, rfl⟩⟩

end Sys2Proof.Machine
end

section
/-! PROOF. Requests on the fabric change the package alone (R376, R378). -/
namespace Sys2Proof.Machine
open Sys2Proof

/-- `t` is `s` with another package. -/
def OnlyPackage (s t : State) : Prop := ∃ pkg, t = { s with pkg := pkg }

theorem onlyPackage_trans {s t u : State} : OnlyPackage s t → OnlyPackage t u → OnlyPackage s u := by
  rintro ⟨_, rfl⟩ ⟨pkg, rfl⟩
  exact ⟨pkg, rfl⟩

theorem onlyPackage_setFabric (s : State) (l : List FabricReq) : OnlyPackage s (s.setFabric l) := ⟨_, rfl⟩

theorem onlyPackage_sendBound (s : State) (b : Bound) (what : FabricWhat) : OnlyPackage s (s.sendBound b what) := by
  unfold State.sendBound
  split <;> exact ⟨_, rfl⟩

theorem onlyPackage_rebindStalled (s : State) : OnlyPackage s s.rebindStalled := by
  unfold State.rebindStalled
  refine List.foldlRecOn _ _ ⟨s.pkg, rfl⟩ (fun t ht f _ => ?_)
  dsimp only
  split
  · exact ht
  · exact onlyPackage_trans ht (onlyPackage_setFabric t _)

theorem onlyPackage_settle (s : State) (f : FabricReq) : OnlyPackage s (s.settle f) :=
  onlyPackage_trans (onlyPackage_setFabric s _) (onlyPackage_rebindStalled _)

theorem onlyPackage_answered (s : State) (what : FabricWhat) : OnlyPackage s (s.answered what) := by
  unfold State.answered
  split
  · exact ⟨s.pkg, rfl⟩
  · exact onlyPackage_settle s _

theorem onlyPackage_settleId (s : State) (id : Nat) : OnlyPackage s (s.settleId id) := by
  unfold State.settleId
  split
  · exact ⟨s.pkg, rfl⟩
  · exact onlyPackage_settle s _

end Sys2Proof.Machine
end

section
/-! PROOF. Stores leave the queue in order (R128, R140, R147). -/
namespace Sys2Proof.Machine
open Sys2Proof

/-- The oldest row that has not left the store queue. -/
def State.queuedRow (s : State) : Option StoreRow := s.mu.storeQ.find? (fun r => r.place == .queued)

theorem storeQueueDepart_of_none {s : State} (h : s.queuedRow = none) : Completes .storeQueueDepart s s := by
  unfold State.queuedRow at h
  show execStoreQueueDepart s = _
  rw [execStoreQueueDepart, h]
  rfl

section
variable {s : State} {r : StoreRow}

theorem storeQueueDepart_of_waiting (h : s.queuedRow = some r) (hwaits : s.mayDepart r = false) : Completes .storeQueueDepart s s := by
  unfold State.queuedRow at h
  show execStoreQueueDepart s = _
  simp only [execStoreQueueDepart, h, hwaits, Bool.not_false, ↓reduceIte]
  rfl

theorem storeQueueDepart_to_local (h : s.queuedRow = some r) (hmay : s.mayDepart r = true) (htarget : s.target r.bound.leaf = 0) :
    Completes .storeQueueDepart s (s.placeRow r .sent).kick := by
  unfold State.queuedRow at h
  show execStoreQueueDepart s = _
  simp only [execStoreQueueDepart, h, hmay, htarget, Bool.not_true, Bool.false_eq_true, ↓reduceIte]
  rfl

theorem storeQueueDepart_to_outside (h : s.queuedRow = some r) (hmay : s.mayDepart r = true) (htarget : s.target r.bound.leaf ≠ 0)
    (hhub : s.hubRefusal r.bound = none) :
    Completes .storeQueueDepart s (((s.placeRow r .sent).sendBound r.bound (.store r.id)).emit r.message).kick := by
  unfold State.queuedRow at h
  show execStoreQueueDepart s = _
  simp only [execStoreQueueDepart, h, hmay, htarget, hhub, Bool.not_true, Bool.false_eq_true, ↓reduceIte]
  rfl

/-- A row to pool memory whose key slot is not loaded is refused at the hub (R25). -/
theorem storeQueueDepart_of_refused (h : s.queuedRow = some r) (hmay : s.mayDepart r = true) (htarget : s.target r.bound.leaf = 3)
    (hkey : (s.ksctl (leafKey r.bound.leaf)).getLsbD 63 = false) :
    Completes .storeQueueDepart s ((s.removeRow r).refuseStore r .keyAbsent none).kick := by
  have hhub : s.hubRefusal r.bound = some .keyAbsent := by
    simp only [State.hubRefusal, htarget, hkey, decide_true, Bool.not_false, Bool.and_self, ↓reduceIte]
  have hlocal : s.target r.bound.leaf ≠ 0 := by rw [htarget]; decide
  unfold State.queuedRow at h
  show execStoreQueueDepart s = _
  simp only [execStoreQueueDepart, h, hmay, hlocal, hhub, Bool.not_true, Bool.false_eq_true, ↓reduceIte]
  rfl

/-- The row is on its way to its home, and an outside home is sent its bytes. -/
theorem storeQueueDepart_sends (h : s.queuedRow = some r) (hmay : s.mayDepart r = true)
    (hadmitted : s.target r.bound.leaf = 0 ∨ s.hubRefusal r.bound = none) :
    ∃ t, exec .storeQueueDepart s = .next t ∧ t.last = .done ∧ t.mem = s.mem ∧ t.sc = s.sc ∧ t.seqs = s.seqs ∧ t.csr = s.csr ∧
      t.mu.storeQ = s.mu.storeQ.map (fun x => if x.id = r.id then { x with place := .sent } else x) ∧
      (s.target r.bound.leaf = 0 → t.outbox = s.outbox) ∧ (s.target r.bound.leaf ≠ 0 → t.outbox = r.message :: s.outbox) := by
  by_cases htarget : s.target r.bound.leaf = 0
  · have hexec := storeQueueDepart_to_local h hmay htarget
    obtain ⟨l, hkick⟩ := posts_kick (s.placeRow r .sent)
    rw [hkick] at hexec
    exact ⟨_, hexec, rfl, rfl, rfl, rfl, rfl, rfl, fun _ => rfl, fun hother => absurd htarget hother⟩
  · have hexec := storeQueueDepart_to_outside h hmay htarget (hadmitted.resolve_left htarget)
    obtain ⟨pkg, hsent⟩ := onlyPackage_sendBound (s.placeRow r .sent) r.bound (.store r.id)
    obtain ⟨l, hkick⟩ := posts_kick (((s.placeRow r .sent).sendBound r.bound (.store r.id)).emit r.message)
    rw [hkick, hsent] at hexec
    exact ⟨_, hexec, rfl, rfl, rfl, rfl, rfl, rfl, fun hlocal => absurd hlocal htarget, fun _ => rfl⟩

end

end Sys2Proof.Machine
end

section
/-! PROOF. Accesses of other chips at a home here (R25, R395). -/
namespace Sys2Proof.Machine
open Sys2Proof

/-- An access of another chip as its request binds it (R25). -/
def State.servedBound (s : State) : Bound :=
  ⟨0, s.input.asid, s.input.w.getLsbD 8, BitVec.ofNat 128 s.input.data, s.input.addr.toNat, s.ilvCur⟩

/-- The chip that asks. -/
def State.servedChip (s : State) : BitVec 10 := BitVec.ofNat 10 s.input.n

section
variable {s : State}

theorem homeAccess_serves (h : s.input.flag2 = true) : Completes .homeAccess s (s.servePeer s.input) := by
  show execHomeAccess s = _
  rw [execHomeAccess, if_pos h]
  rfl

theorem servePeer_of_stopped (h : s.pkg.stopped = true) :
    s.servePeer s.input = s.emit (.served s.servedChip s.input.req 0 (some .containedStop)) := by
  rw [State.servePeer, if_pos h]
  rfl

theorem servePeer_of_refused {e : Cause} (hruns : s.pkg.stopped = false)
    (h : s.refusalOf s.servedChip s.servedBound s.servedBound.pa s.input.flag = some e) :
    s.servePeer s.input = s.emit (.served s.servedChip s.input.req 0 (some e)) := by
  unfold State.servedChip State.servedBound at h
  simp only [State.servePeer, hruns, h, Bool.false_eq_true, ↓reduceIte]
  rfl

/-- A read that the home does not refuse is answered with its bytes, with zeros where the granule has no owner (R396). -/
theorem servePeer_reads {c : Nat} (hruns : s.pkg.stopped = false)
    (h : s.refusalOf s.servedChip s.servedBound s.servedBound.pa s.input.flag = none)
    (hcell : s.cellOf s.servedBound.ver s.servedBound.pa = some c) (hread : s.input.flag = false) (hpoison : (s.granule c).poison = false) :
    s.servePeer s.input = s.emit (.served s.servedChip s.input.req
      (if (s.granule c).owner = none then 0 else getBytes s.cell c (min (max (fld s.input.w 0 4) 1) 8)) none) := by
  unfold State.servedChip State.servedBound at h
  unfold State.servedBound at hcell
  rw [hread] at h
  simp only [State.servePeer, hruns, hread, h, hcell, hpoison, Bool.false_eq_true, ↓reduceIte]
  rfl

/-- A chip outside the admission set of the key slot is refused, if for no other cause (R395). -/
theorem refusalOf_of_not_admitted {chip : BitVec 10} {b : Bound} {pa : Nat} {write : Bool}
    (hkey : (s.ksctl (leafKey b.leaf)).getLsbD 63 = true) (hchip : s.admitsChip (fld (s.ksctl (leafKey b.leaf)) 0 6) chip = false) :
    ∃ e, s.refusalOf chip b pa write = some e := by
  have hadmission : ∃ e, s.admission (leafKey b.leaf) b.secure b.asid chip = some e := by
    simp only [State.admission, hkey, hchip, Bool.not_true, Bool.not_false, Bool.or_true, Bool.false_eq_true, ↓reduceIte]
    split
    · exact ⟨_, rfl⟩
    · exact ⟨_, rfl⟩
  obtain ⟨e, he⟩ := hadmission
  unfold State.refusalOf
  rw [he]
  split
  · exact ⟨_, rfl⟩
  · split
    · exact ⟨_, rfl⟩
    · split <;> exact ⟨_, rfl⟩

end

end Sys2Proof.Machine
end

section
/-! PROOF. Acknowledgements of outside homes (R26, R128, R132, R136). -/
namespace Sys2Proof.Machine
open Sys2Proof

/-- The row that an acknowledgement names. -/
def State.ackedRow (s : State) : Option StoreRow :=
  s.mu.storeQ.find? (fun r => r.place != .queued && s.target r.bound.leaf != 0 && r.id == s.input.n)

/-- The state without an acknowledged row, and without its request on the fabric. -/
def State.freeRow (s : State) (r : StoreRow) : State := (s.removeRow r).answered (.store r.id)

/-- The late-fault tag of a row is set for the bound task (R132). -/
def State.tagOfRow (s : State) (r : StoreRow) : State :=
  match r.timed.bind (fun t => t.tag) with
  | some g => s.tagDone g.toNat
  | none => s

theorem tagOfRow_untimed {s : State} {r : StoreRow} (htimed : r.timed = none) : s.tagOfRow r = s := by
  simp only [State.tagOfRow, htimed, Option.bind_none]

theorem refuseStore_of_bound {s : State} {r : StoreRow} (c : Cause) (tv : Option Word64) (hbound : s.isBound r.task = true) :
    s.refuseStore r c tv = { s.tagOfRow r with mu := { (s.tagOfRow r).mu with deferred := (s.tagOfRow r).mu.deferred ++ [r.refusal c tv] } } := by
  have hdone (g : BitVec 6) : (s.tagDone g.toNat).isBound r.task = true := hbound
  unfold State.refuseStore State.tagOfRow
  cases r.timed.bind (fun t => t.tag) with
  | none => simp only [hbound, ↓reduceIte]; rfl
  | some g => simp only [State.tagDoneOf, hbound, hdone, ↓reduceIte]; rfl

section
variable {s : State} {r : StoreRow}

theorem storeAck_arrived (h : s.ackedRow = some r) (harrived : s.input.flag2 = true) :
    Completes .storeAck s (if r.timed.isSome then (s.placeRow r .timedBuffer).kick else s) := by
  unfold State.ackedRow at h
  show execStoreAck s = _
  simp only [execStoreAck, h, harrived, ↓reduceIte]
  rfl

theorem storeAck_refused {c : Cause} (h : s.ackedRow = some r) (hends : s.input.flag2 = false) (hcause : s.input.cause = some c) :
    Completes .storeAck s ((s.freeRow r).refuseStore r c (if c = .race then some s.input.v else none)).kick := by
  unfold State.ackedRow at h
  show execStoreAck s = _
  simp only [execStoreAck, h, hends, hcause, Bool.false_eq_true, ↓reduceIte]
  rfl

theorem storeAck_late {x : Timed} (h : s.ackedRow = some r) (hends : s.input.flag2 = false) (hcause : s.input.cause = none)
    (htimed : r.timed = some x) (hlate : s.input.flag = true) :
    Completes .storeAck s ((s.freeRow r).late r x s.input.w.toNat).kick := by
  unfold State.ackedRow at h
  show execStoreAck s = _
  simp only [execStoreAck, h, hends, hcause, htimed, hlate, Bool.false_eq_true, ↓reduceIte]
  rfl

theorem storeAck_done (h : s.ackedRow = some r) (hends : s.input.flag2 = false) (hcause : s.input.cause = none)
    (hdone : r.timed = none ∨ s.input.flag = false) (hbound : (s.freeRow r).isBound r.task = true) :
    Completes .storeAck s ((s.freeRow r).tagOfRow r).kick := by
  unfold State.ackedRow at h
  unfold State.freeRow at hbound ⊢
  show execStoreAck s = _
  cases htimed : r.timed with
  | none =>
    simp only [execStoreAck, h, hends, hcause, htimed, Bool.false_eq_true, ↓reduceIte, tagOfRow_untimed htimed]
    rfl
  | some x =>
    have hflag : s.input.flag = false := hdone.resolve_left (by rw [htimed]; exact Option.some_ne_none x)
    simp only [execStoreAck, h, hends, hcause, htimed, hflag, Bool.false_eq_true, ↓reduceIte, State.tagOfRow, Option.bind_some]
    cases x.tag with
    | none => rfl
    | some g =>
      simp only [State.tagDoneOf, hbound, ↓reduceIte]
      rfl

end

theorem tagDone_csrOf (s : State) (t n : Nat) :
    (s.tagDone t).csrOf n = if n = 0x1A then putBit (s.csrOf 0x1A) t false else if n = 0x19 then putBit (s.csrOf 0x19) t true else s.csrOf n := by
  simp only [State.tagDone, csrOf_setCsr, tagEnds_csrOf]

/-- What the end of a store of the bound task leaves as it was, but for its lateness and the refusals that are held: memory, the scalar
registers, the sequencers and the store queue, and every CSR but LATE, LATEMASK and the tags, of which a late-fault tag is set. -/
structure EndsStore (r : StoreRow) (s t : State) : Prop where
  mem : t.mem = s.mem
  sc : t.sc = s.sc
  seqs : t.seqs = s.seqs
  storeQ : t.mu.storeQ = s.mu.storeQ
  csrs : KeepsCsrsBut [0x12, 0x13, 0x19, 0x1A] s t
  tag : ∀ x g, r.timed = some x → x.tag = some g → t.csrOf 0x19 = putBit (s.csrOf 0x19) g.toNat true

theorem tagOfRow_ends (s : State) (r : StoreRow) :
    EndsStore r s (s.tagOfRow r) ∧ (s.tagOfRow r).csrOf 0x12 = s.csrOf 0x12 ∧ (s.tagOfRow r).csrOf 0x13 = s.csrOf 0x13 ∧
      (s.tagOfRow r).mu.deferred = s.mu.deferred := by
  cases htag : r.timed.bind (fun t => t.tag) with
  | none =>
    have hnone (x : Timed) (g : BitVec 6) (htimed : r.timed = some x) : x.tag ≠ some g := by
      rw [htimed, Option.bind_some] at htag
      rw [htag]
      exact (Option.some_ne_none g).symm
    have hsame : s.tagOfRow r = s := by rw [State.tagOfRow, htag]
    rw [hsame]
    exact ⟨⟨rfl, rfl, rfl, rfl, fun _ _ _ => rfl, fun x g htimed h => absurd h (hnone x g htimed)⟩, rfl, rfl, rfl⟩
  | some g =>
    have hdone : s.tagOfRow r = s.tagDone g.toNat := by rw [State.tagOfRow, htag]
    rw [hdone]
    refine ⟨⟨rfl, rfl, rfl, rfl, fun n _ hn => ?_, fun x g' htimed h => ?_⟩, ?_, ?_, rfl⟩
    · simp only [List.mem_cons, List.not_mem_nil, or_false, not_or] at hn
      obtain ⟨-, -, htags, hpending⟩ := hn
      rw [tagDone_csrOf, if_neg hpending, if_neg htags]
    · rw [htimed, Option.bind_some, h] at htag
      rw [tagDone_csrOf, Option.some.inj htag]
      rfl
    · exact tagDone_csrOf s _ _
    · exact tagDone_csrOf s _ _

theorem refuseStore_ends {s : State} {r : StoreRow} (c : Cause) (tv : Option Word64) (hbound : s.isBound r.task = true) :
    EndsStore r s (s.refuseStore r c tv) ∧ (s.refuseStore r c tv).csrOf 0x12 = s.csrOf 0x12 ∧
      (s.refuseStore r c tv).csrOf 0x13 = s.csrOf 0x13 ∧ (s.refuseStore r c tv).mu.deferred = s.mu.deferred ++ [r.refusal c tv] := by
  obtain ⟨⟨hmem, hsc, hseqs, hrows, hcsrs, htag⟩, hlate, hmask, hheld⟩ := tagOfRow_ends s r
  rw [refuseStore_of_bound c tv hbound]
  exact ⟨⟨hmem, hsc, hseqs, hrows, hcsrs, htag⟩, hlate, hmask, congrArg (· ++ [r.refusal c tv]) hheld⟩

theorem late_aside (s : State) (r : StoreRow) (x : Timed) (n : Nat) : (s.late r x n).aside = s.aside := by
  unfold State.late
  dsimp only
  split <;> simp

theorem late_ends {s : State} {r : StoreRow} {x : Timed} (n : Nat) (hbound : s.isBound r.task = true) (htimed : r.timed = some x) :
    EndsStore r s (s.late r x n) ∧ (s.late r x n).csrOf 0x12 = lateUpdate (s.csrOf 0x12) x.scope n x.tag.isNone ∧
      (∀ g, x.tag = some g → ((s.late r x n).csrOf 0x13).getLsbD g.toNat = true) ∧ (s.late r x n).mu.deferred = s.mu.deferred := by
  cases htag : x.tag with
  | none =>
    rw [late_of_untagged n hbound htag]
    refine ⟨⟨rfl, rfl, rfl, rfl, fun k _ hk => ?_, fun y g hy h => ?_⟩, ?_, fun g h => absurd h.symm (Option.some_ne_none g), rfl⟩
    · simp only [List.mem_cons, List.not_mem_nil, or_false, not_or] at hk
      rw [csrOf_setCsr, if_neg hk.1]
    · rw [Option.some.inj (htimed.symm.trans hy), h] at htag
      cases htag
    · rw [csrOf_setCsr, if_pos rfl, Option.isNone_none]
  | some g =>
    obtain ⟨hmask, hlate, hset⟩ := late_of_tagged_csrOf n hbound htag
    refine ⟨⟨?_, ?_, ?_, ?_, fun k _ hk => ?_, fun y g' hy h => ?_⟩, ?_, fun g' h => ?_, ?_⟩
    · exact (late_of_tagged_keeps n hbound htag).1
    · exact congrArg (fun v => v.1) (late_aside s r x n)
    · exact congrArg (fun v => v.2.1) (late_aside s r x n)
    · rw [(late_of_tagged_keeps n hbound htag).2]
    · simp only [List.mem_cons, List.not_mem_nil, or_false, not_or] at hk
      obtain ⟨hlateReg, hmaskReg, htags, hpending⟩ := hk
      rw [late_of_tagged n hbound htag, csrOf_setCsr, if_neg hmaskReg, tagDone_csrOf, if_neg hpending, if_neg htags, csrOf_setCsr,
        if_neg hlateReg]
    · rw [Option.some.inj (htimed.symm.trans hy), h] at htag
      rw [hset, Option.some.inj htag]
    · rw [hlate, Option.isNone_some]
    · rw [← Option.some.inj h]
      exact hmask
    · rw [(late_of_tagged_keeps n hbound htag).2]

end Sys2Proof.Machine
end

section
/-! PROOF. What an acknowledgement leaves, and answers to the waiting word (R25, R26, R378). -/
namespace Sys2Proof.Machine
open Sys2Proof

/-- The refusal that an acknowledgement brings is held for its task; RACE brings its TVALUE, another cause names the row (R26). -/
def State.heldAfter (s : State) (r : StoreRow) : List Deferred :=
  match s.input.cause with
  | none => s.mu.deferred
  | some c => s.mu.deferred ++ [⟨c, r.pc, r.bound.va, if c = .race then s.input.v else BitVec.ofNat 64 r.row⟩]

theorem refusal_of_race (r : StoreRow) (c : Cause) (v : Word64) :
    r.refusal c (if c = .race then some v else none) = ⟨c, r.pc, r.bound.va, if c = .race then v else BitVec.ofNat 64 r.row⟩ := by
  unfold StoreRow.refusal
  split <;> rfl

/-- The end of a store of the bound task as an acknowledgement brings it, seen on the state without the row. -/
structure AckEnds (s : State) (r : StoreRow) (t : State) : Prop where
  ends : EndsStore r (s.freeRow r) t
  late : ∀ x, s.input.cause = none → r.timed = some x → s.input.flag = true →
    t.csrOf 0x12 = lateUpdate ((s.freeRow r).csrOf 0x12) x.scope s.input.w.toNat x.tag.isNone ∧
      ∀ g, x.tag = some g → (t.csrOf 0x13).getLsbD g.toNat = true
  inTime : r.timed = none ∨ s.input.flag = false ∨ s.input.cause ≠ none →
    t.csrOf 0x12 = (s.freeRow r).csrOf 0x12 ∧ t.csrOf 0x13 = (s.freeRow r).csrOf 0x13
  held : t.mu.deferred = s.heldAfter r

theorem storeAck_completes {s : State} {r : StoreRow} (h : s.ackedRow = some r) (hends : s.input.flag2 = false)
    (hbound : (s.freeRow r).isBound r.task = true) (hheld : (s.freeRow r).mu.deferred = s.mu.deferred) :
    ∃ t, Completes .storeAck s t.kick ∧ AckEnds s r t := by
  cases hcause : s.input.cause with
  | some c =>
    obtain ⟨hkept, hlate, hmask, hdeferred⟩ := refuseStore_ends c (if c = .race then some s.input.v else none) hbound
    refine ⟨_, storeAck_refused h hends hcause, hkept, fun x hnone => ?_, fun _ => ⟨hlate, hmask⟩, ?_⟩
    · rw [hcause] at hnone
      cases hnone
    · rw [hdeferred, hheld, refusal_of_race, State.heldAfter, hcause]
  | none =>
    have hafter : s.heldAfter r = s.mu.deferred := by rw [State.heldAfter, hcause]
    by_cases hdone : r.timed = none ∨ s.input.flag = false
    · obtain ⟨hkept, hlate, hmask, hdeferred⟩ := tagOfRow_ends (s.freeRow r) r
      refine ⟨_, storeAck_done h hends hcause hdone hbound, hkept, fun x _ htimed hflag => ?_, fun _ => ⟨hlate, hmask⟩,
        (hdeferred.trans hheld).trans hafter.symm⟩
      rw [htimed, hflag] at hdone
      simp at hdone
    · obtain ⟨htimed, hflag⟩ := not_or.mp hdone
      obtain ⟨x, hx⟩ := Option.ne_none_iff_exists'.mp htimed
      have hlateFlag : s.input.flag = true := by simpa using hflag
      obtain ⟨hkept, hlate, hmask, hdeferred⟩ := late_ends s.input.w.toNat hbound hx
      refine ⟨_, storeAck_late h hends hcause hx hlateFlag, hkept, fun y _ hy _ => ?_, fun hother => ?_,
        (hdeferred.trans hheld).trans hafter.symm⟩
      · obtain rfl := Option.some.inj (hx.symm.trans hy)
        exact ⟨hlate, hmask⟩
      · simp [htimed, hlateFlag, hcause] at hother

/-- The acknowledgement of an outside home frees the row of the bound task (R26, R128, R132). -/
theorem storeAck_frees {s : State} {r : StoreRow} (h : s.ackedRow = some r) (hbound : s.isBound r.task = true)
    (hends : s.input.flag2 = false) :
    ∃ t, exec .storeAck s = .next t ∧ t.last = .done ∧ t.mem.bytes = s.mem.bytes ∧ t.mem.gran = s.mem.gran ∧ t.sc = s.sc ∧
      t.seqs = s.seqs ∧ t.mu.storeQ = s.mu.storeQ.filter (fun x => x.id != r.id) ∧ KeepsCsrsBut [0x12, 0x13, 0x19, 0x1A] s t ∧
      (∀ x g, r.timed = some x → x.tag = some g → t.csrOf 0x19 = putBit (s.csrOf 0x19) g.toNat true) ∧
      (∀ x, s.input.cause = none → r.timed = some x → s.input.flag = true →
        t.csrOf 0x12 = lateUpdate (s.csrOf 0x12) x.scope s.input.w.toNat x.tag.isNone ∧
          ∀ g, x.tag = some g → (t.csrOf 0x13).getLsbD g.toNat = true) ∧
      ((r.timed = none ∨ s.input.flag = false ∨ s.input.cause ≠ none) → t.csrOf 0x12 = s.csrOf 0x12 ∧ t.csrOf 0x13 = s.csrOf 0x13) ∧
      t.mu.deferred = s.heldAfter r := by
  obtain ⟨pkg, hfree⟩ := onlyPackage_answered (s.removeRow r) (.store r.id)
  change s.freeRow r = { s.removeRow r with pkg := pkg } at hfree
  obtain ⟨t, hexec, ⟨hmem, hsc, hseqs, hrows, hcsrs, htag⟩, hlate, hintime, hheld⟩ :=
    storeAck_completes h hends (by rw [hfree]; exact hbound) (by rw [hfree]; rfl)
  rw [hfree] at hmem hsc hseqs hrows hcsrs htag hlate hintime
  obtain ⟨l, hkick⟩ := posts_kick t
  rw [hkick] at hexec
  have hbytes := congrArg Memory.bytes hmem
  have hgran := congrArg Memory.gran hmem
  exact ⟨_, hexec, rfl, hbytes, hgran, hsc, hseqs, hrows, hcsrs, htag, hlate, hintime, hheld⟩

/-- The answer to a request goes to the control sequencer's word alone where no operation of the engines asked for it. -/
theorem loadReturn_answers {s : State} {pc : Addr} {id : Nat} (hwaits : s.mu.remote = .waiting pc id)
    (hunasked : ∀ o, o ∈ s.eng.ops → s.input.req ∉ o.asks) :
    ∃ t, exec .loadReturn s = .next t ∧ t.last = .done ∧
      t.mu.remote = (if id = s.input.req then .answered pc s.input.v s.input.cause else s.mu.remote) ∧ t.mem = s.mem ∧ t.sc = s.sc ∧
      t.seqs = s.seqs ∧ t.csr = s.csr := by
  obtain ⟨pkg, hsettled⟩ := onlyPackage_settleId s s.input.req
  have hnone : s.eng.ops.find? (fun o => o.asks.contains s.input.req) = none :=
    List.find?_eq_none.mpr (fun o ho => by simpa using hunasked o ho)
  have hexec : exec .loadReturn s =
      .next ((s.settleId s.input.req).returned s.input.req s.input.v s.input.data s.input.cause).completed := rfl
  have hwaits1 : (s.settleId s.input.req).mu.remote = .waiting pc id := by rw [hsettled]; exact hwaits
  refine ⟨_, hexec, rfl, ?_⟩
  by_cases hid : id = s.input.req
  · subst hid
    rw [State.returned, answer_of_waiting _ _ hwaits1, State.tilesCome, hsettled]
    simp only [State.goAnswered, State.hwAnswered, hnone, ↓reduceIte]
    exact ⟨rfl, rfl, rfl, rfl, rfl⟩
  · rw [State.returned, answer_of_other _ _ hwaits1 hid, State.tilesCome, hsettled, if_neg hid]
    simp only [State.goAnswered, State.hwAnswered, hnone]
    exact ⟨rfl, rfl, rfl, rfl, rfl⟩

end Sys2Proof.Machine
end

section
/-! PROOF. StoreAtHome (O12). -/
namespace Sys2Proof.Machine
open Sys2Proof

/-- Settles O12: each event is taken by the way its row or its request goes, from the store queue (`storeQueueDepart_…`) to a home here
(`homeAccess_of_ok`, `homeAccess_of_error`) or outside (`storeAck_frees`); other chips are served by `State.servePeer`. -/
theorem storeAtHome : Obligations.StoreAtHome := by
  unfold Obligations.StoreAtHome
  intro s
  refine ⟨fun r hrow => ⟨storeQueueDepart_of_waiting hrow, storeQueueDepart_sends hrow, storeQueueDepart_of_refused hrow, rfl⟩,
    storeQueueDepart_of_none, fun r hown hrow => ⟨fun c u hwrite hcell hfit => homeAccess_of_ok hown hrow hwrite hcell hfit,
      fun e hwrite => homeAccess_of_error hown hrow hwrite⟩, fun hserved => ?_, fun r hrow harrived => ?_,
    fun r hrow hbound hends => storeAck_frees hrow hbound hends, fun pc id hwaits hunasked => loadReturn_answers hwaits hunasked⟩
  · have hserve := homeAccess_serves hserved
    refine ⟨fun hstopped => ?_, fun hruns => ⟨fun e hrefused => ?_, fun hkey _ hchip => refusalOf_of_not_admitted hkey hchip,
      fun c hfree hcell hread hpoison => ?_⟩⟩
    · exact completes_of_eq hserve (servePeer_of_stopped hstopped)
    · exact completes_of_eq hserve (servePeer_of_refused hruns hrefused)
    · exact completes_of_eq hserve (servePeer_reads hruns hfree hcell hread hpoison)
  · have harrives := storeAck_arrived hrow harrived
    refine ⟨fun huntimed => ?_, fun htimed => ?_⟩
    · rwa [huntimed] at harrives
    · rwa [if_pos (Option.isSome_iff_ne_none.mpr htimed)] at harrives

end Sys2Proof.Machine
end

section
/-! PROOF. The values that the scalar words write (R209, R210, R214, R215), in the words of the statements. -/
namespace Sys2Proof.Machine
open Sys2Proof

theorem ctz64_zero : ctz64 0 = 64 := by decide

/-- The number of the lowest one bit. -/
theorem ctz64_lowest {w : Word64} (h : w ≠ 0) :
    ctz64 w < 64 ∧ w.getLsbD (ctz64 w) = true ∧ ∀ j, j < ctz64 w → w.getLsbD j = false := by
  cases hfind : (List.range 64).find? (fun i => w.getLsbD i) with
  | none =>
    refine absurd (BitVec.eq_of_getLsbD_eq (fun i hi => ?_)) h
    simpa using List.find?_eq_none.mp hfind i (List.mem_range.mpr hi)
  | some k =>
    have hk : ctz64 w = k := by rw [ctz64, hfind, Option.getD_some]
    obtain ⟨hset, hlt, hbelow⟩ := List.find?_range_eq_some.mp hfind
    rw [hk]
    exact ⟨List.mem_range.mp hlt, hset, fun j hj => by simpa using hbelow j hj⟩

/-- The one bits of a word, counted by adding them. -/
theorem popc64_eq_sum (w : Word64) : popc64 w = ((List.range 64).map (fun i => (w.getLsbD i).toNat)).sum := by
  rw [popc64]
  induction List.range 64 with
  | nil => rfl
  | cons i l ih => cases h : w.getLsbD i <;> simp [h, ih, Nat.add_comm]

/-- The remainder that R210 gives is what the truncated quotient leaves of the dividend. -/
theorem divide_signed_snd (a b : Word64) :
    (divide true a b).2 = if b = 0 then a else a - BitVec.ofInt 64 (a.toInt.tdiv b.toInt) * b := by
  have hwhole : BitVec.ofInt 64 (a.toInt.tmod b.toInt) + BitVec.ofInt 64 (a.toInt.tdiv b.toInt) * b = a := by
    calc BitVec.ofInt 64 (a.toInt.tmod b.toInt) + BitVec.ofInt 64 (a.toInt.tdiv b.toInt) * b
        = BitVec.ofInt 64 (a.toInt.tmod b.toInt + a.toInt.tdiv b.toInt * b.toInt) := by
          rw [BitVec.ofInt_add, BitVec.ofInt_mul, BitVec.ofInt_toInt]
      _ = a := by rw [Int.tmod_add_tdiv_mul, BitVec.ofInt_toInt]
  rw [divide, apply_ite Prod.snd]
  exact ite_congr rfl (fun _ => rfl) (fun _ => BitVec.eq_sub_iff_add_eq.mpr hwhole)

theorem divide_unsigned_snd (a b : Word64) :
    (divide false a b).2 = if b = 0 then a else a - BitVec.ofNat 64 (a.toNat / b.toNat) * b := by
  have hwhole : BitVec.ofNat 64 (a.toNat % b.toNat) + BitVec.ofNat 64 (a.toNat / b.toNat) * b = a := by
    calc BitVec.ofNat 64 (a.toNat % b.toNat) + BitVec.ofNat 64 (a.toNat / b.toNat) * b
        = BitVec.ofNat 64 (a.toNat % b.toNat + a.toNat / b.toNat * b.toNat) := by
          rw [BitVec.ofNat_add, BitVec.ofNat_mul, BitVec.ofNat_toNat, BitVec.setWidth_eq]
      _ = a := by rw [Nat.add_comm, Nat.div_add_mod', BitVec.ofNat_toNat, BitVec.setWidth_eq]
  rw [divide, apply_ite Prod.snd]
  exact ite_congr rfl (fun _ => rfl) (fun _ => BitVec.eq_sub_iff_add_eq.mpr hwhole)

theorem divide_fst (signed : Bool) (a b : Word64) :
    (divide signed a b).1 = if b = 0 then 0xFFFFFFFFFFFFFFFF
      else if signed then BitVec.ofInt 64 (a.toInt.tdiv b.toInt) else w64 (a.toNat / b.toNat) := by
  rw [divide, apply_ite Prod.fst, apply_ite Prod.fst]
  exact ite_congr rfl (fun _ => rfl) (fun _ => rfl)

/-- Not less is greater or equal, signed. -/
theorem not_slt_eq_decide (a b : Word64) : (!a.slt b) = decide (b.toInt ≤ a.toInt) := by
  rw [BitVec.slt_eq_decide, ← decide_not, decide_eq_decide, Int.not_lt]

theorem not_ult_eq_decide (a b : Word64) : (!a.ult b) = decide (b.toNat ≤ a.toNat) := by
  rw [BitVec.ult_eq_decide, ← decide_not, decide_eq_decide, Nat.not_lt]

/-- A choice by a condition said in other words. -/
theorem ite_of_iff {α : Type} {p q : Prop} [Decidable p] [Decidable q] (h : p ↔ q) (x y : α) :
    (if p then x else y) = if q then x else y :=
  ite_congr (propext h) (fun _ => rfl) (fun _ => rfl)

/-- A choice by a signed compare. -/
theorem ite_slt (a b x y : Word64) : (if a.slt b then x else y) = if a.toInt < b.toInt then x else y :=
  ite_of_iff BitVec.slt_iff_toInt_lt x y

theorem ite_ult (a b x y : Word64) : (if a.ult b then x else y) = if a.toNat < b.toNat then x else y :=
  ite_of_iff BitVec.ult_iff_lt x y

/-- The upper bits of an address, as ahi reads them (R213). -/
theorem setWidth_ushiftRight_64 (a : Addr) : (a >>> 64).setWidth 64 = BitVec.ofNat 64 (a.toNat / 2 ^ 64) := by
  refine BitVec.eq_of_toNat_eq ?_
  rw [BitVec.toNat_setWidth, BitVec.toNat_ushiftRight, BitVec.toNat_ofNat, Nat.shiftRight_eq_div_pow]

/-- The value that movk leaves (R212). -/
theorem getLsbD_put_halfword (w : Word64) (h : BitVec 2) (c : BitVec 16) (k : Nat) :
    (put w (16 * h.toNat) 16 c.toNat).getLsbD k =
      if 16 * h.toNat ≤ k ∧ k < 16 * h.toNat + 16 then c.getLsbD (k - 16 * h.toNat) else w.getLsbD k :=
  getLsbD_put w _ _ _ k (by omega)

theorem holds_eq_xor (s : State) (q : Seq) (n : BitVec 1) (p : BitVec 4) : s.holds q n p = (s.pred q p ^^ (n == 1)) := by
  rfl

/-- The predicates as prd reads them (R214). -/
theorem getLsbD_prd (s : State) (k : BitVec 4) :
    ((s.seqs.control.p ||| 1).setWidth 64 : Word64).getLsbD k.toNat = s.pred .control k := by
  have hone : (1 : BitVec 16).getLsbD k.toNat = (k == 0) := by revert k; decide
  rw [BitVec.getLsbD_setWidth, BitVec.getLsbD_or, hone, State.pred, Bool.or_comm]
  have hk : k.toNat < 64 := by omega
  simp only [hk, decide_true, Bool.true_and]
  rfl

theorem prd_lt (s : State) : ((s.seqs.control.p ||| 1).setWidth 64 : Word64).toNat < 2 ^ 16 := by
  rw [BitVec.toNat_setWidth]
  exact Nat.lt_of_le_of_lt (Nat.mod_le _ _) (s.seqs.control.p ||| 1).isLt

/-- The predicates as pwr sets them: p1 to p15 (R214). -/
theorem getLsbD_pwr (p : BitVec 16) (x : Word64) {k : BitVec 4} (h : k ≠ 0) :
    (put p 1 15 (fld x 1 15)).getLsbD k.toNat = x.getLsbD k.toNat := by
  have hpos : 1 ≤ k.toNat := Nat.one_le_iff_ne_zero.mpr (fun h0 => h (BitVec.eq_of_toNat_eq h0))
  have hlow : k.toNat - 1 < 15 := by omega
  rw [getLsbD_put p 1 15 _ _ (by decide), if_pos ⟨hpos, k.isLt⟩, testBit_fld, Nat.add_sub_cancel' hpos, decide_eq_true hlow, Bool.true_and]

end Sys2Proof.Machine
end

section
/-! PROOF. The scalar words that write one register or predicate (O1 to O5). -/
namespace Sys2Proof.Machine
open Sys2Proof

/-- A meaning that is `writeG` of a value that the statement says in other words. -/
theorem writesG_of_value {i : Instr} {d : BitVec 5} {u v : State → Word64} (hexec : ∀ s, exec i s = writeG d (u s) s)
    (hvalue : ∀ s, u s = v s) : WritesG i d v :=
  writesG_of i d v (fun s => by rw [hexec, hvalue])

theorem writesP_of_value {i : Instr} {d : BitVec 4} {u v : State → Bool} (hexec : ∀ s, exec i s = writeP d (u s) s)
    (hvalue : ∀ s, u s = v s) : WritesP i (onePred d v) :=
  writesP_one i d v (fun s => by rw [hexec, hvalue])

/-- Settles O1: every word is `writeG` of its value; the minima and maxima choose by `BitVec.slt` and `BitVec.ult`, and the bit counts
are those of `ctz64_lowest` and `popc64_eq_sum`. -/
theorem integerWords : Obligations.IntegerWords := by
  unfold Obligations.IntegerWords
  refine ⟨fun d a b => ⟨?_, ?_, ?_, ?_, ?_, ?_, ?_, ?_, ?_, ?_, ?_, ?_, ?_, writesG_of_value (fun _ => rfl) (fun _ => ite_slt _ _ _ _),
      writesG_of_value (fun _ => rfl) (fun _ => ite_slt _ _ _ _), writesG_of_value (fun _ => rfl) (fun _ => ite_ult _ _ _ _),
      writesG_of_value (fun _ => rfl) (fun _ => ite_ult _ _ _ _), ?_, ?_⟩,
    fun d a => ⟨?_, ?_, ?_, ?_, ?_, ⟨fun w => w64 (ctz64 w), fun w => ⟨fun h => ?zero, fun h => ?lowest⟩, ?_⟩,
      writesG_of_value (fun _ => rfl) (fun s => congrArg w64 (popc64_eq_sum (s.gReg a)))⟩⟩
  case zero => exact h ▸ congrArg w64 ctz64_zero
  case lowest =>
    obtain ⟨hlt, hset, hbelow⟩ := ctz64_lowest h
    have hnum : (w64 (ctz64 w)).toNat = ctz64 w := Nat.mod_eq_of_lt (Nat.lt_trans hlt (by decide))
    simp only [hnum]
    exact ⟨hlt, hset, hbelow⟩
  all_goals exact writesG_of _ _ _ (fun _ => rfl)

/-- Settles O2: the quotient by `divide_fst`, the remainder by `divide_signed_snd` and `divide_unsigned_snd`. -/
theorem divisionWords : Obligations.DivisionWords := by
  unfold Obligations.DivisionWords
  exact ⟨fun d a b => ⟨writesG_of_value (fun _ => rfl) (fun _ => divide_fst true _ _),
    writesG_of_value (fun _ => rfl) (fun _ => divide_fst false _ _), writesG_of_value (fun _ => rfl) (fun _ => divide_signed_snd _ _),
    writesG_of_value (fun _ => rfl) (fun _ => divide_unsigned_snd _ _)⟩, by decide⟩

/-- Settles O3: every word is `writeA` or `writeG` of its value; movk's is that of `getLsbD_put_halfword`. -/
theorem addressAndImmediateWords : Obligations.AddressAndImmediateWords := by
  unfold Obligations.AddressAndImmediateWords
  refine ⟨fun d a b => ⟨?_, ?_, ?_, ?_, fun i => ?_, ?_, ?_, writesG_of_value (fun _ => rfl) (fun s => setWidth_ushiftRight_64 (s.aReg a))⟩,
    fun d a i => ⟨?_, ?_, ?_, ?_⟩, fun d a n => ⟨?_, ?_, ?_, ?_⟩, fun d i => ?_,
    fun d h c => ⟨fun w => put w (16 * h.toNat) 16 c.toNat, ?_, fun w k => getLsbD_put_halfword w h c k⟩⟩
  iterate 5 exact writesA_of _ _ _ (fun _ => rfl)
  all_goals exact writesG_of _ _ _ (fun _ => rfl)

/-- The word pwr sets the predicates of the control sequencer (R214). -/
theorem pwr_writesP (a : BitVec 5) : WritesP (.pwr a) (fun s k => (s.gReg a).getLsbD k.toNat) :=
  writesP_of _ _ (fun s => put s.seqs.control.p 1 15 (fld (s.gReg a) 1 15)) (fun _ => rfl) (fun _ _ hk => getLsbD_pwr _ _ hk)

/-- Settles O4: every word is `writeP` of its relation, but prd and pwr, which move all sixteen predicates (`getLsbD_prd`,
`getLsbD_pwr`). -/
theorem predicateWords : Obligations.PredicateWords := by
  unfold Obligations.PredicateWords
  refine ⟨⟨fun d a b => ⟨?_, ?_, writesP_of_value (fun _ => rfl) (fun _ => BitVec.slt_eq_decide),
      writesP_of_value (fun _ => rfl) (fun _ => not_slt_eq_decide _ _), writesP_of_value (fun _ => rfl) (fun _ => BitVec.ult_eq_decide),
      writesP_of_value (fun _ => rfl) (fun _ => not_ult_eq_decide _ _), ?_, writesP_of_value (fun _ => rfl) (fun _ => BitVec.ult_eq_decide), ?_⟩,
    fun d a i => ⟨?_, ?_, writesP_of_value (fun _ => rfl) (fun _ => BitVec.slt_eq_decide),
      writesP_of_value (fun _ => rfl) (fun _ => not_slt_eq_decide _ _), writesP_of_value (fun _ => rfl) (fun _ => BitVec.ult_eq_decide),
      writesP_of_value (fun _ => rfl) (fun _ => not_ult_eq_decide _ _)⟩⟩,
    fun d a b => ⟨?_, ?_, ?_, ?_⟩,
    fun d => ⟨fun s => (s.seqs.control.p ||| 1).setWidth 64, writesG_of _ _ _ (fun _ => rfl),
      fun s k => ⟨getLsbD_prd s k, prd_lt s⟩⟩, pwr_writesP⟩
  all_goals exact writesP_one _ _ _ (fun _ => rfl)

end Sys2Proof.Machine
end

section
/-! PROOF. Selects (R216), and the words of opcode 0x0E that name none (O5). -/
namespace Sys2Proof.Machine
open Sys2Proof

/-- A word that names no instruction of its space. -/
theorem decode_of_unidentified {sp : Space} {w : Word32} (h : ident sp w = none) : decode sp w = .error .illegal := by
  simp only [decode, h]

/-- A word whose fields are those of an instruction, with a reserved field that is not zero. -/
theorem decode_of_reserved {sp : Space} {w : Word32} {r : Ident} (h : ident sp w = some r) (hlegal : r.instr.illegalField = false)
    (hreserved : r.reservedOk = false) : decode sp w = .error .reservedBits := by
  simp only [decode, h, hlegal, hreserved, Bool.false_eq_true, Bool.not_false, Bool.true_or, ↓reduceIte]

theorem ident_op0E {w : Word32} (h : bits w 26 6 = 0x0E) : ident .control w = identControlOp0E w := by
  simp only [ident, identControl, h]
  rfl

/-- The kinds of opcode 0x0E from 2 on stand for nothing. -/
theorem identControlOp0E_of_kind_ge {w : Word32} (h : 2 ≤ (bits w 6 5).toNat) : identControlOp0E w = none := by
  have hne {k : BitVec 5} (hk : k.toNat < 2) : bits w 6 5 ≠ k := fun he => by rw [he] at h; omega
  rw [identControlOp0E, if_neg (hne (by decide)), if_neg (hne (by decide))]

/-- Kinds 0 and 1 are sel and asel, whose bit 5 is reserved. -/
theorem identControlOp0E_of_kind_lt {w : Word32} (h : (bits w 6 5).toNat < 2) (hbit : bits w 5 1 = 1) :
    ∃ r, identControlOp0E w = some r ∧ r.reservedOk = false ∧ r.instr.illegalField = false := by
  rw [identControlOp0E]
  by_cases hzero : bits w 6 5 = 0x0#5
  · exact ⟨_, if_pos hzero, by rw [hbit]; rfl, rfl⟩
  · have hone : bits w 6 5 = 0x1#5 := by
      have hpos : (bits w 6 5).toNat ≠ 0 := fun h0 => hzero (BitVec.eq_of_toNat_eq h0)
      exact BitVec.eq_of_toNat_eq (show (bits w 6 5).toNat = 1 by omega)
    exact ⟨_, by rw [if_neg hzero, if_pos hone], by rw [hbit]; rfl, rfl⟩

/-- Settles O5: the selects by `holds_eq_xor`; the other words of opcode 0x0E by what `identControlOp0E` makes of their kind. -/
theorem selectWords : Obligations.SelectWords := by
  unfold Obligations.SelectWords
  refine ⟨fun d a b n p => ⟨writesG_of _ _ _ (fun s => ?_), writesA_of _ _ _ (fun s => ?_)⟩,
    fun w hop => ⟨fun hkind => ?_, fun hkind hbit => ?_⟩⟩
  · rw [← holds_eq_xor]
    rfl
  · rw [← holds_eq_xor]
    rfl
  · exact decode_of_unidentified ((ident_op0E hop).trans (identControlOp0E_of_kind_ge hkind))
  · obtain ⟨r, hident, hreserved, hlegal⟩ := identControlOp0E_of_kind_lt hkind hbit
    exact decode_of_reserved ((ident_op0E hop).trans hident) hlegal hreserved

end Sys2Proof.Machine
end

section
/-! PROOF. Words that change one sequencer: jumps, branches and nops (R193, R194, R217, R218). -/
namespace Sys2Proof.Machine
open Sys2Proof

theorem raises_of {i : Instr} {q : Seq} {s : State} {c : Cause} {tv : Word64} {a : Addr}
    (h : exec i s = finish q s (.trap c tv a)) : Raises i q s c tv a := h

theorem completes_of {i : Instr} {q : Seq} {s t : State} (h : exec i s = finish q s (.ok t)) : Completes i s t := h

@[simp] theorem completed_seqOf (s : State) (q : Seq) : s.completed.seqOf q = s.seqOf q := rfl
@[simp] theorem completed_pcOf (s : State) (q : Seq) : s.completed.pcOf q = s.pcOf q := rfl

/-- Replacing the registers of a sequencer changes nothing else. -/
theorem onlySequencer_setSeq (s : State) (q : Seq) (x : SeqRegs) : OnlySequencer q s (s.setSeq q x).completed :=
  ⟨rfl, fun r hr => by rw [completed_seqOf, seqs_set_seqOf, if_neg hr]⟩

/-- A word that moves its program counter and does nothing else. -/
theorem jumps_of {i : Instr} {q : Seq} {s : State} {a : Addr} (h : exec i s = finish q s (.ok (s.setPc q a))) : Jumps i q s a := by
  obtain ⟨hp, hlc, hrun⟩ := setPc_seq s q q a
  exact ⟨(s.setPc q a).completed, h, rfl, pcOf_setPc_same s q a, onlySequencer_setSeq s q _, hp, hlc, hrun⟩

/-- A branch moves the program counter to its target or past the word. -/
theorem branch_eq_setPc (s : State) (q : Seq) (n : BitVec 1) (p : BitVec 4) (o : BitVec 21) :
    s.branch q n p o = s.setPc q (if (s.pred q p ^^ (n == 1)) = true then s.branchTarget q o else s.nextPc q) := by
  rw [State.branch, ← holds_eq_xor]
  exact (apply_ite (s.setPc q) _ _ _).symm

theorem jumps_of_branch {i : Instr} {q : Seq} {s : State} {n : BitVec 1} {p : BitVec 4} {o : BitVec 21}
    (h : exec i s = finish q s (.ok (s.branch q n p o))) :
    Jumps i q s (if (s.pred q p ^^ (n == 1)) = true then s.branchTarget q o else s.nextPc q) :=
  jumps_of (h.trans (by rw [branch_eq_setPc]))

/-- Engine words are issued by the load or the store sequencer, whose words have four bytes (R186). -/
theorem wordBytes_engineSeq (s : State) : wordBytes s.engineSeq = 4 := by
  unfold State.engineSeq
  split <;> rfl

theorem nextPc_engineSeq (s : State) : s.nextPc s.engineSeq = s.pcOf s.engineSeq + 4 := by
  rw [State.nextPc, wordBytes_engineSeq]
  rfl

theorem branchTarget_engineSeq (s : State) (o : BitVec 21) :
    s.branchTarget s.engineSeq o = s.pcOf s.engineSeq + o.signExtend 72 * 4 := by
  rw [State.branchTarget, wordBytes_engineSeq]
  rfl

/-- A control word that goes to an address and writes an address register. -/
theorem setPc_setA_keeps (s : State) (a v : Addr) (d : BitVec 5) :
    let t := ((s.setPc .control a).setA d v).completed
    t.pcOf .control = a ∧ t.aReg d = v ∧ KeepsScalarsButA d s t ∧ KeepsSequencers s t ∧ KeepsBeyondScalars s t := by
  have ha (r : BitVec 5) : (((s.setPc .control a).setA d v).completed).aReg r = if r = d then v else s.aReg r :=
    aReg_setA (s.setPc .control a) d r v
  refine ⟨rfl, by rw [ha, if_pos rfl], ⟨fun _ => rfl, fun r hr => by rw [ha, if_neg hr], fun _ => rfl, rfl, rfl⟩,
    ⟨fun q => ?_, fun q hq => ?_⟩, rfl⟩
  · exact setPc_seq s .control q a
  · exact pcOf_setPc_other s a hq

theorem jmp_of_aligned {s : State} {a : BitVec 5} (h : (s.aReg a).toNat % 4 = 0) : Jumps (.jmp a) .control s (s.aReg a) :=
  jumps_of (congrArg (finish .control s) (if_pos h))

theorem callr_of_aligned {s : State} {a : BitVec 5} (h : (s.aReg a).toNat % 4 = 0) :
    Completes (.callr a) s ((s.setPc .control (s.aReg a)).setA 15 (s.nextPc .control)) :=
  completes_of (q := .control) (congrArg (finish .control s) (if_pos h))

theorem jmp_of_misaligned {s : State} {a : BitVec 5} (h : (s.aReg a).toNat % 4 ≠ 0) : Raises (.jmp a) .control s .misalign 0 0 :=
  raises_of (congrArg (finish .control s) (if_neg h))

theorem callr_of_misaligned {s : State} {a : BitVec 5} (h : (s.aReg a).toNat % 4 ≠ 0) : Raises (.callr a) .control s .misalign 0 0 :=
  raises_of (congrArg (finish .control s) (if_neg h))

theorem call_of_taken {s : State} {n : BitVec 1} {p : BitVec 4} (o : BitVec 21) (h : (s.pred .control p ^^ (n == 1)) = true) :
    Completes (.call n p o) s ((s.setPc .control (s.branchTarget .control o)).setA 15 (s.nextPc .control)) :=
  completes_of (q := .control) (congrArg (fun t => finish .control s (.ok t)) (if_pos ((holds_eq_xor s .control n p).trans h)))

theorem call_of_not_taken {s : State} {n : BitVec 1} {p : BitVec 4} (o : BitVec 21) (h : ¬ (s.pred .control p ^^ (n == 1)) = true) :
    Completes (.call n p o) s (s.advance .control) :=
  completes_of (q := .control) (congrArg (fun t => finish .control s (.ok t)) (if_neg (by rwa [holds_eq_xor])))

/-- A call writes a15 where it is taken and nothing where it is not (R217). -/
theorem call_ends (s : State) (n : BitVec 1) (p : BitVec 4) (o : BitVec 21) :
    ∃ t, exec (.call n p o) s = .next t ∧ t.last = .done ∧ KeepsSequencers s t ∧ KeepsBeyondScalars s t ∧
      (if (s.pred .control p ^^ (n == 1)) = true then
        t.pcOf .control = s.pcOf .control + o.signExtend 72 * 4 ∧ t.aReg 15 = s.pcOf .control + 4 ∧ KeepsScalarsButA 15 s t
      else t.pcOf .control = s.pcOf .control + 4 ∧ t.sc = s.sc) := by
  by_cases h : (s.pred .control p ^^ (n == 1)) = true
  · obtain ⟨hpc, ha, hscalars, hseqs, hbeyond⟩ := setPc_setA_keeps s (s.branchTarget .control o) (s.nextPc .control) 15
    exact ⟨_, call_of_taken o h, rfl, hseqs, hbeyond, by rw [if_pos h]; exact ⟨hpc, ha, hscalars⟩⟩
  · obtain ⟨hpc, hseqs⟩ := advance_keepsSequencers (s := s) rfl
    exact ⟨_, call_of_not_taken o h, rfl, hseqs, rfl, by rw [if_neg h]; exact ⟨hpc, rfl⟩⟩

/-- Settles O6: jumps and branches are `State.setPc` of their target, a call also writes a15, and a nop advances. -/
theorem branchWords : Obligations.BranchWords := by
  unfold Obligations.BranchWords
  refine ⟨fun s a => ⟨fun haligned => ⟨jmp_of_aligned haligned, ?_⟩, fun h => ⟨jmp_of_misaligned h, callr_of_misaligned h⟩⟩,
    fun s n p o => ⟨jumps_of_branch rfl, jumps_of_branch rfl, fun q hq => ?_, call_ends s n p o⟩,
    fun s => ⟨jumps_of rfl, jumps_of rfl, fun q hq => ?_, completes_of (q := .compute) rfl, completes_of (q := .compute) rfl⟩⟩
  · obtain ⟨hpc, ha, hkeeps⟩ := setPc_setA_keeps s (s.aReg a) (s.nextPc .control) 15
    exact ⟨_, callr_of_aligned haligned, rfl, hpc, ha, hkeeps⟩
  · subst hq
    rw [← branchTarget_engineSeq, ← nextPc_engineSeq]
    exact jumps_of_branch rfl
  · subst hq
    rw [← nextPc_engineSeq]
    exact jumps_of rfl

end Sys2Proof.Machine
end

section
/-! PROOF. Loop closes, loop counters and the stage window (R219, R220, R304). -/
namespace Sys2Proof.Machine
open Sys2Proof

theorem setSeq_setSeq (s : State) (q : Seq) (x y : SeqRegs) : (s.setSeq q x).setSeq q y = s.setSeq q y := by
  cases q <;> rfl

theorem setPc_setSeq (s : State) (q : Seq) (run : Bool) (pc a : Addr) (p : BitVec 16) (lc : SMap LoopCounter) :
    (s.setSeq q ⟨run, pc, p, lc⟩).setPc q a = s.setSeq q ⟨run, a, p, lc⟩ := by
  rw [State.setPc, setSeq_setSeq, seqOf_setSeq_same]

theorem advance_setSeq (s : State) (q : Seq) (run : Bool) (p : BitVec 16) (lc : SMap LoopCounter) :
    (s.setSeq q ⟨run, s.pcOf q, p, lc⟩).advance q = s.setSeq q ⟨run, s.nextPc q, p, lc⟩ := by
  have hnext : (s.setSeq q ⟨run, s.pcOf q, p, lc⟩).nextPc q = s.nextPc q := by
    rw [State.nextPc, State.pcOf, seqOf_setSeq_same, State.nextPc]
  rw [State.advance, setPc_setSeq, hnext]

/-- One loop counter written and, under a bit, the predicates changed: one write of the sequencer's registers. -/
theorem setLc_setWindow (s : State) (q : Seq) (c : BitVec 2) (l : LoopCounter) (b : BitVec 1) (f : BitVec 16 → BitVec 16) :
    (if b = 1#1 then (s.setLc q c l).setSeq q ⟨((s.setLc q c l).seqOf q).run, ((s.setLc q c l).seqOf q).pc,
        f ((s.setLc q c l).seqOf q).p, ((s.setLc q c l).seqOf q).lc⟩ else s.setLc q c l) =
      s.setSeq q ⟨(s.seqOf q).run, s.pcOf q, if b = 1#1 then f (s.seqOf q).p else (s.seqOf q).p,
        mset (s.seqOf q).lc .zero c.toNat l⟩ := by
  simp only [State.setLc, seqOf_setSeq_same, setSeq_setSeq]
  split <;> rfl

section
variable (s : State) (q : Seq) (run : Bool) (pc : Addr) (p : BitVec 16) (lc : SMap LoopCounter)

theorem run_setSeq_same : ((s.setSeq q ⟨run, pc, p, lc⟩).completed.seqOf q).run = run := by
  rw [completed_seqOf, seqOf_setSeq_same]

theorem pcOf_setSeq_same : (s.setSeq q ⟨run, pc, p, lc⟩).completed.pcOf q = pc := by
  rw [completed_pcOf, State.pcOf, seqOf_setSeq_same]

theorem lcOf_setSeq_same (k : BitVec 2) : (s.setSeq q ⟨run, pc, p, lc⟩).completed.lcOf q k = mget lc .zero k.toNat := by
  rw [State.lcOf, completed_seqOf, seqOf_setSeq_same]

theorem pred_setSeq_same (k : BitVec 4) : (s.setSeq q ⟨run, pc, p, lc⟩).completed.pred q k = (k == 0 || p.getLsbD k.toNat) := by
  rw [State.pred, completed_seqOf, seqOf_setSeq_same]

end

/-- A loop counter after one of its sequencer was written. -/
theorem lcOf_written (s : State) (q : Seq) (c k : BitVec 2) (l : LoopCounter) :
    mget (mset (s.seqOf q).lc .zero c.toNat l) .zero k.toNat = if k = c then l else s.lcOf q k := by
  rw [mget_mset]
  exact ite_of_iff BitVec.toNat_inj _ _

/-- A bit of the stage window p8 to p15, and the predicates below it, after the window was replaced. -/
theorem getLsbD_put_window (p : BitVec 16) (v : Nat) (k : BitVec 4) :
    (put p 8 8 v).getLsbD k.toNat = if 8 ≤ k.toNat then v.testBit (k.toNat - 8) else p.getLsbD k.toNat := by
  have hk : k.toNat < 8 + 8 := k.isLt
  rw [getLsbD_put p 8 8 v _ (by decide)]
  simp only [hk, and_true]

/-- The window as ROT shifts it: each of p9 to p15 takes the predicate below it, and p8 the bit that is shifted in. -/
theorem getLsbD_shiftWindow (p : BitVec 16) (b : Bool) (k : BitVec 4) :
    (shiftWindow p b).getLsbD k.toNat =
      if 8 < k.toNat then p.getLsbD (k - 1).toNat else if k = 8 then b else p.getLsbD k.toNat := by
  have hk := k.isLt
  have hnum : k = 8 ↔ k.toNat = 8 := BitVec.toNat_inj.symm
  rw [shiftWindow, getLsbD_put_window]
  by_cases habove : 8 < k.toNat
  · have hpred : (k - 1).toNat = k.toNat - 1 := by
      rw [BitVec.toNat_sub_of_le (BitVec.le_def.mpr (by show 1 ≤ k.toNat; omega))]
      rfl
    have hbit : k.toNat - 8 = k.toNat - 9 + 1 := by omega
    have hbelow : 8 + (k.toNat - 9) = k.toNat - 1 := by omega
    have hseven : k.toNat - 9 < 7 := by omega
    have hwindow : k.toNat - 9 < 8 := by omega
    have hhalf : (2 * (fld p 8 8 % 128) + b.toNat) / 2 = fld p 8 8 % 2 ^ 7 := by have hb := Bool.toNat_le b; omega
    rw [if_pos (by omega), if_pos habove, hbit, Nat.testBit_succ, hhalf, Nat.testBit_mod_two_pow, testBit_fld, hbelow, hpred,
      decide_eq_true hseven, decide_eq_true hwindow, Bool.true_and, Bool.true_and]
  · rw [if_neg habove]
    by_cases hp8 : k.toNat = 8
    · rw [if_pos (by omega), if_pos (hnum.mpr hp8), hp8]
      cases b <;> simp [Nat.testBit_zero]
    · rw [if_neg (by omega), if_neg (mt hnum.mp hp8)]

/-- The window as INIT sets it: p8 alone (R220). -/
theorem getLsbD_initWindow (p : BitVec 16) (k : BitVec 4) :
    (put p 8 8 1).getLsbD k.toNat = if 8 ≤ k.toNat then decide (k = 8) else p.getLsbD k.toNat := by
  have hone (j : Nat) : Nat.testBit 1 j = decide (0 = j) := Nat.testBit_two_pow (n := 0)
  rw [getLsbD_put_window, hone]
  by_cases habove : 8 ≤ k.toNat
  · have hnum : k = 8 ↔ k.toNat = 8 := BitVec.toNat_inj.symm
    rw [if_pos habove, if_pos habove, decide_eq_decide, hnum]
    omega
  · rw [if_neg habove, if_neg habove]

theorem pred_of_ne_zero (s : State) (q : Seq) {k : BitVec 4} (h : k ≠ 0) : s.pred q k = (s.seqOf q).p.getLsbD k.toNat := by
  rw [State.pred, beq_eq_false_iff_ne.mpr h, Bool.false_or]

/-- Predicates as a sequencer reads them after ROT (R219). -/
theorem pred_after_shift (s : State) (q : Seq) (rot : BitVec 1) (b : Bool) (k : BitVec 4) :
    (k == 0 || (if rot = 1 then shiftWindow (s.seqOf q).p b else (s.seqOf q).p).getLsbD k.toNat) =
      if rot = 1 ∧ 8 < k.toNat then s.pred q (k - 1) else if rot = 1 ∧ k = 8 then b else s.pred q k := by
  by_cases hk : k = 0
  · subst hk
    rw [if_neg (not_and_of_not_right _ (by decide)), if_neg (not_and_of_not_right _ (by decide))]
    rfl
  · rw [beq_eq_false_iff_ne.mpr hk, Bool.false_or, pred_of_ne_zero s q hk]
    by_cases hrot : rot = 1
    · rw [if_pos hrot, getLsbD_shiftWindow]
      simp only [hrot, true_and]
      refine ite_congr rfl (fun habove => ?_) (fun _ => rfl)
      have hpred : k - 1 ≠ 0 := fun h => by
        have hone : k = 1 := by rw [← BitVec.sub_add_cancel k 1, h]; rfl
        rw [hone] at habove
        exact absurd habove (by decide)
      rw [pred_of_ne_zero s q hpred]
    · rw [if_neg hrot, if_neg (fun h => hrot h.1), if_neg (fun h => hrot h.1)]

/-- Predicates as a sequencer reads them after INIT (R220). -/
theorem pred_after_init (s : State) (q : Seq) (init : BitVec 1) (k : BitVec 4) :
    (k == 0 || (if init = 1 then put (s.seqOf q).p 8 8 1 else (s.seqOf q).p).getLsbD k.toNat) =
      if init = 1 ∧ 8 ≤ k.toNat then decide (k = 8) else s.pred q k := by
  by_cases hk : k = 0
  · subst hk
    rw [if_neg (not_and_of_not_right _ (by decide))]
    rfl
  · rw [beq_eq_false_iff_ne.mpr hk, Bool.false_or, pred_of_ne_zero s q hk]
    by_cases hinit : init = 1
    · rw [if_pos hinit, getLsbD_initWindow]
      exact ite_of_iff (iff_and_self.mpr (fun _ => hinit)) _ _
    · rw [if_neg hinit, if_neg (fun h => hinit h.1)]

/-- What a loop close leaves in its counter (R219). -/
def LoopCounter.closed (l : LoopCounter) : LoopCounter :=
  if l.rem ≠ 0 then ⟨l.rem - 1, l.drain⟩ else if l.drain ≠ 0 then ⟨0, l.drain - 1⟩ else l

theorem closed_eq (l : LoopCounter) :
    (if l.rem != 0 then ⟨l.rem - 1, l.drain⟩ else if l.drain != 0 then ⟨l.rem, l.drain - 1⟩ else l) = l.closed := by
  unfold LoopCounter.closed
  by_cases hrem : l.rem = 0#32
  · simp [hrem]
  · simp [hrem]

/-- A loop close replaces its sequencer's registers: the program counter, the window under ROT, and one counter (R219). -/
theorem loopClose_eq_setSeq (s : State) (q : Seq) (rot : BitVec 1) (c : BitVec 2) (o : BitVec 21) :
    s.loopClose q rot c o = s.setSeq q ⟨(s.seqOf q).run,
      if (s.lcOf q c).rem ≠ 0 ∨ (s.lcOf q c).drain ≠ 0 then s.branchTarget q o else s.nextPc q,
      if rot = 1 then shiftWindow (s.seqOf q).p ((s.lcOf q c).rem != 0) else (s.seqOf q).p,
      mset (s.seqOf q).lc .zero c.toNat (s.lcOf q c).closed⟩ := by
  rw [State.loopClose]
  dsimp only
  rw [closed_eq, setLc_setWindow s q c _ rot (fun p => shiftWindow p ((s.lcOf q c).rem != 0)), setPc_setSeq, advance_setSeq]
  simp only [Bool.or_eq_true, bne_iff_ne]
  exact (apply_ite (fun a => s.setSeq q ⟨_, a, _, _⟩) _ _ _).symm

/-- A loop counter set replaces one counter, and the window under INIT (R220). -/
theorem loopSet_advance_eq_setSeq (s : State) (q : Seq) (init : BitVec 1) (c : BitVec 2) (n : Nat) (d : BitVec 3) :
    (s.loopSet q init c n d).advance q = s.setSeq q ⟨(s.seqOf q).run, s.nextPc q,
      if init = 1 then put (s.seqOf q).p 8 8 1 else (s.seqOf q).p,
      mset (s.seqOf q).lc .zero c.toNat ⟨BitVec.ofNat 32 (n - 1), d⟩⟩ := by
  rw [State.loopSet]
  dsimp only
  rw [setLc_setWindow s q c _ init (fun p => put p 8 8 1), advance_setSeq]
  rfl

/-- A word that is a loop close. -/
theorem closesLoop_of {i : Instr} {q : Seq} {s : State} {rot : BitVec 1} {c : BitVec 2} {o : BitVec 21}
    (h : exec i s = finish q s (.ok (s.loopClose q rot c o))) : ClosesLoop i q s rot c (s.branchTarget q o) (s.nextPc q) := by
  have hdone := completes_of (loopClose_eq_setSeq .. ▸ h)
  refine ⟨_, hdone, rfl, onlySequencer_setSeq s q _, run_setSeq_same .., pcOf_setSeq_same .., ?_, fun k hk => ?_,
    fun k => ?_⟩
  · rw [lcOf_setSeq_same, lcOf_written, if_pos rfl]
    rfl
  · rw [lcOf_setSeq_same, lcOf_written, if_neg hk]
  · rw [pred_setSeq_same, pred_after_shift]
    have hlive : ((s.lcOf q c).rem != 0) = decide ((s.lcOf q c).rem ≠ 0) :=
      Bool.eq_iff_iff.mpr (bne_iff_ne.trans decide_eq_true_iff.symm)
    exact ite_congr rfl (fun _ => rfl) (fun _ => ite_congr rfl (fun _ => hlive) (fun _ => rfl))

/-- A word that sets a loop counter and moves past itself. -/
theorem setsLoop_of {i : Instr} {q : Seq} {s : State} {init : BitVec 1} {c : BitVec 2} {n : Nat} {d : BitVec 3}
    (h : exec i s = finish q s (.ok ((s.loopSet q init c n d).advance q))) : SetsLoop i q s init c n d := by
  have hdone := completes_of (loopSet_advance_eq_setSeq .. ▸ h)
  refine ⟨_, hdone, rfl, onlySequencer_setSeq s q _, run_setSeq_same .., pcOf_setSeq_same .., ?_, fun k hk => ?_,
    fun k => ?_⟩
  · rw [lcOf_setSeq_same, lcOf_written, if_pos rfl]
  · rw [lcOf_setSeq_same, lcOf_written, if_neg hk]
  · rw [pred_setSeq_same, pred_after_init]

end Sys2Proof.Machine
end

section
/-! PROOF. Loop counters and modulo registers (R220 to R222), and the modulo post-increment. -/
namespace Sys2Proof.Machine
open Sys2Proof

section
variable (s : State) (z : BitVec 1) (c : BitVec 2) (d : BitVec 3) (a : BitVec 5)

theorem lcset_sets (hpos : 0 < (s.gReg a).toNat) (hle : (s.gReg a).toNat ≤ 2 ^ 32) :
    SetsLoop (.lcset z c a d) .control s z c (s.gReg a).toNat d := by
  have hrange : ¬ (decide ((s.gReg a).toNat = 0) || decide (2 ^ 32 < (s.gReg a).toNat)) = true := by
    rw [Bool.or_eq_true, decide_eq_true_iff, decide_eq_true_iff]
    omega
  exact setsLoop_of (congrArg (finish .control s) (if_neg hrange))

theorem lcset_raises (h : (s.gReg a).toNat = 0 ∨ 2 ^ 32 < (s.gReg a).toNat) :
    Raises (.lcset z c a d) .control s .fieldRange 0 0 := by
  have hrange : (decide ((s.gReg a).toNat = 0) || decide (2 ^ 32 < (s.gReg a).toNat)) = true := by
    rwa [Bool.or_eq_true, decide_eq_true_iff, decide_eq_true_iff]
  exact raises_of (congrArg (finish .control s) (if_pos hrange))

end

/-- The immediate form, on every sequencer that has it (R220, R304). -/
theorem setsLoop_of_lcsetImm {i : Instr} {q : Seq} {s : State} {z : BitVec 1} {c : BitVec 2} {d : BitVec 3} {n : BitVec 13}
    (h : exec i s = finish q s (lcsetImm q z c d n s)) (hn : n ≠ 0) : SetsLoop i q s z c n.toNat d :=
  setsLoop_of (h.trans (congrArg (finish q s) (if_neg hn)))

theorem raises_of_lcsetImm {i : Instr} {q : Seq} {s : State} {z : BitVec 1} {c : BitVec 2} {d : BitVec 3} {n : BitVec 13}
    (h : exec i s = finish q s (lcsetImm q z c d n s)) (hn : n = 0) : Raises i q s .fieldRange 0 0 :=
  raises_of (h.trans (congrArg (finish q s) (if_pos hn)))

/-- A loop counter written by a word that moves past itself. -/
theorem setLc_advance_eq_setSeq (s : State) (q : Seq) (c : BitVec 2) (l : LoopCounter) :
    (s.setLc q c l).advance q = s.setSeq q ⟨(s.seqOf q).run, s.nextPc q, (s.seqOf q).p, mset (s.seqOf q).lc .zero c.toNat l⟩ :=
  advance_setSeq s q _ _ _

/-- The bits of gA that lcwr asks to be zero (R221). -/
theorem fld_35_29 (v : Word64) : fld v 35 29 = v.toNat / 2 ^ 35 := by
  rw [fld, Nat.shiftRight_eq_div_pow, Nat.mod_eq_of_lt]
  omega

theorem lcwr_writes {s : State} {c : BitVec 2} {a : BitVec 5} (h : (s.gReg a).toNat < 2 ^ 35) :
    Completes (.lcwr c a) s ((s.setLc .control c ⟨(s.gReg a).setWidth 32, BitVec.ofNat 3 ((s.gReg a).toNat / 2 ^ 32)⟩).advance .control) := by
  have hzero : ¬ (fld (s.gReg a) 35 29 != 0) = true := by
    rw [fld_35_29, bne_iff_ne, Classical.not_not]
    omega
  have hdrain : BitVec.ofNat 3 (fld (s.gReg a) 32 3) = BitVec.ofNat 3 ((s.gReg a).toNat / 2 ^ 32) := by
    rw [fld, Nat.shiftRight_eq_div_pow]
    exact BitVec.eq_of_toNat_eq (Nat.mod_mod _ _)
  rw [← hdrain]
  exact completes_of (congrArg (finish .control s) (if_neg hzero))

theorem lcwr_raises {s : State} {c : BitVec 2} {a : BitVec 5} (h : 2 ^ 35 ≤ (s.gReg a).toNat) :
    Raises (.lcwr c a) .control s .fieldRange 0 0 := by
  have hset : (fld (s.gReg a) 35 29 != 0) = true := by
    rw [fld_35_29, bne_iff_ne]
    omega
  exact raises_of (congrArg (finish .control s) (if_pos hset))

/-- lcwr sets one loop counter from gA (R221). -/
theorem lcwr_ends {s : State} {c : BitVec 2} {a : BitVec 5} (h : (s.gReg a).toNat < 2 ^ 35) :
    ∃ t, exec (.lcwr c a) s = .next t ∧ t.last = .done ∧ OnlySequencer .control s t ∧ t.pcOf .control = s.pcOf .control + 4 ∧
      t.seqs.control.p = s.seqs.control.p ∧ t.seqs.control.run = s.seqs.control.run ∧
      t.lcOf .control c = ⟨(s.gReg a).setWidth 32, BitVec.ofNat 3 ((s.gReg a).toNat / 2 ^ 32)⟩ ∧
      ∀ k, k ≠ c → t.lcOf .control k = s.lcOf .control k := by
  have hdone := lcwr_writes (c := c) h
  rw [setLc_advance_eq_setSeq] at hdone
  refine ⟨_, hdone, rfl, onlySequencer_setSeq .., rfl, rfl, rfl, ?_, fun k hk => ?_⟩
  · rw [lcOf_setSeq_same, lcOf_written, if_pos rfl]
  · rw [lcOf_setSeq_same, lcOf_written, if_neg hk]

section
variable {s : State} {m : BitVec 3} {a b : BitVec 5}

theorem mset_raises (h : 2 ^ 22 ≤ (s.gReg a).toNat ∨ (s.gReg b).toNat = 0 ∨ 2 ^ 22 < (s.gReg a).toNat + (s.gReg b).toNat) :
    Raises (.mset m a b) .control s .fieldRange 0 0 := by
  have hrange : (decide (2 ^ 22 ≤ (s.gReg a).toNat) || decide ((s.gReg b).toNat = 0) ||
      decide (2 ^ 22 < (s.gReg a).toNat + (s.gReg b).toNat)) = true := by
    rwa [Bool.or_eq_true, Bool.or_eq_true, decide_eq_true_iff, decide_eq_true_iff, decide_eq_true_iff, or_assoc]
  exact raises_of (congrArg (finish .control s) (if_pos hrange))

theorem mset_writes (hlen : 0 < (s.gReg b).toNat) (hbase : (s.gReg a).toNat < 2 ^ 22)
    (hend : (s.gReg a).toNat + (s.gReg b).toNat ≤ 2 ^ 22) :
    Completes (.mset m a b) s ((s.setM m (w64 ((s.gReg b).toNat * 2 ^ 32 + (s.gReg a).toNat))).advance .control) := by
  have hrange : ¬ (decide (2 ^ 22 ≤ (s.gReg a).toNat) || decide ((s.gReg b).toNat = 0) ||
      decide (2 ^ 22 < (s.gReg a).toNat + (s.gReg b).toNat)) = true := by
    rw [Bool.or_eq_true, Bool.or_eq_true, decide_eq_true_iff, decide_eq_true_iff, decide_eq_true_iff]
    omega
  exact completes_of (congrArg (finish .control s) (if_neg hrange))

end

/-- A word that writes a modulo register and moves past itself. -/
theorem setM_advance_keeps (s : State) (m : BitVec 3) (v : Word64) :
    let t := ((s.setM m v).advance .control).completed
    t.pcOf .control = s.pcOf .control + 4 ∧ t.mReg m = v ∧ (∀ k, k ≠ m → t.mReg k = s.mReg k) ∧ (∀ r, t.gReg r = s.gReg r) ∧
      (∀ r, t.aReg r = s.aReg r) ∧ t.sc.bankG = s.sc.bankG ∧ t.sc.bankA = s.sc.bankA ∧ KeepsSequencers s t ∧ KeepsBeyondScalars s t := by
  have hm (k : BitVec 3) : (((s.setM m v).advance .control).completed).mReg k = if k = m then v else s.mReg k := mReg_setM s m k v
  obtain ⟨hpc, hseqs⟩ := advance_keepsSequencers (s := s) (u := s.setM m v) rfl
  exact ⟨hpc, by rw [hm, if_pos rfl], fun k hk => by rw [hm, if_neg hk], fun _ => rfl, fun _ => rfl, rfl, rfl, hseqs, rfl⟩

/-! The modulo post-increment (R222). -/

/-- An offset moved by an increment of at most LEN, wrapped by LEN into the buffer. -/
def wrapped (base len y : Int) : Int := if base + len ≤ y then y - len else if y < base then y + len else y

theorem modStep_eq (m : Word64) (a inc : Addr) :
    modStep m a inc =
      if (fld m 32 23 : Int) = 0 ∨ (fld m 32 23 : Int) < inc.toInt.natAbs then none
      else if (fld a 0 22 : Int) < fld m 0 22 ∨ (fld m 0 22 : Int) + fld m 32 23 ≤ fld a 0 22 then none
      else some (put a 0 22 (wrapped (fld m 0 22) (fld m 32 23) (fld a 0 22 + inc.toInt)).toNat) := by
  simp only [modStep, Bool.or_eq_true, decide_eq_true_eq, wrapped]

/-- The wrapped offset lies in the buffer, and is the sum or LEN away from it. -/
theorem wrapped_spec {base len x i : Int} (hlow : base ≤ x) (hhigh : x < base + len) (hle : i ≤ len) (hge : -len ≤ i) :
    let y := wrapped base len (x + i)
    base ≤ y ∧ y < base + len ∧ (y = x + i ∨ y = x + i - len ∨ y = x + i + len) := by
  unfold wrapped
  split
  · omega
  · split <;> omega

/-- The low 22 bits of an address replaced, and the bits above them. -/
theorem put_low_22 (a : Addr) {v : Nat} (h : v < 2 ^ 22) :
    (put a 0 22 v).toNat % 2 ^ 22 = v ∧ (put a 0 22 v).toNat / 2 ^ 22 = a.toNat / 2 ^ 22 := by
  have hlow : fld (put a 0 22 v) 0 22 = v := by rw [fld_put_same _ _ _ _ (by decide), Nat.mod_eq_of_lt h]
  have hhigh : fld (put a 0 22 v) 22 50 = fld a 22 50 := fld_put_other a v (by decide) (.inr (by decide))
  have habove (x : Addr) : fld x 22 50 = x.toNat / 2 ^ 22 := by
    rw [fld, Nat.shiftRight_eq_div_pow, Nat.mod_eq_of_lt]
    omega
  exact ⟨hlow, by rw [← habove, hhigh, habove]⟩

theorem cast_fld {n : Nat} (w : BitVec n) (lo len : Nat) : (fld w lo len : Int) = (w.toNat : Int) / 2 ^ lo % 2 ^ len := by
  rw [fld, Nat.shiftRight_eq_div_pow]
  push_cast
  rfl

/-- The conditions under which the post-increment faults (R222). -/
theorem modStep_eq_none {m : Word64} {a inc : Addr} (h : (fld m 32 23 : Int) = 0 ∨ (fld m 32 23 : Int) < inc.toInt ∨
      (fld m 32 23 : Int) < -inc.toInt ∨ (fld a 0 22 : Int) < fld m 0 22 ∨ (fld m 0 22 : Int) + fld m 32 23 ≤ fld a 0 22) :
    modStep m a inc = none := by
  rw [modStep_eq]
  split
  · rfl
  · exact if_pos (by omega)

/-- Inside a buffer of the scratchpad the low 22 bits move and the bits above them stay (R222). -/
theorem modStep_eq_some {m : Word64} {a inc : Addr} (hlow : fld m 0 22 ≤ fld a 0 22) (hhigh : fld a 0 22 < fld m 0 22 + fld m 32 23)
    (hle : inc.toInt ≤ fld m 32 23) (hge : -(fld m 32 23 : Int) ≤ inc.toInt) (hend : fld m 0 22 + fld m 32 23 ≤ 2 ^ 22) :
    ∃ b, modStep m a inc = some b ∧ b.toNat / 2 ^ 22 = a.toNat / 2 ^ 22 ∧
      (b.toNat % 2 ^ 22 : Int) = wrapped (fld m 0 22) (fld m 32 23) (fld a 0 22 + inc.toInt) := by
  obtain ⟨hfrom, hto, -⟩ := wrapped_spec (base := fld m 0 22) (x := fld a 0 22) (by omega) (by omega) hle hge
  generalize hy : wrapped (fld m 0 22) (fld m 32 23) (fld a 0 22 + inc.toInt) = y at hfrom hto
  obtain ⟨hmod, habove⟩ := put_low_22 a (v := y.toNat) (by omega)
  refine ⟨put a 0 22 y.toNat, ?_, habove, by omega⟩
  rw [modStep_eq, if_neg (by omega), if_neg (by omega), hy]

/-- Settles O7: a loop close and a counter set are one write of their sequencer's registers (`closesLoop_of`, `setsLoop_of`); mset and
lcwr check their ranges first; the post-increment is `wrapped` of the moved offset. -/
theorem loopWords : Obligations.LoopWords := by
  unfold Obligations.LoopWords
  refine ⟨⟨fun s r c o => ⟨closesLoop_of rfl, closesLoop_of rfl, fun q hq => ?eLoop⟩,
      fun s z c d => ⟨fun a => ⟨fun h => lcset_sets s z c d a h.1 h.2, lcset_raises s z c d a⟩,
        fun n => ⟨fun hn => ⟨setsLoop_of_lcsetImm rfl hn, setsLoop_of_lcsetImm rfl hn, fun q hq => ?eSets⟩,
          fun hn => ⟨raises_of_lcsetImm rfl hn, raises_of_lcsetImm rfl hn, fun q hq => ?eRaises⟩⟩⟩,
      fun s c a => ⟨lcwr_ends, lcwr_raises⟩, fun d c => writesG_of _ _ _ (fun _ => rfl), fun d m => writesG_of _ _ _ (fun _ => rfl)⟩,
    fun s m a b => ⟨mset_raises, fun hlen hbase hend => ⟨_, mset_writes hlen hbase hend, rfl, setM_advance_keeps s m _⟩⟩,
    fun m a inc => ?post⟩
  case eLoop =>
    subst hq
    rw [← branchTarget_engineSeq, ← nextPc_engineSeq]
    exact closesLoop_of rfl
  case eSets => exact hq ▸ setsLoop_of_lcsetImm rfl hn
  case eRaises => exact hq ▸ raises_of_lcsetImm rfl hn
  case post =>
    have hbase := cast_fld m 0 22
    have hlen := cast_fld m 32 23
    have hx := cast_fld a 0 22
    simp only [Int.pow_zero, Int.ediv_one] at hbase hx
    rw [← hbase, ← hlen, ← hx]
    intro base len x inside
    refine ⟨fun hinside => ?_, modStep_eq_none⟩
    obtain ⟨hlow, hhigh, hle, hge, -, hend⟩ := hinside
    obtain ⟨b, hstep, habove, hy⟩ := modStep_eq_some (m := m) (a := a) (by omega) (by omega) hle hge (by omega)
    refine ⟨b, hstep, habove, ?_⟩
    rw [hy]
    exact wrapped_spec hlow hhigh hle hge

end Sys2Proof.Machine
end

section
/-! PROOF. The CSR words (R223 to R225): one equation for each way that `State.csrWord` ends. -/
namespace Sys2Proof.Machine
open Sys2Proof

/-- An access to CFGDATA while an earlier access of the control sequencer is outstanding (R225). -/
theorem csrWord_of_held {s : State} (d : Option (BitVec 5)) {n : Nat} (f : Option (Word64 → Word64)) (hcfg : n = 0x1E)
    (hheld : (s.ownRows.isEmpty && s.opsPerformed) = false) : s.csrWord d n f = .wait s := by
  simp only [State.csrWord, State.csrOrdered, hcfg, hheld, decide_true, Bool.not_false, Bool.and_self, ↓reduceIte]

section
variable {s : State} {n : Nat} (hfree : n ≠ 0x1E ∨ (s.ownRows = [] ∧ s.opsPerformed = true))
include hfree

/-- Every other access goes on. -/
theorem csrOrdered_of_free (k : Res) : s.csrOrdered n k = k := by
  have hgo : (decide (n = 0x1E) && !(s.ownRows.isEmpty && s.opsPerformed)) = false := by
    obtain hn | ⟨hrows, hops⟩ := hfree
    · rw [decide_eq_false hn, Bool.false_and]
    · rw [hrows, hops]
      exact Bool.and_false _
  rw [State.csrOrdered, hgo]
  rfl

theorem csrWord_of_unread {d : BitVec 5} {f : Option (Word64 → Word64)} {e : Cause} (hread : s.csrRead n = .error e) :
    s.csrWord (some d) n f = .fail e := by
  rw [State.csrWord, csrOrdered_of_free hfree]
  simp only [Option.isSome_some, ↓reduceIte, hread]

theorem csrWord_of_read {d : BitVec 5} {v : Word64} (hread : s.csrRead n = .ok v) :
    s.csrWord (some d) n none = .ok ((s.setG d v).advance .control) := by
  rw [State.csrWord, csrOrdered_of_free hfree]
  simp only [Option.isSome_some, ↓reduceIte, hread]

theorem csrWord_of_unwritten {d : BitVec 5} {f : Word64 → Word64} {v : Word64} {e : Cause} (hread : s.csrRead n = .ok v)
    (hwrite : s.csrWrite n (f v) = .error e) : s.csrWord (some d) n (some f) = .fail e := by
  rw [State.csrWord, csrOrdered_of_free hfree]
  simp only [Option.isSome_some, ↓reduceIte, hread, hwrite]

theorem csrWord_of_written {d : BitVec 5} {f : Word64 → Word64} {v : Word64} {t : State} (hread : s.csrRead n = .ok v)
    (hwrite : s.csrWrite n (f v) = .ok t) : s.csrWord (some d) n (some f) = .ok ((t.setG d v).advance .control) := by
  rw [State.csrWord, csrOrdered_of_free hfree]
  simp only [Option.isSome_some, ↓reduceIte, hread, hwrite]

/-- csrw reads nothing. -/
theorem csrWord_write_of_unwritten {x : Word64} {e : Cause} (hwrite : s.csrWrite n x = .error e) :
    s.csrWord none n (some (fun _ => x)) = .fail e := by
  rw [State.csrWord, csrOrdered_of_free hfree]
  simp only [Option.isSome_none, Bool.false_eq_true, ↓reduceIte, hwrite]

theorem csrWord_write_of_written {x : Word64} {t : State} (hwrite : s.csrWrite n x = .ok t) :
    s.csrWord none n (some (fun _ => x)) = .ok (t.advance .control) := by
  rw [State.csrWord, csrOrdered_of_free hfree]
  simp only [Option.isSome_none, Bool.false_eq_true, ↓reduceIte, hwrite]

end

section
variable (s : State) (d a : BitVec 5) (c : BitVec 12)

/-- Every CSR word is `State.csrWord`. -/
theorem exec_csr_word {i : Instr} (h : i ∈ [Instr.csrr d c, .csrw a c, .csrs d a c, .csrc d a c, .csrrw d a c]) :
    ∃ r f, exec i s = finish .control s (s.csrWord r c.toNat f) := by
  simp only [List.mem_cons, List.not_mem_nil, or_false] at h
  obtain rfl | rfl | rfl | rfl | rfl := h <;> exact ⟨_, _, rfl⟩

/-- The words with a destination read. -/
theorem exec_csr_reader {i : Instr} (h : i ∈ [Instr.csrr d c, .csrs d a c, .csrc d a c, .csrrw d a c]) :
    ∃ f, exec i s = finish .control s (s.csrWord (some d) c.toNat f) := by
  simp only [List.mem_cons, List.not_mem_nil, or_false] at h
  obtain rfl | rfl | rfl | rfl := h <;> exact ⟨_, rfl⟩

/-- What the words that read and write make of the value read (R223). -/
theorem exec_csr_modifier {i : Instr} {v w : Word64}
    (h : (i, w) ∈ [(Instr.csrs d a c, if c.toNat = 0x19 then s.gReg a else v ||| s.gReg a),
      (.csrc d a c, if c.toNat = 0x19 then 0 else v &&& ~~~(s.gReg a)), (.csrrw d a c, s.gReg a)]) :
    ∃ f : Word64 → Word64, f v = w ∧ exec i s = finish .control s (s.csrWord (some d) c.toNat (some f)) := by
  have htags : c = 0x19 ↔ c.toNat = 0x19 := BitVec.toNat_inj.symm
  simp only [List.mem_cons, List.not_mem_nil, or_false, Prod.mk.injEq] at h
  obtain ⟨rfl, rfl⟩ | ⟨rfl, rfl⟩ | ⟨rfl, rfl⟩ := h
  · exact ⟨fun x => if c = 0x19 then s.gReg a else x ||| s.gReg a, ite_of_iff htags _ _, rfl⟩
  · exact ⟨fun x => if c = 0x19 then 0 else x &&& ~~~(s.gReg a), ite_of_iff htags _ _, rfl⟩
  · exact ⟨_, rfl, rfl⟩

end

/-! What reads and writes refuse, and the writes of FMODE, HOLDT and STATUS. -/

theorem csrRead_privilege {s : State} {n : Nat} (hsup : s.sup = false) (hn : csrSupervisor n = true) :
    s.csrRead n = .error .privilege := by
  rw [State.csrRead, hn, hsup]
  rfl

theorem csrWrite_privilege {s : State} {n : Nat} (v : Word64) (hsup : s.sup = false) (hn : (csrReadOnly n || csrUserRo n) = true) :
    s.csrWrite n v = .error .privilege := by
  rw [State.csrWrite, hn, hsup]
  rfl

/-- FMODE holds its three bits (R56). -/
theorem csrWrite_fmode (s : State) (v : Word64) : s.csrWrite 0x14 v = .ok (s.setCsr 0x14 (v &&& 7)) := rfl

/-- HOLDT takes 1 to 4,194,304 ticks (R102). -/
theorem csrWrite_holdt (s : State) (v : Word64) :
    s.csrWrite 0x16 v = if fld v 0 23 = 0 ∨ 4194304 < fld v 0 23 then .error .fieldRange else .ok (s.setCsr 0x16 (w64 (fld v 0 23))) := by
  have hwrite : s.csrWrite 0x16 v = if (decide (fld v 0 23 = 0) || decide (4194304 < fld v 0 23)) = true then .error .fieldRange
      else .ok (s.setCsr 0x16 (w64 (fld v 0 23))) := rfl
  simpa only [Bool.or_eq_true, decide_eq_true_eq] using hwrite

/-- STATUS as a write of `v` leaves it: STEP and PMODE are taken, and PWORLD in the secure world (R353). -/
def statusWritten (st v : Word64) (secure : Bool) : Word64 :=
  let st' := putBit (putBit st 0 (v.getLsbD 0)) 3 (v.getLsbD 3)
  if secure then putBit st' 4 (v.getLsbD 4) else st'

theorem getLsbD_statusWritten (st v : Word64) (secure : Bool) (j : Nat) :
    (statusWritten st v secure).getLsbD j =
      if j = 0 ∨ j = 3 ∨ (j = 4 ∧ secure = true) then v.getLsbD j else st.getLsbD j := by
  have hlow : (putBit (putBit st 0 (v.getLsbD 0)) 3 (v.getLsbD 3)).getLsbD j = if j = 0 ∨ j = 3 then v.getLsbD j else st.getLsbD j := by
    rw [getLsbD_putBit _ _ _ _ (by decide), getLsbD_putBit _ _ _ _ (by decide)]
    by_cases h3 : j = 3
    · rw [if_pos h3, if_pos (.inr h3), h3]
    · rw [if_neg h3]
      by_cases h0 : j = 0
      · rw [if_pos h0, if_pos (.inl h0), h0]
      · rw [if_neg h0, if_neg (by omega)]
  cases secure with
  | false =>
    simp only [Bool.false_eq_true, and_false, or_false]
    exact hlow
  | true =>
    simp only [statusWritten, ↓reduceIte, and_true]
    rw [getLsbD_putBit _ _ _ _ (by decide), hlow]
    by_cases h4 : j = 4
    · rw [if_pos h4, if_pos (.inr (.inr h4)), h4]
    · rw [if_neg h4]
      exact ite_of_iff (by omega) _ _

theorem csrWrite_status {s : State} (v : Word64) (hsup : s.sup = true) :
    s.csrWrite 0 v = .ok (s.setCsr 0 (statusWritten s.status v s.secure)) := by
  rw [State.csrWrite, hsup]
  rfl

theorem status_setCsr (s : State) (v : Word64) : (s.setCsr 0 v).status = v := by
  rw [State.status, csrOf_setCsr, if_pos rfl]

/-- After a write of STATUS the mode, the world and INH are as before. -/
theorem csrWrite_status_bits {s : State} (v : Word64) (hsup : s.sup = true) :
    ∃ t, s.csrWrite 0 v = .ok t ∧ t.status.getLsbD 0 = v.getLsbD 0 ∧ t.status.getLsbD 3 = v.getLsbD 3 ∧
      t.status.getLsbD 4 = (if s.secure then v.getLsbD 4 else s.status.getLsbD 4) ∧ t.sup = s.sup ∧ t.inh = s.inh ∧
      t.secure = s.secure := by
  have hbit (j : Nat) := (congrArg (fun w => w.getLsbD j) (status_setCsr s (statusWritten s.status v s.secure))).trans
    (getLsbD_statusWritten s.status v s.secure j)
  have hworld : (4 = 0 ∨ 4 = 3 ∨ (4 = 4 ∧ s.secure = true)) ↔ s.secure = true := by simp
  exact ⟨_, csrWrite_status v hsup, hbit 0, hbit 3, (hbit 4).trans (ite_of_iff hworld _ _), hbit 1, hbit 7, hbit 2⟩

/-- Settles O41: each word is `State.csrWord` of its number and its function, which waits, fails or ends as `csrWord_of_…` says. -/
theorem csrWords : Obligations.CsrWords := by
  unfold Obligations.CsrWords
  intro s d a c n x
  refine ⟨fun hcfg hheld i hi => ?waits, fun hfree => ⟨fun e hread i hi => ?unread, fun v hread => ⟨?read, fun i w hi => ?modifies⟩,
      fun e hwrite => ?unwritten, fun t hwrite => ?written⟩,
    fun hsup => ⟨fun m hm => ?userReads, fun m hm => ?userWrites⟩,
    fun v => ⟨csrWrite_fmode s v, ?fmode, ?holdtRange, ?holdt, csrWrite_status_bits v⟩⟩
  case waits =>
    obtain ⟨r, f, hexec⟩ := exec_csr_word s d a c hi
    rw [Waits, hexec, csrWord_of_held r f hcfg hheld]
    rfl
  case unread =>
    obtain ⟨f, hexec⟩ := exec_csr_reader s d a c hi
    exact raises_of (by rw [hexec, csrWord_of_unread hfree hread])
  case read => exact completes_of (congrArg (finish .control s) (csrWord_of_read hfree hread))
  case modifies =>
    obtain ⟨f, rfl, hexec⟩ := exec_csr_modifier s d a c hi
    exact ⟨fun e hwrite => raises_of (by rw [hexec, csrWord_of_unwritten hfree hread hwrite]),
      fun t hwrite => completes_of (by rw [hexec, csrWord_of_written hfree hread hwrite])⟩
  case unwritten => exact raises_of (congrArg (finish .control s) (csrWord_write_of_unwritten hfree hwrite))
  case written => exact completes_of (congrArg (finish .control s) (csrWord_write_of_written hfree hwrite))
  case userReads =>
    have hall : ∀ m ∈ [7, 0x1D, 0x1E], csrSupervisor m = true := by decide
    exact csrRead_privilege hsup (hall m hm)
  case userWrites =>
    have hall : ∀ m ∈ [0, 1, 2, 3, 4, 5, 6, 7, 9, 0xA, 0xB, 0xD, 0x10, 0x1D, 0x1E, 0x80], (csrReadOnly m || csrUserRo m) = true := by decide
    exact csrWrite_privilege x hsup (hall m hm)
  case fmode => rw [csrOf_setCsr, if_pos rfl]
  case holdtRange => exact fun h => (csrWrite_holdt s v).trans (if_pos h)
  case holdt => exact fun ⟨hpos, hle⟩ => (csrWrite_holdt s v).trans (if_neg (by omega))

end Sys2Proof.Machine
end

section
/-! PROOF. The clock and the locality queries (R123, R226 to R228). -/
namespace Sys2Proof.Machine
open Sys2Proof

theorem locq_of_refused {s : State} {a : BitVec 5} {c : Cause} {tv : Word64} (d : BitVec 5)
    (h : s.leafFor s.asid (s.aReg a) .read s.sup s.secure = .error (c, tv)) :
    Completes (.locq d a) s (((s.failedMiss .control c (s.aReg a)).setG d (localityFault c)).advance .control) := by
  show execLocq d a s = _
  simp only [execLocq, h]
  rfl

theorem locq_of_leaf {s u : State} {a : BitVec 5} {l : TlbEntry} (d : BitVec 5)
    (h : s.leafFor s.asid (s.aReg a) .read s.sup s.secure = .ok (u, l)) :
    Completes (.locq d a) s ((u.setG d (u.locality l.leaf (leafAddress l.leaf l.level (s.aReg a)))).advance .control) := by
  show execLocq d a s = _
  simp only [execLocq, h]
  rfl

/-- The coordinate that locq.t reads from two registers (R228). -/
def State.coordOf (s : State) (a : BitVec 5) : Coord :=
  (fld (s.gReg (a + 1)) 0 24, fld (s.gReg (a + 1)) 24 24, fld (s.gReg (a + 2)) 0 24, fld (s.gReg (a + 2)) 24 24)

section
variable {s : State} {a : BitVec 5} (d : BitVec 5)

/-- locq.t ends with gD written, also where it finds nothing. -/
theorem locqT_of_no_entry {f : TensorFault} (hentry : s.tensorEntry s.die s.asid ((s.gReg a).setWidth 32) = .error f) :
    Completes (.locqT d a) s ((s.setG d (localityFault f.cause)).advance .control) := by
  show execLocqT d a s = _
  simp only [execLocqT, hentry]
  rfl

variable {e : TensorEntry} (hentry : s.tensorEntry s.die s.asid ((s.gReg a).setWidth 32) = .ok e)
include hentry

theorem locqT_of_out_of_bounds {f : TensorFault} (hbounds : boundsFault e.entry (s.coordOf a) = some f) :
    Completes (.locqT d a) s ((s.setG d (localityFault f.cause)).advance .control) := by
  rw [State.coordOf] at hbounds
  show execLocqT d a s = _
  simp only [execLocqT, hentry, hbounds]
  rfl

variable {tile bit : Nat} (hbounds : boundsFault e.entry (s.coordOf a) = none)
  (htile : locate e.entry (fmtWidth (teFmt e.entry)) (s.coordOf a) = (tile, bit))
include hbounds htile

theorem locqT_of_no_tile {f : TensorFault}
    (hfound : (s.cacheEntry s.die s.asid e).tileEntry ⟨s.asid, s.secure, s.die, e, none⟩ e tile .read = .error f) :
    Completes (.locqT d a) s ((s.setG d (localityFault f.cause)).advance .control) := by
  rw [State.coordOf] at hbounds htile
  show execLocqT d a s = _
  simp only [execLocqT, hentry, hbounds, htile, hfound]
  rfl

theorem locqT_of_tile {u : State} {l : BitVec 128}
    (hfound : (s.cacheEntry s.die s.asid e).tileEntry ⟨s.asid, s.secure, s.die, e, none⟩ e tile .read = .ok (u, l)) :
    Completes (.locqT d a) s
      ((u.setG d (u.locality l (leafFrame l * 2 ^ 17 + swz (fld e.entry 9 3) (bit / 8)))).advance .control) := by
  rw [State.coordOf] at hbounds htile
  show execLocqT d a s = _
  simp only [execLocqT, hentry, hbounds, htile, hfound]
  rfl

end

/-- Settles O42: the clock words are `writeG`; a query ends with gD written, by the way that its leaf, its entry and its tile go. -/
theorem clockAndLocalityWords : Obligations.ClockAndLocalityWords := by
  unfold Obligations.ClockAndLocalityWords
  intro s d a
  refine ⟨writesG_of _ _ _ (fun _ => rfl), writesG_of _ _ _ (fun _ => rfl), fun c tv h => locq_of_refused d h, fun u l h => locq_of_leaf d h,
    fun f h => locqT_of_no_entry d h, fun e hentry => ⟨fun f h => locqT_of_out_of_bounds d hentry h, fun hbounds => ?_⟩⟩
  exact ⟨fun f h => locqT_of_no_tile d hentry hbounds rfl h, fun u l h => locqT_of_tile d hentry hbounds rfl h⟩

end Sys2Proof.Machine
end

section
/-! PROOF. DecodedWordsAreRight (O32). -/
namespace Sys2Proof.Machine
open Sys2Proof

/-- Settles O32: each word is decoded by evaluation. -/
theorem decodedWordsAreRight : Obligations.DecodedWordsAreRight := by
  unfold Obligations.DecodedWordsAreRight
  and_intros <;> rfl

end Sys2Proof.Machine
end
